-- ==== Sys2Proof/Word.lean ====
section
/-! DEFINITION. The word types of the machine and their plainest arithmetic (spec/00_scope.md R2-R4). -/

namespace Sys2Proof

/-- One byte. -/
abbrev Byte := BitVec 8
/-- A syllable, an FP32 word, an address register. -/
abbrev W32 := BitVec 32
/-- A scalar register. -/
abbrev W64 := BitVec 64
/-- A vector register: 2,048 bits (R30). -/
abbrev VReg := BitVec 2048
/-- A predicate register: one bit per byte lane (R32). -/
abbrev PReg := BitVec 256
/-- A vector quire or an F-view cell: 1,024 bits (R68). -/
abbrev QReg := BitVec 1024
/-- A bundle: eight syllables (R78). -/
abbrev Bundle := BitVec 256

end Sys2Proof
end

