-- ==== Sys2Proof/Syntax.lean ====
section
/-! DEFINITION. The abstract syntax: one constructor for each row of spec/opcode_table.json. The 226 syllable
instructions carry the fields of their format (spec/04_bundles.md R81-R93); the 104 events of the module have
no encoding and no fields: what one event acts on stands in the state beside it (State.args). -/

namespace Sys2Proof

/-- The register form of SA, SB, VA and VB (R84). -/
structure RG where
  dst : BitVec 6
  srcA : BitVec 7
  srcB : BitVec 7
  pred : BitVec 3
  nwb : Bool
deriving DecidableEq, Repr

/-- The immediate form (R85). -/
structure RI where
  dst : BitVec 6
  srcA : BitVec 7
  imm : BitVec 11
deriving DecidableEq, Repr

/-- The wide-immediate form (R86). -/
structure I20 where
  dst : BitVec 6
  imm : BitVec 20
deriving DecidableEq, Repr

/-- The memory form (R88). `off` is the raw nine-bit offset field. -/
structure Mem where
  reg : BitVec 6
  base : BitVec 4
  mode : BitVec 2
  off : BitVec 9
  pred : BitVec 3
deriving DecidableEq, Repr

/-- The atomic form (R89). -/
structure Atomic where
  dst : BitVec 6
  base : BitVec 4
  size : BitVec 2
  srcB : BitVec 7
  es : BitVec 2
  pred : BitVec 3
deriving DecidableEq, Repr

/-- The remote form (R90). `mid` is bits [11:4]; `chan` is the alias class. -/
structure Remote where
  data : BitVec 6
  place : BitVec 6
  mid : BitVec 8
  sig : Bool
  chan : BitVec 2
  timed : Bool
deriving DecidableEq, Repr

/-- The sync form (R91). -/
structure Sync where
  dst : BitVec 6
  srcA : BitVec 7
  obj : BitVec 8
  scope : BitVec 3
deriving DecidableEq, Repr

/-- The beat form of the MX slot (R92). -/
structure Beat where
  srcA : BitVec 7
  srcB : BitVec 7
  row : BitVec 4
  plane : Bool
  flags : BitVec 5
deriving DecidableEq, Repr

/-- The copy form of the CP slot (R93). -/
structure Copy where
  reg : BitVec 6
  srcB : BitVec 7
  bnd : BitVec 8
  pred : BitVec 3
deriving DecidableEq, Repr

/-- The eight syllable positions of a bundle (R78). -/
inductive Slot where
  | K | SA | SB | LS | VA | VB | MX | CP
deriving DecidableEq, Repr

/-- Every instruction and every event of the opcode table. -/
inductive Instr where
  /-- NOP (R79). -/
  | nop (l : Bool)
  /-- BR (R127). -/
  | br (l : Bool) (d : BitVec 24)
  /-- BRZ (R127). -/
  | brz (l : Bool) (s : BitVec 7) (d : BitVec 17)
  /-- BRNZ (R127). -/
  | brnz (l : Bool) (s : BitVec 7) (d : BitVec 17)
  /-- JMP (R127). -/
  | jmp (l : Bool) (s : BitVec 7)
  /-- CALL (R127). -/
  | call (l : Bool) (d : BitVec 24)
  /-- CALLR (R127). -/
  | callr (l : Bool) (s : BitVec 7)
  /-- RET (R127). -/
  | ret (l : Bool)
  /-- LOOP (R129). -/
  | loop (l : Bool) (s : BitVec 7) (n : BitVec 11)
  /-- LOOPM (R129). -/
  | loopm (l : Bool) (s : BitVec 7) (ii : BitVec 5) (g : BitVec 3)
  /-- BRK (R133). -/
  | brk (l : Bool) (s : BitVec 7) (n : BitVec 3)
  /-- YIELD (R135). -/
  | yield (l : Bool)
  /-- TEND (R135). -/
  | tend (l : Bool)
  /-- TRAP (R142). -/
  | trap (l : Bool) (imm : BitVec 16)
  /-- ERET (R147). -/
  | eret (l : Bool)
  /-- IFENCE (R139). -/
  | ifence (l : Bool)
  /-- RRBSET (R134). -/
  | rrbset (l : Bool) (n : BitVec 4)
  /-- NOPRE (R135). -/
  | nopre (l : Bool)
  /-- NOPREEND (R135). -/
  | nopreend (l : Bool)
  /-- WAITC (R135). -/
  | waitc (l : Bool) (s : BitVec 7)
  /-- HALT (R140). -/
  | halt (l : Bool)
  /-- STG (R132). -/
  | stg (l : Bool) (m : BitVec 21)
  /-- ADD (R114). -/
  | add (f : RG)
  /-- SUB (R114). -/
  | sub (f : RG)
  /-- MUL (R114). -/
  | mul (f : RG)
  /-- MULH (R114). -/
  | mulh (f : RG)
  /-- MULHU (R114). -/
  | mulhu (f : RG)
  /-- DIV (R115). -/
  | div (f : RG)
  /-- DIVU (R115). -/
  | divu (f : RG)
  /-- REM (R115). -/
  | rem (f : RG)
  /-- REMU (R115). -/
  | remu (f : RG)
  /-- AND (R114). -/
  | and (f : RG)
  /-- OR (R114). -/
  | or (f : RG)
  /-- XOR (R114). -/
  | xor (f : RG)
  /-- ANDN (R114). -/
  | andn (f : RG)
  /-- ORN (R114). -/
  | orn (f : RG)
  /-- SEL (R114). -/
  | sel (f : RG)
  /-- SHL (R114). -/
  | shl (f : RG)
  /-- SHR (R114). -/
  | shr (f : RG)
  /-- SRA (R114). -/
  | sra (f : RG)
  /-- ROTL (R114). -/
  | rotl (f : RG)
  /-- CMPEQ (R114). -/
  | cmpeq (f : RG)
  /-- CMPNE (R114). -/
  | cmpne (f : RG)
  /-- CMPLT (R114). -/
  | cmplt (f : RG)
  /-- CMPLTU (R114). -/
  | cmpltu (f : RG)
  /-- CMPLE (R114). -/
  | cmple (f : RG)
  /-- CMPLEU (R114). -/
  | cmpleu (f : RG)
  /-- MIN (R114). -/
  | min (f : RG)
  /-- MAX (R114). -/
  | max (f : RG)
  /-- MINU (R114). -/
  | minu (f : RG)
  /-- MAXU (R114). -/
  | maxu (f : RG)
  /-- CLZ (R114). -/
  | clz (f : RG)
  /-- CTZ (R114). -/
  | ctz (f : RG)
  /-- POPC (R114). -/
  | popc (f : RG)
  /-- EXT (R116). -/
  | ext (f : RG)
  /-- INS (R116). -/
  | ins (f : RG)
  /-- ADDI (R117). -/
  | addi (f : RI)
  /-- ANDI (R117). -/
  | andi (f : RI)
  /-- ORI (R117). -/
  | ori (f : RI)
  /-- XORI (R117). -/
  | xori (f : RI)
  /-- SHLI (R117). -/
  | shli (f : RI)
  /-- SHRI (R117). -/
  | shri (f : RI)
  /-- SRAI (R117). -/
  | srai (f : RI)
  /-- CMPEQI (R117). -/
  | cmpeqi (f : RI)
  /-- CMPLTI (R117). -/
  | cmplti (f : RI)
  /-- CMPLTUI (R117). -/
  | cmpltui (f : RI)
  /-- MOVI (R118). -/
  | movi (f : I20)
  /-- MOVHI (R118). -/
  | movhi (f : I20)
  /-- MOVFI (R118). -/
  | movfi (f : I20)
  /-- FADD (R119). -/
  | fadd (f : RG)
  /-- FSUB (R119). -/
  | fsub (f : RG)
  /-- FMUL (R119). -/
  | fmul (f : RG)
  /-- FFMA (R119). -/
  | ffma (f : RG)
  /-- FMIN (R119). -/
  | fmin (f : RG)
  /-- FMAX (R119). -/
  | fmax (f : RG)
  /-- FCMPEQ (R119). -/
  | fcmpeq (f : RG)
  /-- FCMPLT (R119). -/
  | fcmplt (f : RG)
  /-- FCMPLE (R119). -/
  | fcmple (f : RG)
  /-- FCVT (R120). -/
  | fcvt (f : RG)
  /-- FDIV (R119). -/
  | fdiv (f : RG)
  /-- FSQRT (R119). -/
  | fsqrt (f : RG)
  /-- TADD (R121). -/
  | tadd (f : RG)
  /-- TMUL (R121). -/
  | tmul (f : RG)
  /-- TFMA (R121). -/
  | tfma (f : RG)
  /-- AMOV (R122). -/
  | amov (f : RG)
  /-- AADDI (R122). -/
  | aaddi (f : RI)
  /-- AREAD (R122). -/
  | aread (f : RG)
  /-- ADELTA (R122). -/
  | adelta (f : RG)
  /-- LIDX (R122). -/
  | lidx (f : RI)
  /-- CSRR (R123). -/
  | csrr (f : RI)
  /-- CSRW (R123). -/
  | csrw (f : RI)
  /-- TOPO (R124). -/
  | topo (f : RI)
  /-- RDCYC (R125). -/
  | rdcyc (f : RG)
  /-- PANY (R126). -/
  | pany (f : RG)
  /-- PALL (R126). -/
  | pall (f : RG)
  /-- PCNT (R126). -/
  | pcnt (f : RG)
  /-- LDB (R153). -/
  | ldb (f : Mem)
  /-- LDBU (R153). -/
  | ldbu (f : Mem)
  /-- LDH (R153). -/
  | ldh (f : Mem)
  /-- LDHU (R153). -/
  | ldhu (f : Mem)
  /-- LDW (R153). -/
  | ldw (f : Mem)
  /-- LDWU (R153). -/
  | ldwu (f : Mem)
  /-- LDD (R153). -/
  | ldd (f : Mem)
  /-- STB (R153). -/
  | stb (f : Mem)
  /-- STH (R153). -/
  | sth (f : Mem)
  /-- STW (R153). -/
  | stw (f : Mem)
  /-- STD (R153). -/
  | std (f : Mem)
  /-- VLD (R155). -/
  | vld (f : Mem)
  /-- VST (R155). -/
  | vst (f : Mem)
  /-- VLDS (R156). -/
  | vlds (f : Mem)
  /-- VSTS (R156). -/
  | vsts (f : Mem)
  /-- VGATHER (R157). -/
  | vgather (f : Mem)
  /-- VSCATTER (R157). -/
  | vscatter (f : Mem)
  /-- VLDB (R158). -/
  | vldb (f : Mem)
  /-- PLD (R159). -/
  | pld (f : Mem)
  /-- PST (R159). -/
  | pst (f : Mem)
  /-- KLD (R160). -/
  | kld (f : Mem)
  /-- QSAVE (R161). -/
  | qsave (f : Mem)
  /-- QLOAD (R161). -/
  | qload (f : Mem)
  /-- ISTORE (R162). -/
  | istore (f : Mem)
  /-- AMOADD (R163). -/
  | amoadd (f : Atomic)
  /-- AMOAND (R163). -/
  | amoand (f : Atomic)
  /-- AMOOR (R163). -/
  | amoor (f : Atomic)
  /-- AMOXOR (R163). -/
  | amoxor (f : Atomic)
  /-- AMOMIN (R163). -/
  | amomin (f : Atomic)
  /-- AMOMAX (R163). -/
  | amomax (f : Atomic)
  /-- AMOMINU (R163). -/
  | amominu (f : Atomic)
  /-- AMOMAXU (R163). -/
  | amomaxu (f : Atomic)
  /-- AMOSWAP (R163). -/
  | amoswap (f : Atomic)
  /-- AMOCAS (R163). -/
  | amocas (f : Atomic)
  /-- AMOFADD (R163). -/
  | amofadd (f : Atomic)
  /-- AMOTADD (R163). -/
  | amotadd (f : Atomic)
  /-- RPUT (R167). -/
  | rput (f : Remote)
  /-- RPUTV (R167). -/
  | rputv (f : Remote)
  /-- RAMO (R167). -/
  | ramo (f : Remote)
  /-- SINC (R171). -/
  | sinc (f : Sync)
  /-- SWAIT (R171). -/
  | swait (f : Sync)
  /-- SEXPECT (R171). -/
  | sexpect (f : Sync)
  /-- SWAITE (R171). -/
  | swaite (f : Sync)
  /-- SREAD (R171). -/
  | sread (f : Sync)
  /-- BARARR (R173). -/
  | bararr (f : Sync)
  /-- BARWAIT (R173). -/
  | barwait (f : Sync)
  /-- FENCE (R174). -/
  | fence (f : Sync)
  /-- FENCEMARK (R177). -/
  | fencemark (f : Sync)
  /-- GPOST (R179). -/
  | gpost (f : Sync)
  /-- GWAIT (R179). -/
  | gwait (f : Sync)
  /-- GTRY (R179). -/
  | gtry (f : Sync)
  /-- GREAD (R179). -/
  | gread (f : Sync)
  /-- VSETF (R184). -/
  | vsetf (f : RG)
  /-- VADD (R185). -/
  | vadd (f : RG)
  /-- VSUB (R185). -/
  | vsub (f : RG)
  /-- VMUL (R185). -/
  | vmul (f : RG)
  /-- VFMA (R185). -/
  | vfma (f : RG)
  /-- VFMS (R185). -/
  | vfms (f : RG)
  /-- VFNMA (R185). -/
  | vfnma (f : RG)
  /-- VDIV (R185). -/
  | vdiv (f : RG)
  /-- VMIN (R185). -/
  | vmin (f : RG)
  /-- VMAX (R185). -/
  | vmax (f : RG)
  /-- VABS (R185). -/
  | vabs (f : RG)
  /-- VNEG (R185). -/
  | vneg (f : RG)
  /-- VCMPEQ (R187). -/
  | vcmpeq (f : RG)
  /-- VCMPLT (R187). -/
  | vcmplt (f : RG)
  /-- VCMPLE (R187). -/
  | vcmple (f : RG)
  /-- VSEL (R188). -/
  | vsel (f : RG)
  /-- VAND (R188). -/
  | vand (f : RG)
  /-- VOR (R188). -/
  | vor (f : RG)
  /-- VXOR (R188). -/
  | vxor (f : RG)
  /-- VSHL (R189). -/
  | vshl (f : RG)
  /-- VSHR (R189). -/
  | vshr (f : RG)
  /-- VSRA (R189). -/
  | vsra (f : RG)
  /-- VQDOT (R191). -/
  | vqdot (f : RG)
  /-- VQADD (R192). -/
  | vqadd (f : RG)
  /-- VQACC (R191). -/
  | vqacc (f : RG)
  /-- VQSUB (R192). -/
  | vqsub (f : RG)
  /-- VQRND (R194). -/
  | vqrnd (f : RG)
  /-- VQSCALE (R192). -/
  | vqscale (f : RG)
  /-- VQCLR (R192). -/
  | vqclr (f : RG)
  /-- VQMOV_QQ (R192). -/
  | vqmovQq (f : RG)
  /-- VQMOV_VQ (R192). -/
  | vqmovVq (f : RG)
  /-- VQMOV_QV (R192). -/
  | vqmovQv (f : RG)
  /-- VLQMAC (R196). -/
  | vlqmac (f : RG)
  /-- VLQADD (R196). -/
  | vlqadd (f : RG)
  /-- VLQRND (R197). -/
  | vlqrnd (f : RG)
  /-- VLQCLR (R197). -/
  | vlqclr (f : RG)
  /-- VPIV (R198). -/
  | vpiv (f : RG)
  /-- VCVT (R199). -/
  | vcvt (f : RG)
  /-- VPACK4 (R200). -/
  | vpack4 (f : RG)
  /-- VUNPACK4 (R201). -/
  | vunpack4 (f : RG)
  /-- VPERM (R202). -/
  | vperm (f : RG)
  /-- VROTL (R202). -/
  | vrotl (f : RG)
  /-- VSLIDE (R202). -/
  | vslide (f : RG)
  /-- VBCAST (R202). -/
  | vbcast (f : RG)
  /-- VIOTA (R202). -/
  | viota (f : RG)
  /-- VMOV (R202). -/
  | vmov (f : RG)
  /-- VEXT (R203). -/
  | vext (f : RG)
  /-- VINS (R203). -/
  | vins (f : RG)
  /-- VRAND (R204). -/
  | vrand (f : RG)
  /-- VTOPK (R205). -/
  | vtopk (f : RG)
  /-- VDIGEST (R206). -/
  | vdigest (f : RG)
  /-- VRECIP (R207). -/
  | vrecip (f : RG)
  /-- VRSQRT (R207). -/
  | vrsqrt (f : RG)
  /-- VSQRT (R207). -/
  | vsqrt (f : RG)
  /-- VEXP2 (R207). -/
  | vexp2 (f : RG)
  /-- VLOG2 (R207). -/
  | vlog2 (f : RG)
  /-- VTANH (R207). -/
  | vtanh (f : RG)
  /-- VSIGM (R207). -/
  | vsigm (f : RG)
  /-- PAND (R208). -/
  | pand (f : RG)
  /-- POR (R208). -/
  | por (f : RG)
  /-- PXOR (R208). -/
  | pxor (f : RG)
  /-- PNOT (R208). -/
  | pnot (f : RG)
  /-- PSET (R208). -/
  | pset (f : RG)
  /-- MCFG (R215). -/
  | mcfg (f : Beat)
  /-- MACC (R216). -/
  | macc (f : Beat)
  /-- MSHIFT (R218). -/
  | mshift (f : Beat)
  /-- MSCALE (R219). -/
  | mscale (f : Beat)
  /-- MDRAIN (R221). -/
  | mdrain (f : Beat)
  /-- MDRAINQ (R222). -/
  | mdrainq (f : Beat)
  /-- MCLR (R223). -/
  | mclr (f : Beat)
  /-- MSAVE (R225). -/
  | msave (f : Beat)
  /-- MRESTORE (R225). -/
  | mrestore (f : Beat)
  /-- MBAR (R228). -/
  | mbar (f : Beat)
  /-- CQPUSH (R231). -/
  | cqpush (f : Copy)
  /-- CWAIT (R230). -/
  | cwait (f : Copy)
  /-- CDONE (R230). -/
  | cdone (f : Copy)
  /-- CKICK (R230). -/
  | ckick (f : Copy)
  /-- CQRES (R232). -/
  | cqres (f : Copy)
  /-- RESULT_LANDING (R49). -/
  | resultLanding
  /-- STORE_WRITE (R52). -/
  | storeWrite
  /-- TRAP_ENTRY (R144). -/
  | trapEntry
  /-- WAIT_SATISFIED (R172). -/
  | waitSatisfied
  /-- GANG_STOP_SIGNAL (R312). -/
  | gangStopSignal
  /-- PREEMPT_REQUEST (R136). -/
  | preemptRequest
  /-- TASK_START (R313). -/
  | taskStart
  /-- WRITE_QUEUE_DEPART (R245). -/
  | writeQueueDepart
  /-- REQUEST_QUEUE_DEPART (R231). -/
  | requestQueueDepart
  /-- REMOTE_APPLY (R169). -/
  | remoteApply
  /-- TIMED_RELEASE (R170). -/
  | timedRelease
  /-- DONESH_PUBLICATION (R229). -/
  | doneshPublication
  /-- GATE_PUBLICATION (R332). -/
  | gatePublication
  /-- TOKEN_DIVISION (R333). -/
  | tokenDivision
  /-- GATE_POST_ARRIVAL (R334). -/
  | gatePostArrival
  /-- WAITER_RECORD (R335). -/
  | waiterRecord
  /-- MOVE_INSTALL (R336). -/
  | moveInstall
  /-- BARRIER_ARRIVAL (R325). -/
  | barrierArrival
  /-- BARRIER_RELEASE (R326). -/
  | barrierRelease
  /-- KICK (R286). -/
  | kick
  /-- CLAIM (R286). -/
  | claim
  /-- CONSUMER_SWEEP (R285). -/
  | consumerSweep
  /-- CONTENT_WINDOW_EXPIRY (R285). -/
  | contentWindowExpiry
  /-- PACKET_BEGIN (R287). -/
  | packetBegin
  /-- PACKET_COMPLETION (R288). -/
  | packetCompletion
  /-- COPY_V1 (R237). -/
  | copyV1
  /-- COPY_V2 (R237). -/
  | copyV2
  /-- TILE2D (R238). -/
  | tile2d
  /-- MCAST2D (R239). -/
  | mcast2d
  /-- FILL (R237). -/
  | fill
  /-- PACKET_FENCE (R240). -/
  | packetFence
  /-- MARK (R240). -/
  | mark
  /-- SIGNAL (R240). -/
  | signal
  /-- PREFETCH (R240). -/
  | prefetch
  /-- MIGRATE (R359). -/
  | migrate
  /-- LAUNCH (R296). -/
  | launch
  /-- LAUNCH_DEPS_MET (R298). -/
  | launchDepsMet
  /-- LAUNCH_CHECK (R300). -/
  | launchCheck
  /-- PLACEMENT_DECISION (R306). -/
  | placementDecision
  /-- GROUP_LOADED (R304). -/
  | groupLoaded
  /-- LAUNCH_DONE (R298). -/
  | launchDone
  /-- SLICE_END (R315). -/
  | sliceEnd
  /-- WATCHDOG (R316). -/
  | watchdog
  /-- GROUP_SAVE (R317). -/
  | groupSave
  /-- GROUP_RESUME (R319). -/
  | groupResume
  /-- CONTEXT_SUSPENDED (R254). -/
  | contextSuspended
  /-- FATAL_TEARDOWN (R375). -/
  | fatalTeardown
  /-- CTX_CREATE (R254). -/
  | ctxCreate
  /-- CTX_SUSPEND (R254). -/
  | ctxSuspend
  /-- CTX_RESUME (R274). -/
  | ctxResume
  /-- CTX_DESTROY (R254). -/
  | ctxDestroy
  /-- SEAL (R271). -/
  | seal
  /-- RESTORE (R275). -/
  | restore
  /-- REHOME (R276). -/
  | rehome
  /-- PLACE_SET (R267). -/
  | placeSet
  /-- SLOT_SET (R369). -/
  | slotSet
  /-- SLOT_FRAME_BOUNDARY (R369). -/
  | slotFrameBoundary
  /-- MAP_ENTRY (R352). -/
  | mapEntry
  /-- MAP_RANGE (R352). -/
  | mapRange
  /-- MAP_ROOTS (R352). -/
  | mapRoots
  /-- MAP_RINGS (R352). -/
  | mapRings
  /-- UNMAP (R353). -/
  | unmap
  /-- INVALIDATE (R354). -/
  | invalidate
  /-- HARVEST (R355). -/
  | harvest
  /-- FAULT_RESUME (R351). -/
  | faultResume
  /-- GATE_CREATE (R330). -/
  | gateCreate
  /-- GATE_OPEN (R331). -/
  | gateOpen
  /-- GATE_CLOSE (R331). -/
  | gateClose
  /-- GATE_SETACL (R331). -/
  | gateSetacl
  /-- GATE_MOVE (R336). -/
  | gateMove
  /-- GATE_REVOKE (R331). -/
  | gateRevoke
  /-- GATE_FREE (R331). -/
  | gateFree
  /-- GATE_FREEFWD (R331). -/
  | gateFreefwd
  /-- QUEUE_CREATE (R281). -/
  | queueCreate
  /-- QUEUE_DESTROY (R281). -/
  | queueDestroy
  /-- QUEUE_RESET (R281). -/
  | queueReset
  /-- INTERFACE_BIND (R290). -/
  | interfaceBind
  /-- INTERFACE_REVOKE (R290). -/
  | interfaceRevoke
  /-- INTERFACE_RELEASE (R290). -/
  | interfaceRelease
  /-- INTERFACE_REVOKED (R290). -/
  | interfaceRevoked
  /-- LINK_CMD_RETRAIN (R363). -/
  | linkCmdRetrain
  /-- LINK_CMD_DOWN (R363). -/
  | linkCmdDown
  /-- LINK_CMD_TRAIN (R363). -/
  | linkCmdTrain
  /-- PEER_TRAINING (R363). -/
  | peerTraining
  /-- TRAINING_RESULT (R363). -/
  | trainingResult
  /-- CRC_RETRY (R364). -/
  | crcRetry
  /-- SYNC_FLIT (R370). -/
  | syncFlit
  /-- POWER_REQ_FULL (R379). -/
  | powerReqFull
  /-- POWER_REQ_REDUCED (R379). -/
  | powerReqReduced
  /-- POWER_REQ_RETENTION (R379). -/
  | powerReqRetention
  /-- POWER_REQ_OFF (R379). -/
  | powerReqOff
  /-- POWER_TRANSITION_DONE (R380). -/
  | powerTransitionDone
  /-- REGISTER_WRITE (R5). -/
  | registerWrite
  /-- HOST_CXL_MEM_ACCESS (R371). -/
  | hostCxlMemAccess
  /-- PULL_REQUEST (R360). -/
  | pullRequest
  /-- PULL_RECEIVED (R360). -/
  | pullReceived
  /-- PULL_TIMEOUT (R360). -/
  | pullTimeout
  /-- PULLS_COMPLETE (R254). -/
  | pullsComplete
  /-- LINEAGE_REQUEST (R270). -/
  | lineageRequest
  /-- REMOTE_RECORD_QUERY (R401). -/
  | remoteRecordQuery
  /-- HOMEUNREACH (R401). -/
  | homeunreach
  /-- MODULE_RESET (R384). -/
  | moduleReset
  /-- DOMAIN_BRING_UP (R370). -/
  | domainBringUp
  /-- PARTITION_CHANGE_REPORT (R332). -/
  | partitionChangeReport
deriving DecidableEq, Repr

end Sys2Proof
end

