-- ==== Sys2Proof/Machine/Legal.lean ====
section
/-! DEFINITION. The decode checks of one syllable: reserved fields, operand codes and destination classes
(spec/04_bundles.md R80 check 2, R82, R87-R97, and the encodings each instruction's entry gives). -/

namespace Sys2Proof

/-- A scalar operand code of R94 that is not reserved. -/
def isScalarCode (c : BitVec 7) : Bool :=
  let n := c.toNat
  !((decide (0x43 ≤ n) && decide (n < 0x48)) || (decide (0x58 ≤ n) && decide (n < 0x5F)))

/-- A vector operand code of R95 that is not reserved. -/
def isVecCode (c : BitVec 7) : Bool :=
  let n := c.toNat
  !(decide (0x24 ≤ n) && decide (n < 0x3F))

/-- A descriptor code of R96. -/
def isDescr (c : BitVec 7) : Bool := decide (0x40 ≤ c.toNat) && decide (c.toNat < 0x60)

/-- An MX operand code of R96: a vector register or a descriptor. -/
def isMxCode (c : BitVec 7) : Bool := decide (c.toNat < 0x20) || isDescr c

/-- R211: a source field is an MX code when a load or a post-increment uses it, a post-increment needs a descriptor, and an
unused field holds zero. -/
def mxSource (c : BitVec 7) (load inc : Bool) : Bool :=
  if inc then isDescr c else if load then isMxCode c else c == 0

/-- R92, R211: the row field is used by a load from a vector register alone, and holds zero otherwise. -/
def mxRow (row : BitVec 4) (loads : List (Bool × BitVec 7)) : Bool := row == 0 || loads.any fun e => e.1 && decide (e.2.toNat < 32)

def isAddrReg (d : BitVec 6) : Bool := decide (d.toNat < 16)
def isVecReg (d : BitVec 6) : Bool := decide (d.toNat < 32)
def isEight (d : BitVec 6) : Bool := decide (d.toNat < 8)

/-- A format code that R55 assigns and that is no T4 code. -/
def isConvFmt (c : BitVec 5) : Bool := decide (4 ≤ c.toNat) && decide (c.toNat < 0x19)

/-- R215: the operand formats that a mode accepts. -/
def mxOperandFmt (mode : Nat) (c : BitVec 5) : Bool :=
  let n := c.toNat
  match mode with
  | 0 => (decide (4 ≤ n) && decide (n < 8)) || n == 0x13 || n == 0x16
  | 1 => (decide (8 ≤ n) && decide (n < 12)) || n == 0x14 || n == 0x17
  | 2 => (decide (12 ≤ n) && decide (n < 17)) || n == 0x15 || n == 0x18
  | 3 => decide (n < 2)
  | _ => false

/-- R215: a legal configuration of mode and formats. -/
def mxConfigOk (mode : Nat) (a b d : BitVec 5) : Bool :=
  mxOperandFmt mode a && mxOperandFmt mode b && isConvFmt d

/-- The 7-bit operand code in bits [11:5] of a mode-0b10 memory syllable (R88). -/
def Mem.index (f : Mem) : BitVec 7 := f.off.extractLsb' 2 7

/-- Bits [4:3] of a mode-0b10 memory syllable are zero. -/
def Mem.resZero (f : Mem) : Bool := f.off.extractLsb' 0 2 == 0

/-- R88: the mode is one of three and its unused bits are zero. -/
def Mem.modeOk (f : Mem) : Bool :=
  match f.mode.toNat with
  | 0 => true
  | 1 => f.off == 0
  | 2 => f.resZero && isScalarCode f.index
  | _ => false

/-- R90: RAMO's operation is assigned, bits [6:4] are zero, and FP32 add and T32 add are 32 bits wide. -/
def Remote.ramoOk (f : Remote) : Bool :=
  let op := (f.mid.extractLsb' 4 4).toNat
  decide (op < 10) && f.mid.extractLsb' 0 3 == 0 && (decide (op < 8) || !f.mid.getLsbD 3)

/-- Check 2 of R80 for one syllable. Events carry no encoding. -/
def Instr.legal : Instr → Bool
  | .nop _ => true
  | .br _ _ => true
  | .brz _ s _ => isScalarCode s
  | .brnz _ s _ => isScalarCode s
  | .jmp _ s => isScalarCode s
  | .call _ _ => true
  | .callr _ s => isScalarCode s
  | .ret _ => true
  | .loop _ s n => isScalarCode s && n != 0
  | .loopm _ s ii _ => isScalarCode s && ii != 0
  | .brk _ s n => isScalarCode s && decide (n.toNat < 6)
  | .yield _ => true
  | .tend _ => true
  | .trap _ _ => true
  | .eret _ => true
  | .ifence _ => true
  | .rrbset _ _ => true
  | .nopre _ => true
  | .nopreend _ => true
  | .waitc _ s => isScalarCode s
  | .halt _ => true
  | .stg _ _ => true
  | .add f => isScalarCode f.srcA && isScalarCode f.srcB
  | .sub f => isScalarCode f.srcA && isScalarCode f.srcB
  | .mul f => isScalarCode f.srcA && isScalarCode f.srcB
  | .mulh f => isScalarCode f.srcA && isScalarCode f.srcB
  | .mulhu f => isScalarCode f.srcA && isScalarCode f.srcB
  | .div f => isScalarCode f.srcA && isScalarCode f.srcB
  | .divu f => isScalarCode f.srcA && isScalarCode f.srcB
  | .rem f => isScalarCode f.srcA && isScalarCode f.srcB
  | .remu f => isScalarCode f.srcA && isScalarCode f.srcB
  | .and f => isScalarCode f.srcA && isScalarCode f.srcB
  | .or f => isScalarCode f.srcA && isScalarCode f.srcB
  | .xor f => isScalarCode f.srcA && isScalarCode f.srcB
  | .andn f => isScalarCode f.srcA && isScalarCode f.srcB
  | .orn f => isScalarCode f.srcA && isScalarCode f.srcB
  | .sel f => isScalarCode f.srcA && isScalarCode f.srcB
  | .shl f => isScalarCode f.srcA && isScalarCode f.srcB
  | .shr f => isScalarCode f.srcA && isScalarCode f.srcB
  | .sra f => isScalarCode f.srcA && isScalarCode f.srcB
  | .rotl f => isScalarCode f.srcA && isScalarCode f.srcB
  | .cmpeq f => isScalarCode f.srcA && isScalarCode f.srcB
  | .cmpne f => isScalarCode f.srcA && isScalarCode f.srcB
  | .cmplt f => isScalarCode f.srcA && isScalarCode f.srcB
  | .cmpltu f => isScalarCode f.srcA && isScalarCode f.srcB
  | .cmple f => isScalarCode f.srcA && isScalarCode f.srcB
  | .cmpleu f => isScalarCode f.srcA && isScalarCode f.srcB
  | .min f => isScalarCode f.srcA && isScalarCode f.srcB
  | .max f => isScalarCode f.srcA && isScalarCode f.srcB
  | .minu f => isScalarCode f.srcA && isScalarCode f.srcB
  | .maxu f => isScalarCode f.srcA && isScalarCode f.srcB
  | .clz f => isScalarCode f.srcA && f.srcB == 0
  | .ctz f => isScalarCode f.srcA && f.srcB == 0
  | .popc f => isScalarCode f.srcA && f.srcB == 0
  | .ext f => isScalarCode f.srcA && isScalarCode f.srcB
  | .ins f => isScalarCode f.srcA && isScalarCode f.srcB
  | .addi f => isScalarCode f.srcA
  | .andi f => isScalarCode f.srcA
  | .ori f => isScalarCode f.srcA
  | .xori f => isScalarCode f.srcA
  | .shli f => isScalarCode f.srcA && decide (f.imm.toNat < 64)
  | .shri f => isScalarCode f.srcA && decide (f.imm.toNat < 64)
  | .srai f => isScalarCode f.srcA && decide (f.imm.toNat < 64)
  | .cmpeqi f => isScalarCode f.srcA
  | .cmplti f => isScalarCode f.srcA
  | .cmpltui f => isScalarCode f.srcA
  | .movi _ => true
  | .movhi _ => true
  | .movfi _ => true
  | .fadd f => isScalarCode f.srcA && isScalarCode f.srcB
  | .fsub f => isScalarCode f.srcA && isScalarCode f.srcB
  | .fmul f => isScalarCode f.srcA && isScalarCode f.srcB
  | .ffma f => isScalarCode f.srcA && isScalarCode f.srcB
  | .fmin f => isScalarCode f.srcA && isScalarCode f.srcB
  | .fmax f => isScalarCode f.srcA && isScalarCode f.srcB
  | .fcmpeq f => isScalarCode f.srcA && isScalarCode f.srcB
  | .fcmplt f => isScalarCode f.srcA && isScalarCode f.srcB
  | .fcmple f => isScalarCode f.srcA && isScalarCode f.srcB
  | .fcvt f => isScalarCode f.srcA && !f.srcB.getLsbD 5 && isConvFmt (f.srcB.setWidth 5)
  | .fdiv f => isScalarCode f.srcA && isScalarCode f.srcB
  | .fsqrt f => isScalarCode f.srcA && f.srcB == 0
  | .tadd f => isScalarCode f.srcA && isScalarCode f.srcB
  | .tmul f => isScalarCode f.srcA && isScalarCode f.srcB
  | .tfma f => isScalarCode f.srcA && isScalarCode f.srcB
  | .amov f => isAddrReg f.dst && isScalarCode f.srcA && f.srcB == 0
  | .aaddi f => isAddrReg f.dst && isScalarCode f.srcA
  | .aread f => decide (f.srcA.toNat < 16) && decide (f.srcB.toNat < 6)
  | .adelta f => isAddrReg f.dst && isScalarCode f.srcA && decide (f.srcB.toNat < 6)
  | .lidx f => f.srcA == 0 && decide (f.imm.toNat < 6)
  | .csrr f => f.srcA == 0
  | .csrw f => f.dst == 0 && isScalarCode f.srcA
  | .topo f => f.srcA == 0 && decide (f.imm.toNat < 0x0E)
  | .rdcyc f => f.srcA == 0 && f.srcB == 0
  | .pany f => decide (f.srcA.toNat < 8) && decide (f.srcB.toNat < 4)
  | .pall f => decide (f.srcA.toNat < 8) && decide (f.srcB.toNat < 4)
  | .pcnt f => decide (f.srcA.toNat < 8) && decide (f.srcB.toNat < 4)
  | .ldb f => f.modeOk
  | .ldbu f => f.modeOk
  | .ldh f => f.modeOk
  | .ldhu f => f.modeOk
  | .ldw f => f.modeOk
  | .ldwu f => f.modeOk
  | .ldd f => f.modeOk
  | .stb f => f.modeOk
  | .sth f => f.modeOk
  | .stw f => f.modeOk
  | .std f => f.modeOk
  | .vld f => isVecReg f.reg && f.modeOk
  | .vst f => isVecReg f.reg && f.modeOk
  | .vlds f => isVecReg f.reg && f.mode == 2 && f.modeOk
  | .vsts f => isVecReg f.reg && f.mode == 2 && f.modeOk
  | .vgather f => isVecReg f.reg && f.mode == 2 && decide (f.index.toNat < 0x24) && f.resZero
  | .vscatter f => isVecReg f.reg && f.mode == 2 && decide (f.index.toNat < 0x24) && f.resZero
  | .vldb f => isVecReg f.reg && !f.reg.getLsbD 0 && f.modeOk
  | .pld f => isEight f.reg && f.modeOk
  | .pst f => isEight f.reg && f.modeOk
  | .kld f => f.reg == 0 && f.modeOk
  | .qsave f => isEight f.reg && f.modeOk
  | .qload f => isEight f.reg && f.modeOk
  | .istore f => isVecReg f.reg && f.modeOk
  | .amoadd f => isScalarCode f.srcB && f.size.getLsbD 1 && f.es == 0
  | .amoand f => isScalarCode f.srcB && f.size.getLsbD 1 && f.es == 0
  | .amoor f => isScalarCode f.srcB && f.size.getLsbD 1 && f.es == 0
  | .amoxor f => isScalarCode f.srcB && f.size.getLsbD 1 && f.es == 0
  | .amomin f => isScalarCode f.srcB && f.size.getLsbD 1 && f.es == 0
  | .amomax f => isScalarCode f.srcB && f.size.getLsbD 1 && f.es == 0
  | .amominu f => isScalarCode f.srcB && f.size.getLsbD 1 && f.es == 0
  | .amomaxu f => isScalarCode f.srcB && f.size.getLsbD 1 && f.es == 0
  | .amoswap f => isScalarCode f.srcB && f.size.getLsbD 1 && f.es == 0
  | .amocas f => isScalarCode f.srcB && f.size.getLsbD 1 && f.es == 0
  | .amofadd f => isScalarCode f.srcB && f.size == 2 && f.es == 0
  | .amotadd f => isScalarCode f.srcB && f.size != 3
  | .rput f => (f.sig || f.mid == 0) && !(f.timed && f.place == 63)
  | .rputv f => isVecReg f.data && (f.sig || f.mid == 0) && !(f.timed && f.place == 63)
  | .ramo f => f.ramoOk && !(f.timed && f.place == 63)
  | .sinc f => f.dst == 0 && isScalarCode f.srcA && f.scope == 0
  | .swait f => f.dst == 0 && isScalarCode f.srcA && f.scope == 0
  | .sexpect f => f.dst == 0 && isScalarCode f.srcA && f.scope == 0
  | .swaite f => f.dst == 0 && f.srcA == 0 && f.scope == 0
  | .sread f => f.srcA == 0 && f.scope == 0
  | .bararr f => f.dst == 0 && f.srcA == 0 && decide (f.obj.toNat < 32) && f.scope == 0
  | .barwait f => f.dst == 0 && f.srcA == 0 && decide (f.obj.toNat < 32) && f.scope == 0
  | .fence f => f.dst == 0 && f.srcA == 0 && decide (0 < f.obj.toNat) && decide (f.obj.toNat < 64) && decide (f.scope.toNat < 5)
  | .fencemark f => f.dst == 0 && f.srcA == 0 && f.obj == 0 && f.scope == 0
  | .gpost f => f.dst == 0 && isScalarCode f.srcA && f.obj == 0 && f.scope == 0
  | .gwait f => f.dst == 0 && isScalarCode f.srcA && f.obj == 0 && f.scope == 0
  | .gtry f => isScalarCode f.srcA && f.obj == 0 && f.scope == 0
  | .gread f => isScalarCode f.srcA && f.obj == 0 && f.scope == 0
  | .vsetf f => f.dst == 0 && isScalarCode f.srcA && decide (f.srcB.toNat < 32)
  | .vadd f => isVecReg f.dst && isVecCode f.srcA && isVecCode f.srcB
  | .vsub f => isVecReg f.dst && isVecCode f.srcA && isVecCode f.srcB
  | .vmul f => isVecReg f.dst && isVecCode f.srcA && isVecCode f.srcB
  | .vfma f => isVecReg f.dst && isVecCode f.srcA && isVecCode f.srcB
  | .vfms f => isVecReg f.dst && isVecCode f.srcA && isVecCode f.srcB
  | .vfnma f => isVecReg f.dst && isVecCode f.srcA && isVecCode f.srcB
  | .vdiv f => isVecReg f.dst && isVecCode f.srcA && isVecCode f.srcB
  | .vmin f => isVecReg f.dst && isVecCode f.srcA && isVecCode f.srcB
  | .vmax f => isVecReg f.dst && isVecCode f.srcA && isVecCode f.srcB
  | .vabs f => isVecReg f.dst && isVecCode f.srcA && f.srcB == 0
  | .vneg f => isVecReg f.dst && isVecCode f.srcA && f.srcB == 0
  | .vcmpeq f => isEight f.dst && isVecCode f.srcA && isVecCode f.srcB
  | .vcmplt f => isEight f.dst && isVecCode f.srcA && isVecCode f.srcB
  | .vcmple f => isEight f.dst && isVecCode f.srcA && isVecCode f.srcB
  | .vsel f => isVecReg f.dst && isVecCode f.srcA && isVecCode f.srcB
  | .vand f => isVecReg f.dst && isVecCode f.srcA && isVecCode f.srcB
  | .vor f => isVecReg f.dst && isVecCode f.srcA && isVecCode f.srcB
  | .vxor f => isVecReg f.dst && isVecCode f.srcA && isVecCode f.srcB
  | .vshl f => isVecReg f.dst && isVecCode f.srcA && isVecCode f.srcB
  | .vshr f => isVecReg f.dst && isVecCode f.srcA && isVecCode f.srcB
  | .vsra f => isVecReg f.dst && isVecCode f.srcA && isVecCode f.srcB
  | .vqdot f => isEight f.dst && isVecCode f.srcA && isVecCode f.srcB
  | .vqadd f => isEight f.dst && decide (f.srcA.toNat < 8) && f.srcB == 0
  | .vqacc f => isEight f.dst && isVecCode f.srcA && f.srcB == 0
  | .vqsub f => isEight f.dst && decide (f.srcA.toNat < 8) && f.srcB == 0
  | .vqrnd f => isVecReg f.dst && decide (f.srcA.toNat < 8) && isScalarCode f.srcB
  | .vqscale f => isEight f.dst && decide (f.srcA.toNat < 8) && isScalarCode f.srcB
  | .vqclr f => isEight f.dst && f.srcA == 0 && f.srcB == 0
  | .vqmovQq f => isEight f.dst && decide (f.srcA.toNat < 8) && f.srcB == 0
  | .vqmovVq f => isVecReg f.dst && decide (f.srcA.toNat < 8) && f.srcB == 1
  | .vqmovQv f => isEight f.dst && isVecCode f.srcA && f.srcB == 2
  | .vlqmac f => decide (f.dst.toNat < 2) && isVecCode f.srcA && isVecCode f.srcB
  | .vlqadd f => decide (f.dst.toNat < 2) && isVecCode f.srcA && f.srcB == 0
  | .vlqrnd f => isVecReg f.dst && decide (f.srcA.toNat < 4) && isScalarCode f.srcB
  | .vlqclr f => decide (f.dst.toNat < 2) && f.srcA == 0 && f.srcB == 0
  | .vpiv f => isVecReg f.dst && isVecCode f.srcA && isVecCode f.srcB
  | .vcvt f => isVecReg f.dst && isVecCode f.srcA && isConvFmt (f.srcB.setWidth 5)
  | .vpack4 f => isVecReg f.dst && !f.dst.getLsbD 0 && isVecCode f.srcA && decide (f.srcB.toNat < 8)
  | .vunpack4 f => isVecReg f.dst && decide (f.srcA.toNat < 32) && !f.srcA.getLsbD 0
  | .vperm f => isVecReg f.dst && isVecCode f.srcA && isVecCode f.srcB
  | .vrotl f => isVecReg f.dst && isVecCode f.srcA && isScalarCode f.srcB
  | .vslide f => isVecReg f.dst && isVecCode f.srcA && isScalarCode f.srcB
  | .vbcast f => isVecReg f.dst && isVecCode f.srcA && isScalarCode f.srcB
  | .viota f => isVecReg f.dst && isScalarCode f.srcA && f.srcB == 0
  | .vmov f => isVecReg f.dst && isVecCode f.srcA && f.srcB == 0
  | .vext f => isVecCode f.srcA && isScalarCode f.srcB
  | .vins f => isVecReg f.dst && isScalarCode f.srcA && isScalarCode f.srcB
  | .vrand f => isVecReg f.dst && isScalarCode f.srcA && isScalarCode f.srcB
  | .vtopk f => isVecReg f.dst && isVecCode f.srcA && isScalarCode f.srcB
  | .vdigest f => isVecReg f.dst && isVecCode f.srcA && isScalarCode f.srcB
  | .vrecip f => isVecReg f.dst && isVecCode f.srcA && f.srcB == 0
  | .vrsqrt f => isVecReg f.dst && isVecCode f.srcA && f.srcB == 0
  | .vsqrt f => isVecReg f.dst && isVecCode f.srcA && f.srcB == 0
  | .vexp2 f => isVecReg f.dst && isVecCode f.srcA && f.srcB == 0
  | .vlog2 f => isVecReg f.dst && isVecCode f.srcA && f.srcB == 0
  | .vtanh f => isVecReg f.dst && isVecCode f.srcA && f.srcB == 0
  | .vsigm f => isVecReg f.dst && isVecCode f.srcA && f.srcB == 0
  | .pand f => isEight f.dst && decide (f.srcA.toNat < 8) && decide (f.srcB.toNat < 8) && f.pred == 0
  | .por f => isEight f.dst && decide (f.srcA.toNat < 8) && decide (f.srcB.toNat < 8) && f.pred == 0
  | .pxor f => isEight f.dst && decide (f.srcA.toNat < 8) && decide (f.srcB.toNat < 8) && f.pred == 0
  | .pnot f => isEight f.dst && decide (f.srcA.toNat < 8) && f.srcB == 0 && f.pred == 0
  | .pset f => isEight f.dst && isScalarCode f.srcA && decide (f.srcB.toNat < 4) && f.pred == 0
  | .mcfg f => decide (f.srcA.toNat < 32) && decide (f.srcB.toNat < 32) && mxConfigOk f.row.toNat (f.srcA.setWidth 5) (f.srcB.setWidth 5) f.flags && !f.plane
  | .macc f => !f.flags.getLsbD 4 && mxSource f.srcA (f.flags.getLsbD 0) (f.flags.getLsbD 2) && mxSource f.srcB (f.flags.getLsbD 1) (f.flags.getLsbD 3) &&
    mxRow f.row [(f.flags.getLsbD 0, f.srcA), (f.flags.getLsbD 1, f.srcB)]
  | .mshift f => !f.plane && mxSource f.srcA (f.flags.getLsbD 1) (f.flags.getLsbD 2) && mxSource f.srcB false (f.flags.getLsbD 3) &&
    mxRow f.row [(f.flags.getLsbD 1, f.srcA)]
  | .mscale f => decide (f.srcA.toNat < 32) && decide (f.srcB.toNat < 32) && !f.plane && !f.flags.getLsbD 4
  | .mdrain f => decide (f.srcA.toNat < 32) && !f.srcB.getLsbD 5 && (f.srcB.getLsbD 6 || f.srcB == 0)
  | .mdrainq f => isDescr f.srcA && f.srcB == 0 && decide (f.flags.toNat < 4)
  | .mclr f => f.srcA == 0 && f.srcB == 0 && f.row == 0 && !f.plane
  | .msave f => isDescr f.srcA && decide (f.srcB.toNat < 69) && f.row == 0 && !f.plane && decide (f.flags.toNat < 2)
  | .mrestore f => isDescr f.srcA && decide (f.srcB.toNat < 69) && f.row == 0 && !f.plane && decide (f.flags.toNat < 2)
  | .mbar f => f.srcA == 0 && f.srcB == 0 && f.row == 0 && !f.plane
  | .cqpush f => isScalarCode f.srcB
  | .cwait f => f.reg == 0 && isScalarCode f.srcB
  | .cdone f => f.srcB == 0
  | .ckick f => f.reg == 0 && f.srcB == 0
  | .cqres f => f.srcB == 0
  | .resultLanding => true
  | .storeWrite => true
  | .trapEntry => true
  | .waitSatisfied => true
  | .gangStopSignal => true
  | .preemptRequest => true
  | .taskStart => true
  | .writeQueueDepart => true
  | .requestQueueDepart => true
  | .remoteApply => true
  | .timedRelease => true
  | .doneshPublication => true
  | .gatePublication => true
  | .tokenDivision => true
  | .gatePostArrival => true
  | .waiterRecord => true
  | .moveInstall => true
  | .barrierArrival => true
  | .barrierRelease => true
  | .kick => true
  | .claim => true
  | .consumerSweep => true
  | .contentWindowExpiry => true
  | .packetBegin => true
  | .packetCompletion => true
  | .copyV1 => true
  | .copyV2 => true
  | .tile2d => true
  | .mcast2d => true
  | .fill => true
  | .packetFence => true
  | .mark => true
  | .signal => true
  | .prefetch => true
  | .migrate => true
  | .launch => true
  | .launchDepsMet => true
  | .launchCheck => true
  | .placementDecision => true
  | .groupLoaded => true
  | .launchDone => true
  | .sliceEnd => true
  | .watchdog => true
  | .groupSave => true
  | .groupResume => true
  | .contextSuspended => true
  | .fatalTeardown => true
  | .ctxCreate => true
  | .ctxSuspend => true
  | .ctxResume => true
  | .ctxDestroy => true
  | .seal => true
  | .restore => true
  | .rehome => true
  | .placeSet => true
  | .slotSet => true
  | .slotFrameBoundary => true
  | .mapEntry => true
  | .mapRange => true
  | .mapRoots => true
  | .mapRings => true
  | .unmap => true
  | .invalidate => true
  | .harvest => true
  | .faultResume => true
  | .gateCreate => true
  | .gateOpen => true
  | .gateClose => true
  | .gateSetacl => true
  | .gateMove => true
  | .gateRevoke => true
  | .gateFree => true
  | .gateFreefwd => true
  | .queueCreate => true
  | .queueDestroy => true
  | .queueReset => true
  | .interfaceBind => true
  | .interfaceRevoke => true
  | .interfaceRelease => true
  | .interfaceRevoked => true
  | .linkCmdRetrain => true
  | .linkCmdDown => true
  | .linkCmdTrain => true
  | .peerTraining => true
  | .trainingResult => true
  | .crcRetry => true
  | .syncFlit => true
  | .powerReqFull => true
  | .powerReqReduced => true
  | .powerReqRetention => true
  | .powerReqOff => true
  | .powerTransitionDone => true
  | .registerWrite => true
  | .hostCxlMemAccess => true
  | .pullRequest => true
  | .pullReceived => true
  | .pullTimeout => true
  | .pullsComplete => true
  | .lineageRequest => true
  | .remoteRecordQuery => true
  | .homeunreach => true
  | .moduleReset => true
  | .domainBringUp => true
  | .partitionChangeReport => true

end Sys2Proof
end

