-- ==== Sys2Proof/WellFormed.lean ====
section
/-! DEFINITION. Well-formed instructions: those whose syllable passes the decode checks of spec/04_bundles.md R80. -/

namespace Sys2Proof

/-- An instruction is well formed when check 2 of R80 passes on its fields. -/
abbrev Instr.WellFormed (i : Instr) : Prop := i.legal = true

end Sys2Proof
end

