-- ==== Sys2Proof/Decode.lean ====
section
/-! DEFINITION. Decoding a syllable in its slot's opcode map, total on every word and rejecting by name
(spec/04_bundles.md R78-R82, R99-R105), and the encoder written from the same encodings. -/

namespace Sys2Proof

/-- Why a word is no instruction (R80 checks 1 and 2). -/
inductive DecodeError where
  /-- Check 1: the opcode is unassigned, or an opcode of 0x00 has other bits set. -/
  | illegalOp
  /-- Check 2: a reserved field is not zero or an operand code is not allowed. -/
  | illegalOperand
deriving DecidableEq, Repr

/-! ### Fields of each format -/

/-- R84. -/
def RG.ofWord (w : W32) : RG :=
  { dst := w.extractLsb' 18 6, srcA := w.extractLsb' 11 7, srcB := w.extractLsb' 4 7, pred := w.extractLsb' 1 3,
    nwb := w.getLsbD 0 }
/-- R85. -/
def RI.ofWord (w : W32) : RI :=
  { dst := w.extractLsb' 18 6, srcA := w.extractLsb' 11 7, imm := w.extractLsb' 0 11 }
/-- R86: dst shares bits [25:24] with the opcode byte. -/
def I20.ofWord (w : W32) : I20 := { dst := w.extractLsb' 20 6, imm := w.extractLsb' 0 20 }
/-- R88. -/
def Mem.ofWord (w : W32) : Mem :=
  { reg := w.extractLsb' 18 6, base := w.extractLsb' 14 4, mode := w.extractLsb' 12 2, off := w.extractLsb' 3 9,
    pred := w.extractLsb' 0 3 }
/-- R89. -/
def Atomic.ofWord (w : W32) : Atomic :=
  { dst := w.extractLsb' 18 6, base := w.extractLsb' 14 4, size := w.extractLsb' 12 2, srcB := w.extractLsb' 5 7,
    es := w.extractLsb' 3 2, pred := w.extractLsb' 0 3 }
/-- R90. -/
def Remote.ofWord (w : W32) : Remote :=
  { data := w.extractLsb' 18 6, place := w.extractLsb' 12 6, mid := w.extractLsb' 4 8, sig := w.getLsbD 3,
    chan := w.extractLsb' 1 2, timed := w.getLsbD 0 }
/-- R91. -/
def Sync.ofWord (w : W32) : Sync :=
  { dst := w.extractLsb' 18 6, srcA := w.extractLsb' 11 7, obj := w.extractLsb' 3 8, scope := w.extractLsb' 0 3 }
/-- R92. -/
def Beat.ofWord (w : W32) : Beat :=
  { srcA := w.extractLsb' 17 7, srcB := w.extractLsb' 10 7, row := w.extractLsb' 6 4, plane := w.getLsbD 5,
    flags := w.extractLsb' 0 5 }
/-- R93. -/
def Copy.ofWord (w : W32) : Copy :=
  { reg := w.extractLsb' 18 6, srcB := w.extractLsb' 11 7, bnd := w.extractLsb' 3 8, pred := w.extractLsb' 0 3 }

/-- The reserved bits of a K syllable, by opcode (R82). -/
def kReserved (op : Nat) : W32 :=
  match op with
  | 0x4 => 0x1ffff#32
  | 0x6 => 0x1ffff#32
  | 0x7 => 0xffffff#32
  | 0x8 => 0x3f#32
  | 0x9 => 0x1ff#32
  | 0xa => 0x1fff8#32
  | 0xb => 0xffffff#32
  | 0xc => 0xffffff#32
  | 0xd => 0xff0000#32
  | 0xe => 0xffffff#32
  | 0xf => 0xffffff#32
  | 0x10 => 0xfffff0#32
  | 0x11 => 0xffffff#32
  | 0x12 => 0xffffff#32
  | 0x13 => 0x1ffff#32
  | 0x14 => 0xffffff#32
  | 0x15 => 0xe00000#32
  | _ => 0#32

/-- The K map (R100). -/
def kMap (op : Nat) (w : W32) : Option Instr :=
  match op with
  | 0x1 => some (.br (w.getLsbD 31) (w.extractLsb' 0 24))
  | 0x2 => some (.brz (w.getLsbD 31) (w.extractLsb' 17 7) (w.extractLsb' 0 17))
  | 0x3 => some (.brnz (w.getLsbD 31) (w.extractLsb' 17 7) (w.extractLsb' 0 17))
  | 0x4 => some (.jmp (w.getLsbD 31) (w.extractLsb' 17 7))
  | 0x5 => some (.call (w.getLsbD 31) (w.extractLsb' 0 24))
  | 0x6 => some (.callr (w.getLsbD 31) (w.extractLsb' 17 7))
  | 0x7 => some (.ret (w.getLsbD 31))
  | 0x8 => some (.loop (w.getLsbD 31) (w.extractLsb' 17 7) (w.extractLsb' 6 11))
  | 0x9 => some (.loopm (w.getLsbD 31) (w.extractLsb' 17 7) (w.extractLsb' 12 5) (w.extractLsb' 9 3))
  | 0xa => some (.brk (w.getLsbD 31) (w.extractLsb' 17 7) (w.extractLsb' 0 3))
  | 0xb => some (.yield (w.getLsbD 31))
  | 0xc => some (.tend (w.getLsbD 31))
  | 0xd => some (.trap (w.getLsbD 31) (w.extractLsb' 0 16))
  | 0xe => some (.eret (w.getLsbD 31))
  | 0xf => some (.ifence (w.getLsbD 31))
  | 0x10 => some (.rrbset (w.getLsbD 31) (w.extractLsb' 0 4))
  | 0x11 => some (.nopre (w.getLsbD 31))
  | 0x12 => some (.nopreend (w.getLsbD 31))
  | 0x13 => some (.waitc (w.getLsbD 31) (w.extractLsb' 17 7))
  | 0x14 => some (.halt (w.getLsbD 31))
  | 0x15 => some (.stg (w.getLsbD 31) (w.extractLsb' 0 21))
  | _ => none

/-- The scalar map of SA and SB (R101). -/
def sMap (op : Nat) (w : W32) : Option Instr :=
  match op with
  | 0x1 => some (.add (RG.ofWord w))
  | 0x2 => some (.sub (RG.ofWord w))
  | 0x3 => some (.mul (RG.ofWord w))
  | 0x4 => some (.mulh (RG.ofWord w))
  | 0x5 => some (.mulhu (RG.ofWord w))
  | 0x6 => some (.div (RG.ofWord w))
  | 0x7 => some (.divu (RG.ofWord w))
  | 0x8 => some (.rem (RG.ofWord w))
  | 0x9 => some (.remu (RG.ofWord w))
  | 0xa => some (.and (RG.ofWord w))
  | 0xb => some (.or (RG.ofWord w))
  | 0xc => some (.xor (RG.ofWord w))
  | 0xd => some (.andn (RG.ofWord w))
  | 0xe => some (.orn (RG.ofWord w))
  | 0xf => some (.sel (RG.ofWord w))
  | 0x10 => some (.shl (RG.ofWord w))
  | 0x11 => some (.shr (RG.ofWord w))
  | 0x12 => some (.sra (RG.ofWord w))
  | 0x13 => some (.rotl (RG.ofWord w))
  | 0x14 => some (.cmpeq (RG.ofWord w))
  | 0x15 => some (.cmpne (RG.ofWord w))
  | 0x16 => some (.cmplt (RG.ofWord w))
  | 0x17 => some (.cmpltu (RG.ofWord w))
  | 0x18 => some (.cmple (RG.ofWord w))
  | 0x19 => some (.cmpleu (RG.ofWord w))
  | 0x1a => some (.min (RG.ofWord w))
  | 0x1b => some (.max (RG.ofWord w))
  | 0x1c => some (.minu (RG.ofWord w))
  | 0x1d => some (.maxu (RG.ofWord w))
  | 0x1e => some (.clz (RG.ofWord w))
  | 0x1f => some (.ctz (RG.ofWord w))
  | 0x20 => some (.popc (RG.ofWord w))
  | 0x21 => some (.ext (RG.ofWord w))
  | 0x22 => some (.ins (RG.ofWord w))
  | 0x28 => some (.addi (RI.ofWord w))
  | 0x29 => some (.andi (RI.ofWord w))
  | 0x2a => some (.ori (RI.ofWord w))
  | 0x2b => some (.xori (RI.ofWord w))
  | 0x2c => some (.shli (RI.ofWord w))
  | 0x2d => some (.shri (RI.ofWord w))
  | 0x2e => some (.srai (RI.ofWord w))
  | 0x2f => some (.cmpeqi (RI.ofWord w))
  | 0x30 => some (.cmplti (RI.ofWord w))
  | 0x31 => some (.cmpltui (RI.ofWord w))
  | 0xf0 => some (.movi (I20.ofWord w))
  | 0xf1 => some (.movi (I20.ofWord w))
  | 0xf2 => some (.movi (I20.ofWord w))
  | 0xf3 => some (.movi (I20.ofWord w))
  | 0xf4 => some (.movhi (I20.ofWord w))
  | 0xf5 => some (.movhi (I20.ofWord w))
  | 0xf6 => some (.movhi (I20.ofWord w))
  | 0xf7 => some (.movhi (I20.ofWord w))
  | 0xf8 => some (.movfi (I20.ofWord w))
  | 0xf9 => some (.movfi (I20.ofWord w))
  | 0xfa => some (.movfi (I20.ofWord w))
  | 0xfb => some (.movfi (I20.ofWord w))
  | 0x40 => some (.fadd (RG.ofWord w))
  | 0x41 => some (.fsub (RG.ofWord w))
  | 0x42 => some (.fmul (RG.ofWord w))
  | 0x43 => some (.ffma (RG.ofWord w))
  | 0x44 => some (.fmin (RG.ofWord w))
  | 0x45 => some (.fmax (RG.ofWord w))
  | 0x46 => some (.fcmpeq (RG.ofWord w))
  | 0x47 => some (.fcmplt (RG.ofWord w))
  | 0x48 => some (.fcmple (RG.ofWord w))
  | 0x49 => some (.fcvt (RG.ofWord w))
  | 0x4a => some (.fdiv (RG.ofWord w))
  | 0x4b => some (.fsqrt (RG.ofWord w))
  | 0x4c => some (.tadd (RG.ofWord w))
  | 0x4d => some (.tmul (RG.ofWord w))
  | 0x4e => some (.tfma (RG.ofWord w))
  | 0x50 => some (.amov (RG.ofWord w))
  | 0x51 => some (.aaddi (RI.ofWord w))
  | 0x52 => some (.aread (RG.ofWord w))
  | 0x53 => some (.adelta (RG.ofWord w))
  | 0x54 => some (.lidx (RI.ofWord w))
  | 0x58 => some (.csrr (RI.ofWord w))
  | 0x59 => some (.csrw (RI.ofWord w))
  | 0x5a => some (.topo (RI.ofWord w))
  | 0x5b => some (.rdcyc (RG.ofWord w))
  | 0x5c => some (.pany (RG.ofWord w))
  | 0x5d => some (.pall (RG.ofWord w))
  | 0x5e => some (.pcnt (RG.ofWord w))
  | _ => none

/-- The LS map (R102). -/
def lsMap (op : Nat) (w : W32) : Option Instr :=
  match op with
  | 0x1 => some (.ldb (Mem.ofWord w))
  | 0x2 => some (.ldbu (Mem.ofWord w))
  | 0x3 => some (.ldh (Mem.ofWord w))
  | 0x4 => some (.ldhu (Mem.ofWord w))
  | 0x5 => some (.ldw (Mem.ofWord w))
  | 0x6 => some (.ldwu (Mem.ofWord w))
  | 0x7 => some (.ldd (Mem.ofWord w))
  | 0x8 => some (.stb (Mem.ofWord w))
  | 0x9 => some (.sth (Mem.ofWord w))
  | 0xa => some (.stw (Mem.ofWord w))
  | 0xb => some (.std (Mem.ofWord w))
  | 0x10 => some (.vld (Mem.ofWord w))
  | 0x11 => some (.vst (Mem.ofWord w))
  | 0x12 => some (.vlds (Mem.ofWord w))
  | 0x13 => some (.vsts (Mem.ofWord w))
  | 0x14 => some (.vgather (Mem.ofWord w))
  | 0x15 => some (.vscatter (Mem.ofWord w))
  | 0x16 => some (.vldb (Mem.ofWord w))
  | 0x17 => some (.pld (Mem.ofWord w))
  | 0x18 => some (.pst (Mem.ofWord w))
  | 0x19 => some (.kld (Mem.ofWord w))
  | 0x1a => some (.qsave (Mem.ofWord w))
  | 0x1b => some (.qload (Mem.ofWord w))
  | 0x1c => some (.istore (Mem.ofWord w))
  | 0x20 => some (.amoadd (Atomic.ofWord w))
  | 0x21 => some (.amoand (Atomic.ofWord w))
  | 0x22 => some (.amoor (Atomic.ofWord w))
  | 0x23 => some (.amoxor (Atomic.ofWord w))
  | 0x24 => some (.amomin (Atomic.ofWord w))
  | 0x25 => some (.amomax (Atomic.ofWord w))
  | 0x26 => some (.amominu (Atomic.ofWord w))
  | 0x27 => some (.amomaxu (Atomic.ofWord w))
  | 0x28 => some (.amoswap (Atomic.ofWord w))
  | 0x29 => some (.amocas (Atomic.ofWord w))
  | 0x2a => some (.amofadd (Atomic.ofWord w))
  | 0x2b => some (.amotadd (Atomic.ofWord w))
  | 0x30 => some (.rput (Remote.ofWord w))
  | 0x31 => some (.rputv (Remote.ofWord w))
  | 0x33 => some (.ramo (Remote.ofWord w))
  | 0x38 => some (.sinc (Sync.ofWord w))
  | 0x39 => some (.swait (Sync.ofWord w))
  | 0x3a => some (.sexpect (Sync.ofWord w))
  | 0x3b => some (.swaite (Sync.ofWord w))
  | 0x3c => some (.sread (Sync.ofWord w))
  | 0x40 => some (.bararr (Sync.ofWord w))
  | 0x41 => some (.barwait (Sync.ofWord w))
  | 0x48 => some (.fence (Sync.ofWord w))
  | 0x49 => some (.fencemark (Sync.ofWord w))
  | 0x50 => some (.gpost (Sync.ofWord w))
  | 0x51 => some (.gwait (Sync.ofWord w))
  | 0x52 => some (.gtry (Sync.ofWord w))
  | 0x53 => some (.gread (Sync.ofWord w))
  | _ => none

/-- The VA map (R103). -/
def vaMap (op : Nat) (w : W32) : Option Instr :=
  match op with
  | 0x1 => some (.vsetf (RG.ofWord w))
  | 0x2 => some (.vadd (RG.ofWord w))
  | 0x3 => some (.vsub (RG.ofWord w))
  | 0x4 => some (.vmul (RG.ofWord w))
  | 0x5 => some (.vfma (RG.ofWord w))
  | 0x6 => some (.vfms (RG.ofWord w))
  | 0x7 => some (.vfnma (RG.ofWord w))
  | 0x8 => some (.vdiv (RG.ofWord w))
  | 0x9 => some (.vmin (RG.ofWord w))
  | 0xa => some (.vmax (RG.ofWord w))
  | 0xb => some (.vabs (RG.ofWord w))
  | 0xc => some (.vneg (RG.ofWord w))
  | 0xd => some (.vcmpeq (RG.ofWord w))
  | 0xe => some (.vcmplt (RG.ofWord w))
  | 0xf => some (.vcmple (RG.ofWord w))
  | 0x10 => some (.vsel (RG.ofWord w))
  | 0x11 => some (.vand (RG.ofWord w))
  | 0x12 => some (.vor (RG.ofWord w))
  | 0x13 => some (.vxor (RG.ofWord w))
  | 0x14 => some (.vshl (RG.ofWord w))
  | 0x15 => some (.vshr (RG.ofWord w))
  | 0x16 => some (.vsra (RG.ofWord w))
  | 0x20 => some (.vqdot (RG.ofWord w))
  | 0x21 => some (.vqadd (RG.ofWord w))
  | 0x22 => some (.vqacc (RG.ofWord w))
  | 0x23 => some (.vqsub (RG.ofWord w))
  | 0x24 => some (.vqrnd (RG.ofWord w))
  | 0x25 => some (.vqscale (RG.ofWord w))
  | 0x26 => some (.vqclr (RG.ofWord w))
  | 0x27 => match (RG.ofWord w).srcB.toNat with
    | 1 => some (.vqmovVq (RG.ofWord w))
    | 2 => some (.vqmovQv (RG.ofWord w))
    | _ => some (.vqmovQq (RG.ofWord w))
  | 0x28 => some (.vlqmac (RG.ofWord w))
  | 0x29 => some (.vlqadd (RG.ofWord w))
  | 0x2a => some (.vlqrnd (RG.ofWord w))
  | 0x2b => some (.vlqclr (RG.ofWord w))
  | 0x30 => some (.vpiv (RG.ofWord w))
  | _ => none

/-- The VB map (R104). -/
def vbMap (op : Nat) (w : W32) : Option Instr :=
  match op with
  | 0x1 => some (.vcvt (RG.ofWord w))
  | 0x2 => some (.vpack4 (RG.ofWord w))
  | 0x3 => some (.vunpack4 (RG.ofWord w))
  | 0x4 => some (.vperm (RG.ofWord w))
  | 0x5 => some (.vrotl (RG.ofWord w))
  | 0x6 => some (.vslide (RG.ofWord w))
  | 0x7 => some (.vbcast (RG.ofWord w))
  | 0x8 => some (.viota (RG.ofWord w))
  | 0x9 => some (.vmov (RG.ofWord w))
  | 0xa => some (.vext (RG.ofWord w))
  | 0xb => some (.vins (RG.ofWord w))
  | 0xc => some (.vrand (RG.ofWord w))
  | 0xd => some (.vtopk (RG.ofWord w))
  | 0xe => some (.vdigest (RG.ofWord w))
  | 0x10 => some (.vrecip (RG.ofWord w))
  | 0x11 => some (.vrsqrt (RG.ofWord w))
  | 0x12 => some (.vsqrt (RG.ofWord w))
  | 0x13 => some (.vexp2 (RG.ofWord w))
  | 0x14 => some (.vlog2 (RG.ofWord w))
  | 0x15 => some (.vtanh (RG.ofWord w))
  | 0x16 => some (.vsigm (RG.ofWord w))
  | 0x20 => some (.pand (RG.ofWord w))
  | 0x21 => some (.por (RG.ofWord w))
  | 0x22 => some (.pxor (RG.ofWord w))
  | 0x23 => some (.pnot (RG.ofWord w))
  | 0x24 => some (.pset (RG.ofWord w))
  | _ => none

/-- The MX map (R105). -/
def mxMap (op : Nat) (w : W32) : Option Instr :=
  match op with
  | 0x1 => some (.mcfg (Beat.ofWord w))
  | 0x2 => some (.macc (Beat.ofWord w))
  | 0x3 => some (.mshift (Beat.ofWord w))
  | 0x4 => some (.mscale (Beat.ofWord w))
  | 0x5 => some (.mdrain (Beat.ofWord w))
  | 0x6 => some (.mdrainq (Beat.ofWord w))
  | 0x7 => some (.mclr (Beat.ofWord w))
  | 0x8 => some (.msave (Beat.ofWord w))
  | 0x9 => some (.mrestore (Beat.ofWord w))
  | 0xa => some (.mbar (Beat.ofWord w))
  | _ => none

/-- The CP map (R105). -/
def cpMap (op : Nat) (w : W32) : Option Instr :=
  match op with
  | 0x1 => some (.cqpush (Copy.ofWord w))
  | 0x2 => some (.cwait (Copy.ofWord w))
  | 0x3 => some (.cdone (Copy.ofWord w))
  | 0x4 => some (.ckick (Copy.ofWord w))
  | 0x5 => some (.cqres (Copy.ofWord w))
  | _ => none

/-- The opcode map of a slot (R78). -/
def slotMap (s : Slot) (op : Nat) (w : W32) : Option Instr :=
  match s with
  | .K => kMap op w
  | .SA => sMap op w
  | .SB => sMap op w
  | .LS => lsMap op w
  | .VA => vaMap op w
  | .VB => vbMap op w
  | .MX => mxMap op w
  | .CP => cpMap op w

/-- The opcode of a word in a slot: 7 bits in K, 8 bits elsewhere (R81, R84). -/
def slotOpcode (s : Slot) (w : W32) : Nat :=
  match s with
  | .K => (w.extractLsb' 24 7).toNat
  | _ => (w.extractLsb' 24 8).toNat

/-- The reserved bits that a slot's layout leaves outside every field of the instruction. -/
def slotReserved (s : Slot) (w : W32) : W32 :=
  match s with
  | .K => kReserved (slotOpcode .K w)
  | _ => 0#32

/-- R79: the all-zero syllable is NOP; in K the LIT bit is exempt. -/
def isNopWord (s : Slot) (w : W32) : Bool :=
  match s with
  | .K => w.extractLsb' 0 31 == 0
  | _ => w == 0

/-- Checks 1 and 2 of R80 on one syllable. -/
def decodeSlot (s : Slot) (w : W32) : Except DecodeError Instr :=
  if isNopWord s w then .ok (.nop (w.getLsbD 31))
  else
    match slotMap s (slotOpcode s w) w with
    | none => .error .illegalOp
    | some i => if w &&& slotReserved s w = 0#32 ∧ i.legal = true then .ok i else .error .illegalOperand

/-! ### The encoder -/

/-- A K syllable: LIT, the opcode and 24 bits (R81). -/
def kWord (l : Bool) (op : BitVec 7) (rest : BitVec 24) : W32 := BitVec.ofBool l ++ op ++ rest
def RG.word (op : BitVec 8) (f : RG) : W32 := op ++ f.dst ++ f.srcA ++ f.srcB ++ f.pred ++ BitVec.ofBool f.nwb
def RI.word (op : BitVec 8) (f : RI) : W32 := op ++ f.dst ++ f.srcA ++ f.imm
def I20.word (op : BitVec 6) (f : I20) : W32 := op ++ f.dst ++ f.imm
def Mem.word (op : BitVec 8) (f : Mem) : W32 := op ++ f.reg ++ f.base ++ f.mode ++ f.off ++ f.pred
def Atomic.word (op : BitVec 8) (f : Atomic) : W32 :=
  op ++ f.dst ++ f.base ++ f.size ++ f.srcB ++ f.es ++ f.pred
def Remote.word (op : BitVec 8) (f : Remote) : W32 :=
  op ++ f.data ++ f.place ++ f.mid ++ BitVec.ofBool f.sig ++ f.chan ++ BitVec.ofBool f.timed
def Sync.word (op : BitVec 8) (f : Sync) : W32 := op ++ f.dst ++ f.srcA ++ f.obj ++ f.scope
def Beat.word (op : BitVec 8) (f : Beat) : W32 :=
  op ++ f.srcA ++ f.srcB ++ f.row ++ BitVec.ofBool f.plane ++ f.flags
def Copy.word (op : BitVec 8) (f : Copy) : W32 := op ++ f.reg ++ f.srcB ++ f.bnd ++ f.pred

/-- The word of a syllable instruction (R82-R105). Events have no encoding and give the zero word. -/
def Instr.encode : Instr → W32
  | .nop l => kWord l 0 0
  | .br l d => kWord l 0x1 (d.setWidth 24)
  | .brz l s d => kWord l 0x2 (s ++ d)
  | .brnz l s d => kWord l 0x3 (s ++ d)
  | .jmp l s => kWord l 0x4 (s ++ 0#17)
  | .call l d => kWord l 0x5 (d.setWidth 24)
  | .callr l s => kWord l 0x6 (s ++ 0#17)
  | .ret l => kWord l 0x7 (0#24)
  | .loop l s n => kWord l 0x8 (s ++ n ++ 0#6)
  | .loopm l s ii g => kWord l 0x9 (s ++ ii ++ g ++ 0#9)
  | .brk l s n => kWord l 0xa (s ++ 0#14 ++ n)
  | .yield l => kWord l 0xb (0#24)
  | .tend l => kWord l 0xc (0#24)
  | .trap l imm => kWord l 0xd (0#8 ++ imm)
  | .eret l => kWord l 0xe (0#24)
  | .ifence l => kWord l 0xf (0#24)
  | .rrbset l n => kWord l 0x10 (0#20 ++ n)
  | .nopre l => kWord l 0x11 (0#24)
  | .nopreend l => kWord l 0x12 (0#24)
  | .waitc l s => kWord l 0x13 (s ++ 0#17)
  | .halt l => kWord l 0x14 (0#24)
  | .stg l m => kWord l 0x15 (0#3 ++ m)
  | .add f => f.word 0x1
  | .sub f => f.word 0x2
  | .mul f => f.word 0x3
  | .mulh f => f.word 0x4
  | .mulhu f => f.word 0x5
  | .div f => f.word 0x6
  | .divu f => f.word 0x7
  | .rem f => f.word 0x8
  | .remu f => f.word 0x9
  | .and f => f.word 0xa
  | .or f => f.word 0xb
  | .xor f => f.word 0xc
  | .andn f => f.word 0xd
  | .orn f => f.word 0xe
  | .sel f => f.word 0xf
  | .shl f => f.word 0x10
  | .shr f => f.word 0x11
  | .sra f => f.word 0x12
  | .rotl f => f.word 0x13
  | .cmpeq f => f.word 0x14
  | .cmpne f => f.word 0x15
  | .cmplt f => f.word 0x16
  | .cmpltu f => f.word 0x17
  | .cmple f => f.word 0x18
  | .cmpleu f => f.word 0x19
  | .min f => f.word 0x1a
  | .max f => f.word 0x1b
  | .minu f => f.word 0x1c
  | .maxu f => f.word 0x1d
  | .clz f => f.word 0x1e
  | .ctz f => f.word 0x1f
  | .popc f => f.word 0x20
  | .ext f => f.word 0x21
  | .ins f => f.word 0x22
  | .addi f => f.word 0x28
  | .andi f => f.word 0x29
  | .ori f => f.word 0x2a
  | .xori f => f.word 0x2b
  | .shli f => f.word 0x2c
  | .shri f => f.word 0x2d
  | .srai f => f.word 0x2e
  | .cmpeqi f => f.word 0x2f
  | .cmplti f => f.word 0x30
  | .cmpltui f => f.word 0x31
  | .movi f => f.word 0x3c
  | .movhi f => f.word 0x3d
  | .movfi f => f.word 0x3e
  | .fadd f => f.word 0x40
  | .fsub f => f.word 0x41
  | .fmul f => f.word 0x42
  | .ffma f => f.word 0x43
  | .fmin f => f.word 0x44
  | .fmax f => f.word 0x45
  | .fcmpeq f => f.word 0x46
  | .fcmplt f => f.word 0x47
  | .fcmple f => f.word 0x48
  | .fcvt f => f.word 0x49
  | .fdiv f => f.word 0x4a
  | .fsqrt f => f.word 0x4b
  | .tadd f => f.word 0x4c
  | .tmul f => f.word 0x4d
  | .tfma f => f.word 0x4e
  | .amov f => f.word 0x50
  | .aaddi f => f.word 0x51
  | .aread f => f.word 0x52
  | .adelta f => f.word 0x53
  | .lidx f => f.word 0x54
  | .csrr f => f.word 0x58
  | .csrw f => f.word 0x59
  | .topo f => f.word 0x5a
  | .rdcyc f => f.word 0x5b
  | .pany f => f.word 0x5c
  | .pall f => f.word 0x5d
  | .pcnt f => f.word 0x5e
  | .ldb f => f.word 0x1
  | .ldbu f => f.word 0x2
  | .ldh f => f.word 0x3
  | .ldhu f => f.word 0x4
  | .ldw f => f.word 0x5
  | .ldwu f => f.word 0x6
  | .ldd f => f.word 0x7
  | .stb f => f.word 0x8
  | .sth f => f.word 0x9
  | .stw f => f.word 0xa
  | .std f => f.word 0xb
  | .vld f => f.word 0x10
  | .vst f => f.word 0x11
  | .vlds f => f.word 0x12
  | .vsts f => f.word 0x13
  | .vgather f => f.word 0x14
  | .vscatter f => f.word 0x15
  | .vldb f => f.word 0x16
  | .pld f => f.word 0x17
  | .pst f => f.word 0x18
  | .kld f => f.word 0x19
  | .qsave f => f.word 0x1a
  | .qload f => f.word 0x1b
  | .istore f => f.word 0x1c
  | .amoadd f => f.word 0x20
  | .amoand f => f.word 0x21
  | .amoor f => f.word 0x22
  | .amoxor f => f.word 0x23
  | .amomin f => f.word 0x24
  | .amomax f => f.word 0x25
  | .amominu f => f.word 0x26
  | .amomaxu f => f.word 0x27
  | .amoswap f => f.word 0x28
  | .amocas f => f.word 0x29
  | .amofadd f => f.word 0x2a
  | .amotadd f => f.word 0x2b
  | .rput f => f.word 0x30
  | .rputv f => f.word 0x31
  | .ramo f => f.word 0x33
  | .sinc f => f.word 0x38
  | .swait f => f.word 0x39
  | .sexpect f => f.word 0x3a
  | .swaite f => f.word 0x3b
  | .sread f => f.word 0x3c
  | .bararr f => f.word 0x40
  | .barwait f => f.word 0x41
  | .fence f => f.word 0x48
  | .fencemark f => f.word 0x49
  | .gpost f => f.word 0x50
  | .gwait f => f.word 0x51
  | .gtry f => f.word 0x52
  | .gread f => f.word 0x53
  | .vsetf f => f.word 0x1
  | .vadd f => f.word 0x2
  | .vsub f => f.word 0x3
  | .vmul f => f.word 0x4
  | .vfma f => f.word 0x5
  | .vfms f => f.word 0x6
  | .vfnma f => f.word 0x7
  | .vdiv f => f.word 0x8
  | .vmin f => f.word 0x9
  | .vmax f => f.word 0xa
  | .vabs f => f.word 0xb
  | .vneg f => f.word 0xc
  | .vcmpeq f => f.word 0xd
  | .vcmplt f => f.word 0xe
  | .vcmple f => f.word 0xf
  | .vsel f => f.word 0x10
  | .vand f => f.word 0x11
  | .vor f => f.word 0x12
  | .vxor f => f.word 0x13
  | .vshl f => f.word 0x14
  | .vshr f => f.word 0x15
  | .vsra f => f.word 0x16
  | .vqdot f => f.word 0x20
  | .vqadd f => f.word 0x21
  | .vqacc f => f.word 0x22
  | .vqsub f => f.word 0x23
  | .vqrnd f => f.word 0x24
  | .vqscale f => f.word 0x25
  | .vqclr f => f.word 0x26
  | .vqmovQq f => f.word 0x27
  | .vqmovVq f => f.word 0x27
  | .vqmovQv f => f.word 0x27
  | .vlqmac f => f.word 0x28
  | .vlqadd f => f.word 0x29
  | .vlqrnd f => f.word 0x2a
  | .vlqclr f => f.word 0x2b
  | .vpiv f => f.word 0x30
  | .vcvt f => f.word 0x1
  | .vpack4 f => f.word 0x2
  | .vunpack4 f => f.word 0x3
  | .vperm f => f.word 0x4
  | .vrotl f => f.word 0x5
  | .vslide f => f.word 0x6
  | .vbcast f => f.word 0x7
  | .viota f => f.word 0x8
  | .vmov f => f.word 0x9
  | .vext f => f.word 0xa
  | .vins f => f.word 0xb
  | .vrand f => f.word 0xc
  | .vtopk f => f.word 0xd
  | .vdigest f => f.word 0xe
  | .vrecip f => f.word 0x10
  | .vrsqrt f => f.word 0x11
  | .vsqrt f => f.word 0x12
  | .vexp2 f => f.word 0x13
  | .vlog2 f => f.word 0x14
  | .vtanh f => f.word 0x15
  | .vsigm f => f.word 0x16
  | .pand f => f.word 0x20
  | .por f => f.word 0x21
  | .pxor f => f.word 0x22
  | .pnot f => f.word 0x23
  | .pset f => f.word 0x24
  | .mcfg f => f.word 0x1
  | .macc f => f.word 0x2
  | .mshift f => f.word 0x3
  | .mscale f => f.word 0x4
  | .mdrain f => f.word 0x5
  | .mdrainq f => f.word 0x6
  | .mclr f => f.word 0x7
  | .msave f => f.word 0x8
  | .mrestore f => f.word 0x9
  | .mbar f => f.word 0xa
  | .cqpush f => f.word 0x1
  | .cwait f => f.word 0x2
  | .cdone f => f.word 0x3
  | .ckick f => f.word 0x4
  | .cqres f => f.word 0x5
  | .resultLanding => 0#32
  | .storeWrite => 0#32
  | .trapEntry => 0#32
  | .waitSatisfied => 0#32
  | .gangStopSignal => 0#32
  | .preemptRequest => 0#32
  | .taskStart => 0#32
  | .writeQueueDepart => 0#32
  | .requestQueueDepart => 0#32
  | .remoteApply => 0#32
  | .timedRelease => 0#32
  | .doneshPublication => 0#32
  | .gatePublication => 0#32
  | .tokenDivision => 0#32
  | .gatePostArrival => 0#32
  | .waiterRecord => 0#32
  | .moveInstall => 0#32
  | .barrierArrival => 0#32
  | .barrierRelease => 0#32
  | .kick => 0#32
  | .claim => 0#32
  | .consumerSweep => 0#32
  | .contentWindowExpiry => 0#32
  | .packetBegin => 0#32
  | .packetCompletion => 0#32
  | .copyV1 => 0#32
  | .copyV2 => 0#32
  | .tile2d => 0#32
  | .mcast2d => 0#32
  | .fill => 0#32
  | .packetFence => 0#32
  | .mark => 0#32
  | .signal => 0#32
  | .prefetch => 0#32
  | .migrate => 0#32
  | .launch => 0#32
  | .launchDepsMet => 0#32
  | .launchCheck => 0#32
  | .placementDecision => 0#32
  | .groupLoaded => 0#32
  | .launchDone => 0#32
  | .sliceEnd => 0#32
  | .watchdog => 0#32
  | .groupSave => 0#32
  | .groupResume => 0#32
  | .contextSuspended => 0#32
  | .fatalTeardown => 0#32
  | .ctxCreate => 0#32
  | .ctxSuspend => 0#32
  | .ctxResume => 0#32
  | .ctxDestroy => 0#32
  | .seal => 0#32
  | .restore => 0#32
  | .rehome => 0#32
  | .placeSet => 0#32
  | .slotSet => 0#32
  | .slotFrameBoundary => 0#32
  | .mapEntry => 0#32
  | .mapRange => 0#32
  | .mapRoots => 0#32
  | .mapRings => 0#32
  | .unmap => 0#32
  | .invalidate => 0#32
  | .harvest => 0#32
  | .faultResume => 0#32
  | .gateCreate => 0#32
  | .gateOpen => 0#32
  | .gateClose => 0#32
  | .gateSetacl => 0#32
  | .gateMove => 0#32
  | .gateRevoke => 0#32
  | .gateFree => 0#32
  | .gateFreefwd => 0#32
  | .queueCreate => 0#32
  | .queueDestroy => 0#32
  | .queueReset => 0#32
  | .interfaceBind => 0#32
  | .interfaceRevoke => 0#32
  | .interfaceRelease => 0#32
  | .interfaceRevoked => 0#32
  | .linkCmdRetrain => 0#32
  | .linkCmdDown => 0#32
  | .linkCmdTrain => 0#32
  | .peerTraining => 0#32
  | .trainingResult => 0#32
  | .crcRetry => 0#32
  | .syncFlit => 0#32
  | .powerReqFull => 0#32
  | .powerReqReduced => 0#32
  | .powerReqRetention => 0#32
  | .powerReqOff => 0#32
  | .powerTransitionDone => 0#32
  | .registerWrite => 0#32
  | .hostCxlMemAccess => 0#32
  | .pullRequest => 0#32
  | .pullReceived => 0#32
  | .pullTimeout => 0#32
  | .pullsComplete => 0#32
  | .lineageRequest => 0#32
  | .remoteRecordQuery => 0#32
  | .homeunreach => 0#32
  | .moduleReset => 0#32
  | .domainBringUp => 0#32
  | .partitionChangeReport => 0#32

/-- The slot whose map holds an instruction; SB stands for itself only in a bundle. Events have none. -/
def Instr.home : Instr → Option Slot
  | .nop _ => some .K
  | .br _ _ => some .K
  | .brz _ _ _ => some .K
  | .brnz _ _ _ => some .K
  | .jmp _ _ => some .K
  | .call _ _ => some .K
  | .callr _ _ => some .K
  | .ret _ => some .K
  | .loop _ _ _ => some .K
  | .loopm _ _ _ _ => some .K
  | .brk _ _ _ => some .K
  | .yield _ => some .K
  | .tend _ => some .K
  | .trap _ _ => some .K
  | .eret _ => some .K
  | .ifence _ => some .K
  | .rrbset _ _ => some .K
  | .nopre _ => some .K
  | .nopreend _ => some .K
  | .waitc _ _ => some .K
  | .halt _ => some .K
  | .stg _ _ => some .K
  | .add _ => some .SA
  | .sub _ => some .SA
  | .mul _ => some .SA
  | .mulh _ => some .SA
  | .mulhu _ => some .SA
  | .div _ => some .SA
  | .divu _ => some .SA
  | .rem _ => some .SA
  | .remu _ => some .SA
  | .and _ => some .SA
  | .or _ => some .SA
  | .xor _ => some .SA
  | .andn _ => some .SA
  | .orn _ => some .SA
  | .sel _ => some .SA
  | .shl _ => some .SA
  | .shr _ => some .SA
  | .sra _ => some .SA
  | .rotl _ => some .SA
  | .cmpeq _ => some .SA
  | .cmpne _ => some .SA
  | .cmplt _ => some .SA
  | .cmpltu _ => some .SA
  | .cmple _ => some .SA
  | .cmpleu _ => some .SA
  | .min _ => some .SA
  | .max _ => some .SA
  | .minu _ => some .SA
  | .maxu _ => some .SA
  | .clz _ => some .SA
  | .ctz _ => some .SA
  | .popc _ => some .SA
  | .ext _ => some .SA
  | .ins _ => some .SA
  | .addi _ => some .SA
  | .andi _ => some .SA
  | .ori _ => some .SA
  | .xori _ => some .SA
  | .shli _ => some .SA
  | .shri _ => some .SA
  | .srai _ => some .SA
  | .cmpeqi _ => some .SA
  | .cmplti _ => some .SA
  | .cmpltui _ => some .SA
  | .movi _ => some .SA
  | .movhi _ => some .SA
  | .movfi _ => some .SA
  | .fadd _ => some .SA
  | .fsub _ => some .SA
  | .fmul _ => some .SA
  | .ffma _ => some .SA
  | .fmin _ => some .SA
  | .fmax _ => some .SA
  | .fcmpeq _ => some .SA
  | .fcmplt _ => some .SA
  | .fcmple _ => some .SA
  | .fcvt _ => some .SA
  | .fdiv _ => some .SA
  | .fsqrt _ => some .SA
  | .tadd _ => some .SA
  | .tmul _ => some .SA
  | .tfma _ => some .SA
  | .amov _ => some .SA
  | .aaddi _ => some .SA
  | .aread _ => some .SA
  | .adelta _ => some .SA
  | .lidx _ => some .SA
  | .csrr _ => some .SA
  | .csrw _ => some .SA
  | .topo _ => some .SA
  | .rdcyc _ => some .SA
  | .pany _ => some .SA
  | .pall _ => some .SA
  | .pcnt _ => some .SA
  | .ldb _ => some .LS
  | .ldbu _ => some .LS
  | .ldh _ => some .LS
  | .ldhu _ => some .LS
  | .ldw _ => some .LS
  | .ldwu _ => some .LS
  | .ldd _ => some .LS
  | .stb _ => some .LS
  | .sth _ => some .LS
  | .stw _ => some .LS
  | .std _ => some .LS
  | .vld _ => some .LS
  | .vst _ => some .LS
  | .vlds _ => some .LS
  | .vsts _ => some .LS
  | .vgather _ => some .LS
  | .vscatter _ => some .LS
  | .vldb _ => some .LS
  | .pld _ => some .LS
  | .pst _ => some .LS
  | .kld _ => some .LS
  | .qsave _ => some .LS
  | .qload _ => some .LS
  | .istore _ => some .LS
  | .amoadd _ => some .LS
  | .amoand _ => some .LS
  | .amoor _ => some .LS
  | .amoxor _ => some .LS
  | .amomin _ => some .LS
  | .amomax _ => some .LS
  | .amominu _ => some .LS
  | .amomaxu _ => some .LS
  | .amoswap _ => some .LS
  | .amocas _ => some .LS
  | .amofadd _ => some .LS
  | .amotadd _ => some .LS
  | .rput _ => some .LS
  | .rputv _ => some .LS
  | .ramo _ => some .LS
  | .sinc _ => some .LS
  | .swait _ => some .LS
  | .sexpect _ => some .LS
  | .swaite _ => some .LS
  | .sread _ => some .LS
  | .bararr _ => some .LS
  | .barwait _ => some .LS
  | .fence _ => some .LS
  | .fencemark _ => some .LS
  | .gpost _ => some .LS
  | .gwait _ => some .LS
  | .gtry _ => some .LS
  | .gread _ => some .LS
  | .vsetf _ => some .VA
  | .vadd _ => some .VA
  | .vsub _ => some .VA
  | .vmul _ => some .VA
  | .vfma _ => some .VA
  | .vfms _ => some .VA
  | .vfnma _ => some .VA
  | .vdiv _ => some .VA
  | .vmin _ => some .VA
  | .vmax _ => some .VA
  | .vabs _ => some .VA
  | .vneg _ => some .VA
  | .vcmpeq _ => some .VA
  | .vcmplt _ => some .VA
  | .vcmple _ => some .VA
  | .vsel _ => some .VA
  | .vand _ => some .VA
  | .vor _ => some .VA
  | .vxor _ => some .VA
  | .vshl _ => some .VA
  | .vshr _ => some .VA
  | .vsra _ => some .VA
  | .vqdot _ => some .VA
  | .vqadd _ => some .VA
  | .vqacc _ => some .VA
  | .vqsub _ => some .VA
  | .vqrnd _ => some .VA
  | .vqscale _ => some .VA
  | .vqclr _ => some .VA
  | .vqmovQq _ => some .VA
  | .vqmovVq _ => some .VA
  | .vqmovQv _ => some .VA
  | .vlqmac _ => some .VA
  | .vlqadd _ => some .VA
  | .vlqrnd _ => some .VA
  | .vlqclr _ => some .VA
  | .vpiv _ => some .VA
  | .vcvt _ => some .VB
  | .vpack4 _ => some .VB
  | .vunpack4 _ => some .VB
  | .vperm _ => some .VB
  | .vrotl _ => some .VB
  | .vslide _ => some .VB
  | .vbcast _ => some .VB
  | .viota _ => some .VB
  | .vmov _ => some .VB
  | .vext _ => some .VB
  | .vins _ => some .VB
  | .vrand _ => some .VB
  | .vtopk _ => some .VB
  | .vdigest _ => some .VB
  | .vrecip _ => some .VB
  | .vrsqrt _ => some .VB
  | .vsqrt _ => some .VB
  | .vexp2 _ => some .VB
  | .vlog2 _ => some .VB
  | .vtanh _ => some .VB
  | .vsigm _ => some .VB
  | .pand _ => some .VB
  | .por _ => some .VB
  | .pxor _ => some .VB
  | .pnot _ => some .VB
  | .pset _ => some .VB
  | .mcfg _ => some .MX
  | .macc _ => some .MX
  | .mshift _ => some .MX
  | .mscale _ => some .MX
  | .mdrain _ => some .MX
  | .mdrainq _ => some .MX
  | .mclr _ => some .MX
  | .msave _ => some .MX
  | .mrestore _ => some .MX
  | .mbar _ => some .MX
  | .cqpush _ => some .CP
  | .cwait _ => some .CP
  | .cdone _ => some .CP
  | .ckick _ => some .CP
  | .cqres _ => some .CP
  | .resultLanding => none
  | .storeWrite => none
  | .trapEntry => none
  | .waitSatisfied => none
  | .gangStopSignal => none
  | .preemptRequest => none
  | .taskStart => none
  | .writeQueueDepart => none
  | .requestQueueDepart => none
  | .remoteApply => none
  | .timedRelease => none
  | .doneshPublication => none
  | .gatePublication => none
  | .tokenDivision => none
  | .gatePostArrival => none
  | .waiterRecord => none
  | .moveInstall => none
  | .barrierArrival => none
  | .barrierRelease => none
  | .kick => none
  | .claim => none
  | .consumerSweep => none
  | .contentWindowExpiry => none
  | .packetBegin => none
  | .packetCompletion => none
  | .copyV1 => none
  | .copyV2 => none
  | .tile2d => none
  | .mcast2d => none
  | .fill => none
  | .packetFence => none
  | .mark => none
  | .signal => none
  | .prefetch => none
  | .migrate => none
  | .launch => none
  | .launchDepsMet => none
  | .launchCheck => none
  | .placementDecision => none
  | .groupLoaded => none
  | .launchDone => none
  | .sliceEnd => none
  | .watchdog => none
  | .groupSave => none
  | .groupResume => none
  | .contextSuspended => none
  | .fatalTeardown => none
  | .ctxCreate => none
  | .ctxSuspend => none
  | .ctxResume => none
  | .ctxDestroy => none
  | .seal => none
  | .restore => none
  | .rehome => none
  | .placeSet => none
  | .slotSet => none
  | .slotFrameBoundary => none
  | .mapEntry => none
  | .mapRange => none
  | .mapRoots => none
  | .mapRings => none
  | .unmap => none
  | .invalidate => none
  | .harvest => none
  | .faultResume => none
  | .gateCreate => none
  | .gateOpen => none
  | .gateClose => none
  | .gateSetacl => none
  | .gateMove => none
  | .gateRevoke => none
  | .gateFree => none
  | .gateFreefwd => none
  | .queueCreate => none
  | .queueDestroy => none
  | .queueReset => none
  | .interfaceBind => none
  | .interfaceRevoke => none
  | .interfaceRelease => none
  | .interfaceRevoked => none
  | .linkCmdRetrain => none
  | .linkCmdDown => none
  | .linkCmdTrain => none
  | .peerTraining => none
  | .trainingResult => none
  | .crcRetry => none
  | .syncFlit => none
  | .powerReqFull => none
  | .powerReqReduced => none
  | .powerReqRetention => none
  | .powerReqOff => none
  | .powerTransitionDone => none
  | .registerWrite => none
  | .hostCxlMemAccess => none
  | .pullRequest => none
  | .pullReceived => none
  | .pullTimeout => none
  | .pullsComplete => none
  | .lineageRequest => none
  | .remoteRecordQuery => none
  | .homeunreach => none
  | .moduleReset => none
  | .domainBringUp => none
  | .partitionChangeReport => none

/-- The slots in syllable order, SB left out because it reads the map of SA. -/
def tableSlots : List Slot := [.K, .SA, .LS, .VA, .VB, .MX, .CP]

/-- The first slot in syllable order whose map accepts a word, with its instruction. One word can name an instruction in
several maps (R78), so the choice is the model's (log 6). -/
def firstSlot : List Slot → W32 → Option (Slot × Instr)
  | [], _ => none
  | s :: rest, w =>
    match decodeSlot s w with
    | .ok i => some (s, i)
    | .error _ => firstSlot rest w

/-- The instruction that the decoder reads from the word `w` of a row of the opcode table. -/
def decodeTableWord (nbits w : Nat) : Option Instr :=
  if nbits = 32 then (firstSlot tableSlots (BitVec.ofNat 32 w)).map (·.2) else none

/-! ### Bundles -/

/-- Syllable `k` of a bundle (R78). -/
def Bundle.syllable (b : Bundle) (k : Nat) : W32 := b.extractLsb' (32 * k) 32

/-- The LIT bit (R81). -/
def Bundle.lit (b : Bundle) : Bool := b.getLsbD 31

/-- The slot of each syllable position (R78). -/
def Slot.ofIndex : Nat → Slot
  | 0 => .K
  | 1 => .SA
  | 2 => .SB
  | 3 => .LS
  | 4 => .VA
  | 5 => .VB
  | 6 => .MX
  | _ => .CP

/-- The number of a slot's syllable. -/
def Slot.index : Slot → Nat
  | .K => 0
  | .SA => 1
  | .SB => 2
  | .LS => 3
  | .VA => 4
  | .VB => 5
  | .MX => 6
  | .CP => 7

end Sys2Proof
end

