-- ==== Sys2Proof/Machine/Numbers.lean ====
section
/-! DEFINITION. Number formats, exact values, rounding, quires and the counter-based generator (spec/03_numbers.md
R55-R75), and the exact operations that the arithmetic instructions round once. -/

namespace Sys2Proof

/-! ### Flags (spec/02_tile.md R38) -/

/-- TSTAT bits 10:0. -/
abbrev Flags := BitVec 11

namespace Flag
def NX : Flags := 0x001
def UF : Flags := 0x002
def OF : Flags := 0x004
def DZ : Flags := 0x008
def NV : Flags := 0x010
def INV : Flags := 0x020
def QOVF : Flags := 0x040
def RANGE : Flags := 0x080
def LANDCOLL : Flags := 0x100
def LATCHLOST : Flags := 0x200
def SCOPECLAMP : Flags := 0x400
end Flag

/-! ### Formats (R55, R63) -/

/-- A number format: tapered, IEEE (width, precision, exponent bits) or integer. -/
inductive Fmt where
  | tap (n es : Nat)
  | ieee (bits p eb : Nat)
  | int (signed : Bool) (w : Nat)
deriving DecidableEq, Repr

/-- The format of a code; reserved codes and T4 with es 2 or 3 have none (R55). -/
def Fmt.ofCode (c : Nat) : Option Fmt :=
  match c with
  | 0 => some (.tap 4 0)
  | 1 => some (.tap 4 1)
  | 4 => some (.tap 8 0)
  | 5 => some (.tap 8 1)
  | 6 => some (.tap 8 2)
  | 7 => some (.tap 8 3)
  | 8 => some (.tap 16 0)
  | 9 => some (.tap 16 1)
  | 10 => some (.tap 16 2)
  | 11 => some (.tap 16 3)
  | 12 => some (.tap 32 0)
  | 13 => some (.tap 32 1)
  | 14 => some (.tap 32 2)
  | 15 => some (.tap 32 3)
  | 16 => some (.ieee 32 24 8)
  | 17 => some (.ieee 16 8 8)
  | 18 => some (.ieee 16 11 5)
  | 19 => some (.int true 8)
  | 20 => some (.int true 16)
  | 21 => some (.int true 32)
  | 22 => some (.int false 8)
  | 23 => some (.int false 16)
  | 24 => some (.int false 32)
  | _ => none

/-- FP32. -/
def fp32 : Fmt := .ieee 32 24 8

/-- Element width in bits. -/
def Fmt.width : Fmt → Nat
  | .tap n _ => n
  | .ieee b _ _ => b
  | .int _ w => w

def Fmt.isIeee : Fmt → Bool
  | .ieee _ _ _ => true
  | _ => false

def Fmt.isInt : Fmt → Bool
  | .int _ _ => true
  | _ => false

def Fmt.isTap : Fmt → Bool
  | .tap _ _ => true
  | _ => false

/-! ### Exact values -/

/-- An exact value: a fraction with a sign (an IEEE zero keeps its sign), an IEEE infinity, or NaR / NaN. -/
inductive Val where
  | fin (neg : Bool) (n d : Nat)
  | inf (neg : Bool)
  | nan
deriving DecidableEq, Repr

namespace Val

def zero : Val := .fin false 0 1

def isZero : Val → Bool
  | .fin _ n _ => n == 0
  | _ => false

def isNan : Val → Bool
  | .nan => true
  | _ => false

def isInf : Val → Bool
  | .inf _ => true
  | _ => false

/-- The value is below zero. -/
def isNeg : Val → Bool
  | .fin neg n _ => neg && n != 0
  | .inf neg => neg
  | .nan => false

/-- The value of an integer. -/
def ofInt (i : Int) : Val := .fin (decide (i < 0)) i.natAbs 1

def neg : Val → Val
  | .fin s n d => .fin (!s) n d
  | .inf s => .inf (!s)
  | .nan => .nan

def abs : Val → Val
  | .fin _ n d => .fin false n d
  | .inf _ => .inf false
  | .nan => .nan

/-- A zero loses its sign: the value of an operation none of whose operands is IEEE (R64). -/
def plusZero : Val → Val
  | .fin s n d => .fin (s && n != 0) n d
  | v => v

/-- The signed numerator over the denominator of a finite value. -/
def num : Val → Int
  | .fin s n _ => if s then -(n : Int) else n
  | _ => 0

/-- The denominator of a finite value. -/
def den : Val → Nat
  | .fin _ _ d => d
  | _ => 1

/-- `a < b` on values that are no NaN; the two zeros are equal. -/
def lt (a b : Val) : Bool :=
  match a, b with
  | .nan, _ => false
  | _, .nan => false
  | .inf s, .inf t => s && !t
  | .inf s, _ => s
  | _, .inf t => !t
  | a, b => decide (a.num * b.den < b.num * a.den)

/-- Equality on values that are no NaN; the two zeros are equal. -/
def eqv (a b : Val) : Bool :=
  match a, b with
  | .nan, _ => false
  | _, .nan => false
  | .inf s, .inf t => s == t
  | .inf _, _ => false
  | _, .inf _ => false
  | a, b => decide (a.num * b.den = b.num * a.den)

end Val

/-- A value with the flags its operation raised. -/
abbrev VF := Val × Flags

/-- `n / d × 2^e` as a fraction. -/
def scale2 (n d : Nat) (e : Int) : Nat × Nat :=
  if 0 ≤ e then (n * 2 ^ e.toNat, d) else (n, d * 2 ^ (-e).toNat)

/-- floor(log2(n / d)) for positive n and d. -/
def floorLog2 (n d : Nat) : Int :=
  let l : Int := (n.log2 : Int) - (d.log2 : Int)
  let (a, b) := scale2 n d (-l)
  if b ≤ a then l else l - 1

/-! ### Decoding (R56, R62, R63, R66) -/

/-- How many bits of `w` from position i - 1 downwards equal `rb`. -/
def runLen (w : Nat) (rb : Bool) : Nat → Nat
  | 0 => 0
  | i + 1 => if w.testBit i = rb then 1 + runLen w rb i else 0

/-- tdecode of R56. -/
def tdecode (w n es : Nat) : Val :=
  if w = 0 then .zero
  else if w = 2 ^ (n - 1) then .nan
  else
    let sgn := w.testBit (n - 1)
    let mag := if sgn then 2 ^ n - w else w
    let rb := mag.testBit (n - 2)
    let m := runLen mag rb (n - 1)
    let k : Int := if rb then (m : Int) - 1 else -(m : Int)
    let r := n - 2 - m
    let rest := mag % 2 ^ r
    let e := if es ≤ r then rest / 2 ^ (r - es) else rest * 2 ^ (es - r)
    let fb := r - es
    let f := rest % 2 ^ fb
    let (a, b) := scale2 (2 ^ fb + f) (2 ^ fb) (k * (2 ^ es : Nat) + e)
    .fin sgn a b

/-- The value of an IEEE word (R63), with NV for a signalling NaN. -/
def ieeeDecode (w bits p eb : Nat) : VF :=
  let sgn := w.testBit (bits - 1)
  let ef := w / 2 ^ (p - 1) % 2 ^ eb
  let mant := w % 2 ^ (p - 1)
  let bias : Int := (2 ^ (eb - 1) : Nat) - 1
  if ef = 2 ^ eb - 1 then
    if mant = 0 then (.inf sgn, 0)
    else (.nan, if mant.testBit (p - 2) then 0 else Flag.NV)
  else if ef = 0 then
    let (a, b) := scale2 mant 1 (1 - bias - (p - 1 : Nat))
    (.fin sgn a b, 0)
  else
    let (a, b) := scale2 (2 ^ (p - 1) + mant) 1 ((ef : Int) - bias - (p - 1 : Nat))
    (.fin sgn a b, 0)

/-- The value of a two's-complement or unsigned word. -/
def intDecode (w : Nat) (signed : Bool) (width : Nat) : Int :=
  if signed && w.testBit (width - 1) then (w : Int) - (2 ^ width : Nat) else w

/-- xval of R66 on the low bits of `w`: an exact value, keeping IEEE infinities, and NV for a signalling NaN. -/
def Fmt.xval (f : Fmt) (w : Nat) : VF :=
  match f with
  | .tap n es => (tdecode (w % 2 ^ n) n es, 0)
  | .ieee b p eb => ieeeDecode (w % 2 ^ b) b p eb
  | .int s n => (.ofInt (intDecode (w % 2 ^ n) s n), 0)

/-- E8 is a reserved exponent byte (R62). -/
def e8Reserved (e8 : Nat) : Bool := decide (e8 < 0x20) || (decide (0xDF < e8) && e8 != 0xFF)

/-- bdecode of R62. -/
def bdecode (w e8 es : Nat) : VF :=
  if e8 = 0xFF then (.nan, 0)
  else if e8Reserved e8 then (.nan, Flag.INV)
  else
    match tdecode (w % 16) 4 es with
    | .fin s n d =>
      let (a, b) := scale2 n d ((e8 : Int) - 127)
      (.fin s a b, 0)
    | v => (v, 0)

/-! ### Rounding (R58, R64, R65, R66) -/

/-- Whether a remainder `t / den` rounds its quotient `m` up: nearest even, or stochastic with the word `z`. -/
def roundUp (m t den : Nat) (z : Option Nat) : Bool :=
  match z with
  | none => decide (den < 2 * t) || (2 * t == den && m % 2 == 1)
  | some z => decide (2 ^ 32 ≤ t * 2 ^ 32 / den + z)

/-- tround of R58 for a positive magnitude inside the range. -/
def troundMag (a b n es : Nat) (z : Option Nat) : Nat :=
  let s := floorLog2 a b
  let k := s.fdiv (2 ^ es : Nat)
  let e := (s - k * (2 ^ es : Nat)).toNat
  let (p, q) := scale2 a b (-s)
  let reg := if 0 ≤ k then 2 ^ (k.toNat + 2) - 2 else 1
  let len := 1 + (if 0 ≤ k then k.toNat + 2 else (-k).toNat + 1) + es
  let (x, y) := scale2 ((reg * 2 ^ es + e) * q + (p - q)) q ((n : Int) - len)
  let m := x / y
  if roundUp m (x % y) y z then m + 1 else m

/-- tround of R58. An infinity is NaR with INV (R66). -/
def tround (x : Val) (n es : Nat) (z : Option Nat) : Nat × Flags :=
  match x with
  | .nan => (2 ^ (n - 1), 0)
  | .inf _ => (2 ^ (n - 1), Flag.INV)
  | .fin s a b =>
    if a = 0 then (0, 0)
    else
      let top := 2 ^ (2 ^ es * (n - 2))
      let (e, fl) :=
        if b * top < a then (2 ^ (n - 1) - 1, Flag.RANGE)
        else if a * top < b then (1, Flag.RANGE)
        else (troundMag a b n es z, 0)
      (if s then (2 ^ n - e) % 2 ^ n else e, fl)

/-- The canonical NaN (R63). -/
def canonNan (p eb : Nat) : Nat := (2 ^ (eb + 1) - 1) * 2 ^ (p - 2)

/-- An infinity's word. -/
def ieeeInf (s : Bool) (bits p eb : Nat) : Nat :=
  (if s then 2 ^ (bits - 1) else 0) + (2 ^ eb - 1) * 2 ^ (p - 1)

/-- iround of R64. -/
def iround (x : Val) (bits p eb : Nat) (z : Option Nat) : Nat × Flags :=
  let bias : Int := (2 ^ (eb - 1) : Nat) - 1
  let emin := 1 - bias
  match x with
  | .nan => (canonNan p eb, 0)
  | .inf s => (ieeeInf s bits p eb, 0)
  | .fin s a b =>
    let sb := if s then 2 ^ (bits - 1) else 0
    if a = 0 then (sb, 0)
    else
      let l := floorLog2 a b
      let ue := max l emin - (p - 1 : Nat)
      let (n, d) := scale2 a b (-ue)
      let m0 := n / d
      let t := n % d
      let m := if roundUp m0 t d z then m0 + 1 else m0
      let fl : Flags := (if t = 0 then 0 else Flag.NX) ||| (if t ≠ 0 ∧ l < emin then Flag.UF else 0)
      let (mn, md) := scale2 m 1 (ue - bias - 1)
      if md ≤ mn then (ieeeInf s bits p eb, fl ||| Flag.OF ||| Flag.NX)
      else if m < 2 ^ (p - 1) then (sb + m, fl)
      else (sb + ((ue + (p - 1 : Nat) + bias).toNat * 2 ^ (p - 1) + (m - 2 ^ (p - 1))), fl)

/-- The ends of an integer format's range. -/
def intMin (s : Bool) (w : Nat) : Int := if s then -((2 ^ (w - 1) : Nat) : Int) else 0
def intMax (s : Bool) (w : Nat) : Int := if s then ((2 ^ (w - 1) : Nat) : Int) - 1 else ((2 ^ w : Nat) : Int) - 1

/-- An integer as a word of `w` bits. -/
def intWord (i : Int) (w : Nat) : Nat := (i % (2 ^ w : Nat)).toNat

/-- nround of R65: nearest even whatever RMODE holds. -/
def nround (x : Val) (s : Bool) (w : Nat) : Nat × Flags :=
  match x with
  | .nan => (0, Flag.NV)
  | .inf neg => (intWord (if neg then intMin s w else intMax s w) w, Flag.RANGE)
  | .fin neg a b =>
    let m0 := a / b
    let m : Nat := if roundUp m0 (a % b) b none then m0 + 1 else m0
    let i : Int := if neg then -(m : Int) else m
    if intMax s w < i then (intWord (intMax s w) w, Flag.RANGE)
    else if i < intMin s w then (intWord (intMin s w) w, Flag.RANGE)
    else (intWord i w, 0)

/-- rnd of R66. -/
def Fmt.rnd (f : Fmt) (x : Val) (z : Option Nat) : Nat × Flags :=
  match f with
  | .tap n es => tround x n es z
  | .ieee b p eb => iround x b p eb z
  | .int s w => nround x s w

/-! ### Exact operations (R185, R186, R119) -/

/-- The exact result of an operation: its value, its flags, and whether it is undefined on the reals with no IEEE operand. -/
structure OpRes where
  val : Val
  flags : Flags
  undef : Bool
deriving DecidableEq, Repr

/-- An operation's result without further flags. -/
def OpRes.ofVal (v : Val) : OpRes := ⟨v, 0, false⟩

/-- IEEE invalid. -/
def OpRes.invalid : OpRes := ⟨.nan, Flag.NV, false⟩

/-- The sum of two values; an exact zero is +0 unless both operands are -0. -/
def vadd (a b : Val) : OpRes :=
  match a, b with
  | .nan, _ => .ofVal .nan
  | _, .nan => .ofVal .nan
  | .inf s, .inf t => if s = t then .ofVal (.inf s) else .invalid
  | .inf s, _ => .ofVal (.inf s)
  | _, .inf t => .ofVal (.inf t)
  | .fin s n d, .fin t m e =>
    let x := (Val.fin s n d).num * e + (Val.fin t m e).num * d
    .ofVal (.fin (if x = 0 then s && t && n == 0 && m == 0 else decide (x < 0)) x.natAbs (d * e))

/-- The product of two values. -/
def vmul (a b : Val) : OpRes :=
  match a, b with
  | .nan, _ => .ofVal .nan
  | _, .nan => .ofVal .nan
  | .inf s, .inf t => .ofVal (.inf (s != t))
  | .inf s, .fin t m _ => if m = 0 then .invalid else .ofVal (.inf (s != t))
  | .fin s n _, .inf t => if n = 0 then .invalid else .ofVal (.inf (s != t))
  | .fin s n d, .fin t m e => .ofVal (.fin (s != t) (n * m) (d * e))

/-- The quotient of two values; `ieee` says that some operand is IEEE (R186). -/
def vdiv (ieee : Bool) (a b : Val) : OpRes :=
  match a, b with
  | .nan, _ => .ofVal .nan
  | _, .nan => .ofVal .nan
  | .inf _, .inf _ => .invalid
  | .inf s, .fin t _ _ => .ofVal (.inf (s != t))
  | .fin s _ _, .inf t => .ofVal (.fin (s != t) 0 1)
  | .fin s n d, .fin t m e =>
    if m = 0 then
      if ieee then (if n = 0 then .invalid else ⟨.inf (s != t), Flag.DZ, false⟩)
      else ⟨.nan, 0, true⟩
    else .ofVal (.fin (s != t) (n * e) (d * m))

/-- `a × b + d` with its product exact. -/
def vfma (a b d : Val) : OpRes :=
  let p := vmul a b
  if p.flags ≠ 0 ∧ d.isNan then ⟨.nan, p.flags, false⟩
  else
    let r := vadd p.val d
    ⟨r.val, p.flags ||| r.flags, false⟩

/-- Integer square root by Newton's iteration from above. -/
def isqrtGo (n : Nat) : Nat → Nat → Nat
  | 0, x => x
  | fuel + 1, x =>
    let y := (x + n / x) / 2
    if y < x then isqrtGo n fuel y else x

/-- floor(sqrt n). -/
def isqrt (n : Nat) : Nat := if n = 0 then 0 else isqrtGo n (n.log2 + 2) (2 ^ (n.log2 / 2 + 1))

/-- The square root of n / d. An irrational root is given as a value strictly between two neighbours of a lattice 2^128
times finer than the root, so every rounding and every tail is that of the exact root. -/
def sqrtFrac (n d : Nat) : Val :=
  let x := n * d * 4 ^ 128
  let r := isqrt x
  if r * r = x then .fin false r (d * 2 ^ 128) else .fin false (2 * r + 1) (d * 2 ^ 129)

/-- The common frame of the special functions and of FSQRT for an argument outside the domain (R207). -/
def outside (ieee : Bool) : OpRes := if ieee then .invalid else ⟨.nan, 0, true⟩

/-- The square root. -/
def vsqrt (ieee : Bool) : Val → OpRes
  | .nan => .ofVal .nan
  | .inf s => if s then outside ieee else .ofVal (.inf false)
  | .fin s n d =>
    if n = 0 then .ofVal (.fin s 0 1)
    else if s then outside ieee
    else .ofVal (sqrtFrac n d)

/-- The reciprocal. -/
def vrecip (ieee : Bool) : Val → OpRes
  | .nan => .ofVal .nan
  | .inf s => .ofVal (.fin s 0 1)
  | .fin s n d =>
    if n = 0 then (if ieee then ⟨.inf s, Flag.DZ, false⟩ else ⟨.nan, 0, true⟩)
    else .ofVal (.fin s d n)

/-- The reciprocal square root. -/
def vrsqrt (ieee : Bool) : Val → OpRes
  | .nan => .ofVal .nan
  | .inf s => if s then outside ieee else .ofVal .zero
  | .fin s n d =>
    if n = 0 then (if ieee then ⟨.inf s, Flag.DZ, false⟩ else ⟨.nan, 0, true⟩)
    else if s then outside ieee
    else .ofVal (sqrtFrac d n)

/-! ### Transcendental functions (R207)

The values are computed in fixed point with 1,300 fraction bits. A value that is not exactly representable is
transcendental, so it lies strictly between two neighbours of a lattice of 1,200 fraction bits; the middle of that interval
is delivered, and its rounding is that of the exact value unless the exact value lies within 2^-1,200 of a rounding boundary
without being one (log 8). -/

/-- Fraction bits of the working precision. -/
def fxBits : Nat := 1300

/-- 2 × (z + z^3/3 + z^5/5 + …) from the running power `t`, in fixed point. -/
def atanhGo (z2 : Nat) : Nat → Nat → Nat → Nat → Nat
  | 0, _, _, acc => acc
  | fuel + 1, t, k, acc => atanhGo z2 fuel (t * z2 / 2 ^ fxBits) (k + 2) (acc + 2 * t / k)

/-- ln((1 + z) / (1 - z)) for z = n / d at most 1/3. -/
def lnRatio (n d : Nat) : Nat :=
  let z := n * 2 ^ fxBits / d
  atanhGo (z * z / 2 ^ fxBits) 420 z 1 0

/-- ln 2. -/
def ln2 : Nat := lnRatio 1 3

/-- The exponential series. -/
def expGo (y : Nat) : Nat → Nat → Nat → Nat → Nat
  | 0, _, _, acc => acc
  | fuel + 1, t, k, acc => expGo y fuel (t * y / 2 ^ fxBits / k) (k + 1) (acc + t)

/-- 2^f for a fraction f in fixed point. -/
def exp2Frac (f : Nat) : Nat := expGo (f * ln2 / 2 ^ fxBits) 260 (2 ^ fxBits) 1 0

/-- The middle of the interval of the 1,200-bit lattice that holds a fixed-point value. -/
def sticky (x : Nat) : Nat × Nat := (2 * (x / 2 ^ 100) + 1, 2 ^ 1201)

/-- 2^x. -/
def vexp2 : Val → OpRes
  | .nan => .ofVal .nan
  | .inf s => .ofVal (if s then .zero else .inf false)
  | .fin s n d =>
    let i : Int := if s then -((n + d - 1) / d : Nat) else (n / d : Nat)
    if 8192 < i then .ofVal (.fin false (2 ^ 8192) 1)
    else if i < -8192 then .ofVal (.fin false 1 (2 ^ 8192))
    else
      let fn : Nat := if s then (i.natAbs * d - n) else n % d
      let (a, b) := if fn = 0 then (1, 1) else sticky (exp2Frac (fn * 2 ^ fxBits / d))
      let (p, q) := scale2 a b i
      .ofVal (.fin false p q)

/-- The base-2 logarithm. -/
def vlog2 (ieee : Bool) : Val → OpRes
  | .nan => .ofVal .nan
  | .inf s => if s then outside ieee else .ofVal (.inf false)
  | .fin s n d =>
    if n = 0 then (if ieee then ⟨.inf true, Flag.DZ, false⟩ else ⟨.nan, 0, true⟩)
    else if s then outside ieee
    else
      let l := floorLog2 n d
      let (p, q) := scale2 n d (-l)
      if p = q then .ofVal (.ofInt l)
      else
        let fr := lnRatio (p - q) (p + q) * 2 ^ fxBits / ln2
        let (a, b) := sticky fr
        let x : Int := l * (b : Int) + a
        .ofVal (.fin (decide (x < 0)) x.natAbs b)

/-- e^(-n/d) in fixed point, for n / d below 2,048. -/
def expNeg (n d : Nat) : Nat :=
  let y := n * 2 ^ (2 * fxBits) / (d * ln2)
  let i := y / 2 ^ fxBits
  exp2Frac (2 ^ fxBits - y % 2 ^ fxBits) / 2 ^ (i + 1)

/-- The hyperbolic tangent. -/
def vtanh : Val → OpRes
  | .nan => .ofVal .nan
  | .inf s => .ofVal (.fin s 1 1)
  | .fin s n d =>
    if n = 0 then .ofVal (.fin s 0 1)
    else if 400 * d ≤ n then .ofVal (.fin s (2 ^ 1200 - 1) (2 ^ 1200))
    else
      let e := expNeg (2 * n) d
      let (a, b) := sticky ((2 ^ fxBits - e) * 2 ^ fxBits / (2 ^ fxBits + e))
      .ofVal (.fin s a b)

/-- The logistic function of R207. -/
def vsigm : Val → OpRes
  | .nan => .ofVal .nan
  | .inf s => .ofVal (if s then .zero else .fin false 1 1)
  | .fin s n d =>
    if n = 0 then .ofVal (.fin false 1 2)
    else if 800 * d ≤ n then
      .ofVal (if s then .fin false 1 (2 ^ 1200) else .fin false (2 ^ 1200 - 1) (2 ^ 1200))
    else
      let e := expNeg n d
      let (a, b) := sticky ((if s then e else 2 ^ fxBits) * 2 ^ fxBits / (2 ^ fxBits + e))
      .ofVal (.fin false a b)

/-! ### Delivering a result -/

/-- The rounded result of an operation in format `D` (R66, R186): `ieee` says that some operand is IEEE. -/
def OpRes.deliver (r : OpRes) (ieee : Bool) (D : Fmt) (z : Option Nat) : Nat × Flags :=
  if r.undef then
    let (w, fl) := D.rnd .nan none
    (w, if D.isInt then fl else Flag.INV)
  else
    let v := if ieee then r.val else r.val.plusZero
    let (w, fl) := D.rnd v z
    (w, fl ||| r.flags)

/-- -0 is below +0; otherwise `Val.lt`. -/
def ltZ (a b : Val) : Bool :=
  match a, b with
  | .fin s n _, .fin t m _ => if n = 0 ∧ m = 0 then s && !t else a.lt b
  | _, _ => a.lt b

/-- The lesser (or greater) of two operands, by FMIN and FMAX of R119 and by R186: `ta` and `tb` say that an operand is
tapered, and a tapered NaR gives NaR. -/
def vminmax (greater ta tb : Bool) (a b : Val) : Val :=
  if (ta && a.isNan) || (tb && b.isNan) then .nan
  else if a.isNan then b
  else if b.isNan then a
  else if greater then (if ltZ a b then b else a)
  else (if ltZ b a then b else a)

/-! ### Quires (R68-R74) -/

/-- The view of a format's products: 0 N, 1 M, 2 F (R68). -/
def Fmt.view : Fmt → Nat
  | .tap n _ => if n = 8 then 0 else if n = 32 then 2 else 1
  | .ieee _ _ _ => 2
  | .int _ _ => 0

/-- The width of a view. -/
def viewBits (v : Nat) : Nat := 256 * 2 ^ v

/-- The integer of a quire word, `none` for NaR (R69). -/
def quireInt (W w : Nat) : Option Int :=
  if w = 2 ^ (W - 1) then none
  else some (if 2 ^ (W - 1) ≤ w then (w : Int) - (2 ^ W : Nat) else w)

/-- The word of a quire. -/
def quireWord (W : Nat) : Option Int → Nat
  | none => 2 ^ (W - 1)
  | some q => intWord q W

/-- qadd of R69 on integers already scaled to the view. -/
def qadd (W : Nat) (q v : Option Int) : Option Int × Flags :=
  match q, v with
  | some a, some b =>
    let c := a + b
    if (2 ^ (W - 1) : Nat) - 1 < c ∨ c < -((2 ^ (W - 1) : Nat) - 1 : Int) then (none, Flag.QOVF) else (some c, 0)
  | _, _ => (none, 0)

/-- A finite value as an integer number of a view's LSBs; a value that is no real gives NaR. -/
def Val.toQuire (W : Nat) : Val → Option Int
  | .fin s n d =>
    let m : Int := (n * 2 ^ (W / 2) / d : Nat)
    some (if s then -m else m)
  | _ => none

/-- A product entering a quire: NaR for any NaN, and NaR with INV for any infinity (R66, R70, R191). -/
def quireProduct (a b : Val) : VF :=
  let p := vmul a b
  if a.isInf || b.isInf then (.nan, Flag.INV) else (p.val, 0)

/-- A single value entering a quire. -/
def quireTerm (a : Val) : VF := if a.isInf then (.nan, Flag.INV) else (a, 0)

/-- qround of R74. -/
def qround (W : Nat) (q : Option Int) (s : Val) (D : Fmt) (z : Option Nat) : Nat × Flags :=
  match q, s with
  | some i, .fin sn n d =>
    D.rnd (Val.plusZero (.fin (decide (i < 0) != sn) (i.natAbs * n) (2 ^ (W / 2) * d))) z
  | _, _ => D.rnd .nan z

/-! ### The counter-based generator (R75) -/

/-- One mixing pass. -/
def vrandPass (x : Nat) : Nat :=
  let x := x ^^^ (x / 2 ^ 15)
  let x := x * 0x297A2D39 % 2 ^ 32
  x ^^^ (x / 2 ^ 12)

/-- vrand of R75. -/
def vrand (s t c : Nat) : Nat :=
  let hi := c / 2 ^ 32 % 2 ^ 32
  let x := (c % 2 ^ 32) ^^^ ((hi * 2 ^ 16) % 2 ^ 32 + hi / 2 ^ 16)
  let x := (x + t * 0x2C1B3C6D) % 2 ^ 32
  let x := x ^^^ (s % 2 ^ 32)
  (vrandPass (vrandPass x) + s / 2 ^ 32) % 2 ^ 32

/-! ### The canonical reduction tree (R76) -/

/-- One IEEE addition of words of the format `F`; its flags are gathered. -/
def faddIn (F : Fmt) (a b : Nat) (z : Option Nat) : Nat × Flags :=
  let (x, f) := F.xval a
  let (y, g) := F.xval b
  let (w, h) := (vadd x y).deliver true F z
  (w, f ||| g ||| h)

/-- The addition of FP32 words. -/
def fadd32 (a b : Nat) (z : Option Nat) : Nat × Flags := faddIn fp32 a b z

/-- node of R76 over the leaves from `lo`, 2^lev of them: `none` is ABSENT; the flags are those of every addition. -/
def ctreeNode (F : Fmt) (leaf : Nat → Option Nat) : Nat → Nat → Option Nat × Flags
  | 0, lo => (leaf lo, 0)
  | lev + 1, lo =>
    let (l, f) := ctreeNode F leaf lev lo
    let (h, g) := ctreeNode F leaf lev (lo + 2 ^ lev)
    match l, h with
    | none, h => (h, f ||| g)
    | l, none => (l, f ||| g)
    | some l, some h =>
      let (w, fl) := faddIn F l h none
      (some w, f ||| g ||| fl)

/-- ctree of R76 on leaves of the IEEE format `F`, with the flags of its additions. -/
def ctree (F : Fmt) (n : Nat) (leaf : Nat → Option Nat) : Nat × Flags :=
  let lev := if n ≤ 1 then 0 else (n - 1).log2 + 1
  let (y, fl) := ctreeNode F (fun i => if i < n then leaf i else none) lev 0
  (y.getD 0, fl)

end Sys2Proof
end

