-- ==== Sys2Proof/Config.lean ====
section
/-! DEFINITION. The free values of the model: constants with no body, applied to the counter `State.freeCtr` or to the operands
they depend on. Nothing can evaluate them, so every statement holds for each value they may have. -/

namespace Sys2Proof.Config

/-- A bit that the spec leaves open: whether fetch sees the old or the new bytes of a bundle that was written without an
IFENCE (spec/05_scalar_control.md R139, spec/02_tile.md R43), and whether a racing retry or publication comes first. -/
opaque freeBool : Nat → Bool

/-- A word that the spec leaves open: the random bits of a lineage id and a lineage key (spec/10_context.md R268). -/
opaque freeWord : Nat → Nat

/-- What hardware takes for data of device memory that an uncorrectable error has lost, by address and cycle: no read delivers uncorrected data,
and for the hardware's own reads the spec gives no other consequence (spec/17_faults_determinism_power.md R377). -/
opaque lostData : Nat → Nat → Nat

/-- A byte of a tile memory that a group's load does not define (spec/12_kernel.md R302): the load's number and the offset. -/
opaque freeByte : Nat → Nat → Byte

/-- A record whose layout the spec does not give, in a cairn's payload (spec/10_context.md R273): its length, and the byte at an offset, both
of the section and the values that the record holds. -/
opaque openLength : Nat → List Nat → Nat
opaque openByte : Nat → List Nat → Nat → Byte

/-- A byte of a module's RSASSA-PSS signature over a digest under a salt (R272): the identity keys are not in the spec. -/
opaque signByte : Nat → Nat → Nat → Nat → Byte

/-- A module's identity certificate (R268, R269): its length and its bytes. -/
opaque certLength : Nat → Nat
opaque certByte : Nat → Nat → Byte

/-- A byte of the SHA-256 of a module's firmware measurements (R269). -/
opaque firmwareByte : Nat → Nat → Byte

/-- The SHA-256 of a module's public key (R272), which the spec does not give. -/
opaque sourceId : Nat → Nat

/-- The ridge port of a side that carries the traffic between a massif, or the copy engines (96), and another module: R24 and R368 do
not say which of the 16 it is; taken modulo 16. -/
opaque ridgePort : Nat → Nat → Nat

end Sys2Proof.Config
end

