-- ==== Sys2Proof/Machine/State.lean ====
section
/-! DEFINITION. The state of the module as plain data: the tile whose turn it is, every other tile, and the objects of the module
(INVENTORY.md, State). -/

namespace Sys2Proof.Machine

/-! ### Memory -/

/-- A byte memory in canonical form: addresses strictly rising, no entry equal to what an unlisted address reads as. `epoch` says
what that is: zero, or the undefined bytes of the load with that number (spec/12_kernel.md R302). -/
structure Memory where
  epoch : Option Nat
  cells : List Host.Cell
deriving DecidableEq, Repr

/-! ### The arguments of events -/

/-- What another module answers to a command that this module carries to it: the status word of R266. -/
structure Peer where
  status : BitVec 8
  detail : BitVec 56
deriving DecidableEq, Repr

/-- A key wrapped with RSA-OAEP under the identity key of the security controller of one module, which alone opens it (R268, R269, log 112). -/
structure Wrapped where
  receiver : Nat
  content : List Byte
deriving DecidableEq, Repr

/-- A request for a counter slot that reaches its home (R270): 0 a seal step, 1 a restore step, 2 a resume step, 3 a slot that moves, 4 SRC's
certificate, 5 a new home's quote. `quoteOk`: the asker's certificate and quote verify (R269). `measure`, `src` and `cert` are the
measurement, the sealing module and its certificate that the request carries; a slot that moves brings `key` and `policy` (R276). `packet` is
the command that asks: queue and index.
The answer is the same record: `source` the home, `counter`, `key` and `cert` what it returns. -/
structure LineageReq where
  kind : Nat
  lineage : Nat
  counter : Nat
  source : Nat
  quoteOk : Bool
  measure : List Byte
  src : Nat
  cert : List Byte
  key : Wrapped
  policy : List Byte
  packet : Option (Nat × Nat)
  slot : Option Nat := none
deriving DecidableEq, Repr

/-- How bring-up ends (R384). -/
inductive BootResult where
  | ready
  | fwFail
  | linkFail (link : Nat)
  | repairFail (massif : Nat)
  | selfTestFail (massif : Nat)
deriving DecidableEq, Repr

/-! ### The loop stack (spec/05_scalar_control.md R130) -/

/-- One level of the loop stack. `clamped` marks a pre-emption that lowered LIMIT (R137). -/
structure Level where
  pass : Nat
  ncount : Nat
  limit : Nat
  baseIt : Nat
  first : Nat
  last : Nat
  loopm : Bool
  ii : Nat
  stages : Nat
  clamped : Bool
deriving DecidableEq, Repr

/-! ### Results in flight (spec/02_tile.md R49-R51, spec/05_scalar_control.md R143) -/

/-- The seven latches (R35). -/
inductive Latch where
  | b0 | b1 | b2 | vb0 | vb1 | vb2 | vb3
deriving DecidableEq, Repr

/-- Where a result lands. The last nine are not registers of R143's count: state that bundles issued a cycle later see. -/
inductive Dest where
  | s (n : Nat) (handler : Bool)
  | a (n : Nat)
  | v (n : Nat)
  | q (n : Nat)
  | p (n : Nat)
  | acc (plane : Bool)
  | bank
  | nowhere
  | sbk (n : Nat)
  | table (a lev : Nat)
  | delta (n : Nat)
  | vfmt (mask : W32)
  | seed
  | ten
  | tstat
  | rrb
  | fetch
deriving DecidableEq, Repr

/-- What lands. -/
inductive Payload where
  /-- A scalar, an address, or a register of fewer bits in the low bits. -/
  | word (w : W64)
  /-- A vector with its byte enables (R152, R181). -/
  | lanes (mask : PReg) (val : VReg)
  /-- A predicate with its bit enables (R187). -/
  | bits (mask val : PReg)
  /-- A quire that replaces the old one (R190). -/
  | quire (w : QReg)
  /-- A contribution to a quire, as a number of its LSBs; none is NaR (R190). -/
  | quireAdd (v : Option Int)
  /-- A lane-quire contribution with its formats and operand vectors, inactive elements zero (R145 class 7, R196). -/
  | laneAdd (product : Bool) (aFmt bFmt : Nat) (a b : VReg)
  /-- The constant bank (R160). -/
  | consts (w : QReg)
  /-- A local atomic's old value, not yet read (R164). -/
  | unread
deriving DecidableEq, Repr

/-- A result in flight. In a trap frame `due` counts from the resume and `issued` is the age (R145). -/
structure Flight where
  due : Nat
  issued : Nat
  id : Nat
  syl : Nat
  dest : Dest
  payload : Payload
  flags : BitVec 11
  nwb : Bool
  latch : Option Latch
deriving DecidableEq, Repr

/-! ### Waits, traps and control (spec/05_scalar_control.md) -/

/-- A wait that holds the tile (R53). -/
inductive Wait where
  | sem (n value : Nat)
  | semExpect (n : Nat)
  | barrier (n : Nat)
  | gate (operand : W64)
  | copy (binding : Nat) (id : W64)
  | cycle (c : Nat)
deriving DecidableEq, Repr

/-- What a trap reports (R141, R145, R146). -/
structure TrapInfo where
  cause : Nat
  tval : W64
  epc : Nat
  resume : Nat
  self : Bool
  rewait : List Wait
deriving DecidableEq, Repr

/-- A taken transfer whose delay bundle is still to issue (R127, R128, R133, R147). -/
structure Transfer where
  target : Nat
  source : Nat
  close : Nat
  leave : Bool
deriving DecidableEq, Repr

/-- The scalar and vector latches with the marks of R321. -/
structure Latches where
  b : Vector W64 3
  vb : Vector VReg 4
  lost : List Latch
deriving DecidableEq, Repr

/-- A trap frame or a halt frame (R145, R317). `rewait` are the waits that the return re-enters (RKIND 1) and `next` the bundle that
issues after them, or RESUME when there are none; `starting` marks a tile that halted before its next task. -/
structure Frame where
  cause : Nat
  scause : Nat
  self : Bool
  rewait : List Wait
  nopre : Bool
  preempt : Option Nat
  levels : List Level
  rrb : BitVec 4
  epc : Nat
  resume : Nat
  next : Nat
  tval : W64
  latches : Latches
  records : List Flight
  transfer : Option Transfer
  starting : Bool
deriving DecidableEq, Repr

/-- The life of a tile in its group (spec/13_group.md R305); `idle` has no group. -/
inductive TileStatus where
  | idle | starting | issuing | waiting | halted | ended
deriving DecidableEq, Repr

/-! ### The tile's parts -/

/-- The register files (spec/02_tile.md R26-R36). Vector register n below 16 is vn; 16-31 are the physical rotating ones. -/
structure Regs where
  s : Vector W64 64
  h : Vector W64 8
  a : Vector W32 16
  table : Vector W32 96
  v : Vector VReg 32
  p : Vector PReg 8
  q : Vector QReg 8
  k : Vector W32 32
  rrb : BitVec 4
deriving DecidableEq, Repr

/-- The control and status registers (R36-R39). RRB and SBK0-7 have their home in the register files. -/
structure Csrs where
  vfmt : W32
  tstat : W32
  ten : W32
  seed : W64
  clamp : W32
  tcause : BitVec 8
  epc : BitVec 16
deriving DecidableEq, Repr

/-- Control: the program counter, the bundle that brought it there, and what the next issue must do. `held` counts the cycles of
R259, `waits` are those in progress and `waited` the cycle that satisfied them, `skip` is the successor of a loop with count zero,
`entry` an after-kind or gang trap and `landing` a landing condition not yet taken, `dropped` a gang member's bundle without
effect, `leaving` an ERET whose delay bundle has issued, `lastPc` the bundle that
issued last, whose wait it is that holds the tile, `scatterUntil` the first cycle after the window of R157 and R158. -/
structure Control where
  pc : Nat
  source : Nat
  lastPc : Nat
  levels : List Level
  transfer : Option Transfer
  nextIssue : Nat
  handler : Bool
  nopre : Bool
  preempt : Option Nat
  held : Nat
  waits : List Wait
  waited : Option Nat
  skip : Option Nat
  haltPoint : Bool
  entry : Option TrapInfo
  landing : Option TrapInfo
  dropped : Bool
  leaving : Bool
  scatterUntil : Nat
deriving DecidableEq, Repr

/-- An effect due in the accumulator (spec/08_matrix_copy.md R213, R223, R225). -/
inductive MxKind where
  | macc (mode : Nat) (plane : Bool) (aFmt bFmt : Nat) (a b : BitVec 128)
  | clear (flags : BitVec 5)
  | chunk (n : Nat) (bytes : VReg)
deriving DecidableEq, Repr

/-- A pending effect; in a frozen list `due` counts from the resume. -/
structure MxPending where
  due : Nat
  kind : MxKind
deriving DecidableEq, Repr

/-- The matrix state (R33, R209-R227). -/
structure Mx where
  acc0 : BitVec 65536
  acc1 : BitVec 65536
  blk : BitVec 8192
  aLatch : BitVec 256
  bLatch : BitVec 128
  mode : Nat
  aFmt : BitVec 5
  bFmt : BitVec 5
  dFmt : BitVec 5
  ca : BitVec 19
  cb : BitVec 19
  cd : BitVec 19
  pending : List MxPending
  frozen : List MxPending
  owned : Bool
  saved : List Nat
  restored : List Nat
deriving DecidableEq, Repr

/-- A write of the tile that is due in a later cycle (R52, R213). -/
inductive StoreKind where
  | spad | feed | imem
deriving DecidableEq, Repr

/-- `issued` is the cycle of the storing instruction. -/
structure Store where
  due : Nat
  issued : Nat
  kind : StoreKind
  cells : List Host.Cell
deriving DecidableEq, Repr

/-- A read-modify-write of a bank's ALU: operation codes of R90, with 10 swap and 11 compare-and-swap (R48, R163). -/
structure AluOp where
  op : Nat
  bits : Nat
  es : Nat
  value : Nat
  cmp : Nat
deriving DecidableEq, Repr

/-- A local atomic on its way to its bank (R164). -/
structure Amo where
  due : Nat
  addr : Nat
  alu : AluOp
  flight : Nat
deriving DecidableEq, Repr

/-- A read of a load that spans cycles (R157, R158): at cycle `due`, scratchpad bytes go to bytes of the result `flight`. -/
structure PendingRead where
  due : Nat
  flight : Nat
  cells : List (Nat × Nat)
deriving DecidableEq, Repr

/-- A semaphore (R41). -/
structure Semaphore where
  count : W32
  expect : BitVec 24
deriving DecidableEq, Repr, Inhabited

/-- What a remote operation does at its destination (R167). -/
inductive RemoteKind where
  | put (bytes : List Byte)
  | atomic (alu : AluOp)
deriving DecidableEq, Repr

/-- A remote operation (R165-R170). `id` numbers the source tile's operations, `sem` is none without S, `deliver` none
without T. -/
structure RemoteOp where
  id : Nat
  src : Nat
  destModule : Nat
  dest : Nat
  offset : Nat
  kind : RemoteKind
  sem : Option Nat
  cls : Nat
  deliver : Option Nat
deriving DecidableEq, Repr

/-- An entry of the write queue (spec/09_memory_model.md R245). `ready` is the first cycle of departure; an arrival counts
after the tile's remote operations numbered below its own and its local writes issued before cycle `issued`, its own (R173); `mx` marks that of
an MBAR (R228). -/
inductive OutKind where
  | remote (op : RemoteOp)
  | arrive (id bar issued : Nat) (mx : Bool)
  | fence (id : Nat)
  | mark (id : Nat)
deriving DecidableEq, Repr

structure OutEntry where
  ready : Nat
  kind : OutKind
deriving DecidableEq, Repr

/-- An entry of the request queue (R245). A push with no index claims one when it leaves (R231); a post waits for the tile's
operations numbered below its own and its local writes issued before cycle `issued` (R179). -/
inductive ReqKind where
  | push (id queue : Nat) (index : Option Nat) (packet : List Byte)
  | kick (queue : Nat)
  | post (id gate issued : Nat)
  | posting (id gate : Nat)
  | fence (id : Nat)
  | mark (id : Nat)
deriving DecidableEq, Repr

structure ReqEntry where
  ready : Nat
  kind : ReqKind
  parked : Bool
deriving DecidableEq, Repr

/-- A fence in force (R174): its prior operations are those numbered below `id`, its local and matrix writes those issued before
cycle `issued`. -/
structure FenceRec where
  id : Nat
  paths : BitVec 6
  scope : Nat
  issued : Nat
deriving DecidableEq, Repr

/-- A queue binding (spec/08_matrix_copy.md R229, R232). Kind 1 EXCL, 2 SHARED, 3 WATCH; `life` is that of its queue at group start. -/
structure Binding where
  kind : Nat
  queue : Nat
  life : Nat
  wrsh : W64
  donesh : W64
  status : W64
deriving DecidableEq, Repr

/-- A held timed operation (R170, R318). -/
structure Held where
  deliver : Nat
  seq : Nat
  op : RemoteOp
deriving DecidableEq, Repr

/-- The tile's ports and queues. `port` holds the banks that the network port has served in a cycle (R45). `remotes`, `copies` (with queue and index) and `posts` are its operations that are not complete,
by number. -/
structure Ports where
  stores : List Store
  amos : List Amo
  reads : List PendingRead
  sincs : List (Nat × Nat × Nat)
  writes : List OutEntry
  requests : List ReqEntry
  fences : List FenceRec
  remotes : List Nat
  copies : List (Nat × Nat × Option Nat)
  posts : List Nat
  timed : List Held
  inbound : List RemoteOp
  port : Nat × List Nat
  lphase : Vector W32 32
  pending : Vector (Option W32) 32
  bindings : List (Nat × Binding)
deriving DecidableEq, Repr

/-- A bundle that a gang's lead has issued: cycle, index, offset, words, the lead's K operand, its loop levels and whether a pre-emption
request was in force at it (spec/13_group.md R310); with `stop` it is the index at which every tile takes the trap, or halts when the cause is zero (R312, R316). -/
structure Fed where
  cycle : Nat
  index : Nat
  pc : Nat
  words : Bundle
  kval : W64
  levels : List Level
  request : Bool
  stop : Option TrapInfo
deriving DecidableEq, Repr

/-- The stop of a gang: index N, with the trap of the tile whose signal fixed it (R312). -/
structure GangStop where
  index : Nat
  rank : Nat
  cycle : Nat
  info : TrapInfo
deriving DecidableEq, Repr

/-- The tile's place in a group (spec/13_group.md R305, R309-R314; spec/05_scalar_control.md R124). In a gang `feed` and `stop` stand
in the lead, `index` numbers the next bundle, and `gated` says that the last one held a wait. -/
structure Place where
  status : TileStatus
  group : Option Nat
  rank : Nat
  gx : Nat
  gy : Nat
  gw : Nat
  gh : Nat
  glast : Nat
  dx : Nat
  dy : Nat
  gangW : Nat
  gangH : Nat
  lead : Nat
  delta : Nat
  members : List Nat
  partition : Nat
  ctx : Nat
  kseq : Nat
  hvpriv : Bool
  entryPoint : Option Nat
  task : Nat
  taskFrom : Nat
  s0 : Nat
  feed : List Fed
  index : Nat
  gated : Bool
  stop : Option GangStop
deriving DecidableEq, Repr

/-- One tile (spec/02_tile.md R26). `frame` is the trap frame store, which only trap entry writes (R41). `stale` lists bundles whose old bytes fetch may still see, with the cycle of the write;
`loopBuf` is the loop buffer and `bufFor` the level it serves (R43). `slot`, `lit` and `kval` are the syllable that executes, its
bundle's literal and, in a gang, the lead's K operand. -/
structure Tile where
  regs : Regs
  lat : Latches
  csr : Csrs
  ctl : Control
  mx : Mx
  io : Ports
  place : Place
  flights : List Flight
  nextId : Nat
  sems : Vector Semaphore 256
  frame : Option Frame
  halt : Option Frame
  spad : Memory
  imem : Memory
  stale : List (Nat × Nat × Bundle)
  loopBuf : List (Nat × Bundle)
  bufFor : Option Nat
  ecc : List (Nat × Bool)
  iecc : List (Nat × Bool)
  slot : Nat
  lit : Option W32
  kval : Option W64
deriving DecidableEq, Repr

/-! ### Contexts, lineages and partitions (spec/10_context.md) -/

/-- R253. -/
inductive CtxState where
  | free | created | running | suspending | suspended | sealing | sealed | restoring | migratingOut | faulted | haltedDiverged
deriving DecidableEq, Repr

/-- A range entry (spec/15_page.md R342). -/
structure RangeEntry where
  base : Nat
  last : Nat
  out : Nat
  ctl : Nat
deriving DecidableEq, Repr

/-- The translation record (R341). -/
structure Translation where
  s1root : Nat
  s2root : Nat
  s1range : List (Nat × RangeEntry)
  s2range : List (Nat × RangeEntry)
  pullSrc : Nat
  pullCount : Nat
  fqBase : Nat
  fqLog : Nat
  mqBase : Nat
  mqLog : Nat
  thresh : Nat
deriving DecidableEq, Repr

/-- A context record (R253, R263, R299, R301, R306). `lostPages`: a fatal fault has made the pages that it still serves unservable (R277). -/
structure Context where
  state : CtxState
  partition : Nat
  pasid : Nat
  rcb : Nat
  lineage : Nat
  home : Nat
  measure : List Byte
  digests : List (List Byte)
  keepSealed : Bool
  xlat : Translation
  completions : List (Nat × Nat × Bool)
  credit : Int
  lostPages : Bool
deriving DecidableEq, Repr

/-- A place extent (R261). -/
structure Extent where
  px : Nat
  py : Nat
  w : Nat
  h : Nat
  valid : Bool
  mod : Nat
  tx : Nat
  ty : Nat
deriving DecidableEq, Repr

/-- A partition: its massifs on this module and its extents (R260, R261). -/
structure Partition where
  massifs : List Nat
  extents : List Extent
deriving DecidableEq, Repr

/-- R268. -/
inductive SlotState where
  | free | live | moving | forward
deriving DecidableEq, Repr

/-- A lineage counter slot (R268). `src` is the last sealing module, `cert` its certificate, `held` the requests that wait for a move. -/
structure Counter where
  state : SlotState
  lineage : Nat
  key : Nat
  counter : Nat
  policy : List Byte
  src : Nat
  cert : List Byte
  fwd : Nat × Nat
  held : List LineageReq
deriving DecidableEq, Repr

/-! ### Queues and interfaces (spec/11_queue.md) -/

/-- R282. -/
inductive QueueState where
  | free | active | waitingContent | faultParked | error
deriving DecidableEq, Repr

/-- A packet that has begun (R233, R350): `next` is its next access, `complete` says that only its DONE is due, `waiting` that
it is read but held back by its class, `data` what it has read and not yet written (R351), `held` that it waits at a place of a switched group or at a pull (R320, R344). `pusher` is the group and the rank of the tile that pushed it. -/
structure Packet where
  index : Nat
  bytes : List Byte
  cls : Nat
  pusher : Option (Nat × Nat)
  next : Nat
  parked : Bool
  complete : Bool
  failed : Bool
  waiting : Bool
  held : Bool
  data : List Byte
  deadline : Nat
deriving DecidableEq, Repr

/-- A queue record (R280-R285). `finished` are the complete indices at or above DONE, with their IRQ; `owners` the indices that tiles
claimed, with group and rank; `windowFrom` the first mismatching read of R285; `done` and `errCount`
go on as indices complete, and `pubs` are the advances in order, each with the status published with it and the signals that follow it (R232,
R288); `doneReg` and `errReg` are what DONE and STATUS show, which an advance reaches after every binding. `charged`: its slots count in QSLOTSUSED. When its context is destroyed `ctx` names none, and `regCtx` is
what its descriptor still holds; `life` numbers its creation (R293). -/
structure Queue where
  state : QueueState
  base : Nat
  logSize : Nat
  qflags : Nat
  ctx : Nat
  intf : Nat
  qsel : Nat
  wridx : Nat
  rdidx : Nat
  done : Nat
  errCount : Nat
  qres : Nat
  kickPend : Bool
  windowFrom : Option Nat
  revoked : Bool
  pushes : Nat
  packets : List Packet
  finished : List (Nat × Bool)
  owners : List (Nat × Nat × Nat)
  pubs : List (Nat × W64 × Nat)
  doneReg : Nat
  errReg : Nat
  charged : Bool
  regCtx : Nat
  life : Nat
deriving DecidableEq, Repr

/-- An Ibpaist interface (R289). State 0 UNBOUND, 1 BOUND, 2 REVOKING, 3 REVOKED. `bound` are the context, PASID and HVOWN read at
BIND. -/
structure Interface where
  state : Nat
  iflags : Nat
  ctx : Nat
  pasid : Nat
  ires : Nat
  bound : Nat × Nat × Bool
  irq : Vector W32 8
deriving DecidableEq, Repr

/-! ### Launches and groups (spec/12_kernel.md, spec/13_group.md) -/

/-- R298. -/
inductive LaunchState where
  | waitDep | check | waitPlace | loading | running | done | failed
deriving DecidableEq, Repr

/-- A task condition (R293). -/
structure Cond where
  kind : Nat
  object : Nat
  value : Nat
deriving DecidableEq, Repr

/-- A task-table entry (R293). -/
structure Task where
  entry : Nat
  notBefore : Option Nat
  conds : List Cond
deriving DecidableEq, Repr

/-- A kernel image that passed CHECK, patched (R291-R295, R300). -/
structure Kernel where
  hvpriv : Bool
  gangW : Nat
  gangH : Nat
  skew : Nat
  handler : Option Nat
  tasks : List Task
  code : List Byte
  data : List (Nat × List Byte)
  kmask : Nat
  consts : List W32
  bindings : List (Nat × Binding)
deriving DecidableEq, Repr

/-- A launch (R296, R298, R306). -/
structure Launch where
  state : LaunchState
  queue : Nat
  index : Nat
  ctx : Nat
  image : Nat
  args : Nat
  seed : W64
  kseq : Nat
  tiles : Nat
  minTiles : Nat
  gw : Nat
  preds : List Nat
  prio : Nat
  shrink : Bool
  kernel : Option Kernel
  group : Option Nat
  passes : Nat
  seq : Nat
deriving DecidableEq, Repr

/-- R304. -/
inductive GroupState where
  | loading | running | preempting | switched | resuming | ended | discarded
deriving DecidableEq, Repr

/-- A barrier object (spec/14_barrier.md R324). -/
structure Barrier where
  target : Nat
  count : Nat
  phase : W32
deriving DecidableEq, Repr, Inhabited

/-- An arrival that has left its tile's write queue and is not counted yet (R325): tile, barrier, its number among the tile's
operations, the cycle of its instruction, the first cycle in which it may count, and whether an MBAR made it. -/
structure Arrival where
  tile : Nat
  bar : Nat
  id : Nat
  issued : Nat
  ready : Nat
  mx : Bool
deriving DecidableEq, Repr

/-- A group (R304-R320). `saved` holds the tile images in RANK order while the group is switched out. -/
structure Group where
  state : GroupState
  launch : Nat
  ctx : Nat
  partition : Nat
  tiles : List Nat
  size : Nat
  gw : Nat
  kernel : Kernel
  lockstep : Bool
  s0 : Nat
  haltMax : Nat
  sliceEnd : Nat
  preemptAt : Option Nat
  passes : Nat
  seq : Nat
  prio : Nat
  barriers : Vector Barrier 32
  arrivals : List Arrival
  releases : List (Nat × Nat)
  saved : List Tile
deriving DecidableEq, Repr

/-! ### Gates (spec/14_barrier.md R328-R339) -/

/-- R331. -/
inductive GateState where
  | free | closed | opened | migrating | revoked | forward
deriving DecidableEq, Repr

/-- An access-list entry (R329). -/
structure AclEntry where
  module : Nat
  ctx : Nat
  post : Bool
  wait : Bool
  doff : Nat
deriving DecidableEq, Repr

/-- A post on its way to its gate or held there (R334, R337). -/
structure Post where
  id : Nat
  gate : Nat
  module : Nat
  ctx : Nat
  tile : Nat
  digest : List Byte
deriving DecidableEq, Repr

/-- A MOVE at work (R336): its new home, the cycle up to which the new home may answer, and the packet that it answers: module, queue
and index. -/
structure Mover where
  newHome : Nat
  deadline : Nat
  module : Nat
  queue : Nat
  index : Nat
deriving DecidableEq, Repr

/-- A gate record (R328). `away` are its shadows on other modules (module, massif, POST), `waiters` the waiting tiles of a shadow
(module, massif, count), `fwd` the gate id of a FORWARD record, `digests` the unmatched digests of the two replicas, `kept` those of a
mismatch, `old` the ids under which forwarding records lead here (R336). `noted` is there while a gate that has been installed here waits for
the waiter records of its old home: the shadows (module, massif) that have come here themselves (R335). -/
structure Gate where
  state : GateState
  prior : GateState
  seq : W64
  ownerModule : Nat
  ownerCtx : Nat
  acl : List AclEntry
  windows : List (Nat × Nat)
  tokens : Nat
  win : Nat
  digest : Bool
  away : List (Nat × Nat × Bool)
  old : List Nat
  noted : Option (List (Nat × Nat))
  waiters : List (Nat × Nat × Nat)
  fwd : Nat
  mover : Option Mover
  held : List Post
  digests : List (AclEntry × List (List Byte))
  kept : List (List Byte)
deriving DecidableEq, Repr

/-- A gate's shadow on a massif of this module (R332). `gate` is the 21-bit gate id and `old` the ids under which forwarding records
still serve it (R336); `rights` are those of this module's contexts, `post` says that some listed context with POST has the massif. -/
structure Shadow where
  gate : Nat
  old : List Nat
  massif : Nat
  state : GateState
  seq : W64
  rights : List (Nat × Bool × Bool)
  post : Bool
  tokens : Option Nat
  doffs : List (Nat × Nat)
  digest : Bool
deriving DecidableEq, Repr

/-! ### Links, network and power (spec/16_link.md, spec/17_faults_determinism_power.md) -/

/-- R362. -/
inductive LinkState where
  | down | training | active | degraded | retraining | failed
deriving DecidableEq, Repr

/-- An accepted SLOT_SET that waits for its frame boundary (R369), with its command's queue and index. -/
structure SlotChange where
  dir : Nat
  mask : Nat
  owner : Nat
  queue : Nat
  index : Nat
deriving DecidableEq, Repr

/-- A link (R362, R363, R366). `attempts` counts failed training attempts, `again` the consecutive retries of one flit; `slots0` and
`slots1` are the owned slots of each direction with their owners, `used0` and `used1` the slot last used and the flits it has carried,
`busy0` and `busy1` the first cycle after a replay (R364). -/
structure Link where
  state : LinkState
  width : Nat
  rate : Nat
  retries : Nat
  attempts : Nat
  again : Nat
  slots0 : List (Nat × Nat)
  slots1 : List (Nat × Nat)
  used0 : Nat × Nat
  used1 : Nat × Nat
  busy0 : Nat
  busy1 : Nat
  changes : List SlotChange
deriving DecidableEq, Repr

/-- One crossing of a route: link, direction, and the cycles from entering it to the next point (R368). -/
structure Hop where
  link : Nat
  dir : Nat
  after : Nat
deriving DecidableEq, Repr

/-- A remote operation in transit (R246, R368): `ready` is the cycle at which it reaches its next link, or its destination when no
hop is left; `last` is the crossing that it has entered last, with the cycle, `late` what replays have added to it, and `stalled` says that
the link retrains before it has carried the piece over (R364). Flits that a slot does not take go on as a
piece of their own: the pieces of operation `seq` have the numbers `piece`, in order, and `flits` flits each. `part` and `ctx` are the
source's partition and context when it left, `key` its physical position. -/
structure Transit where
  op : RemoteOp
  seq : Nat
  piece : Nat
  key : Nat
  part : Nat
  ctx : Nat
  ready : Nat
  hops : List Hop
  last : Option (Hop × Nat)
  flits : Nat
  late : Nat := 0
  stalled : Bool := false
deriving DecidableEq, Repr

/-- An operation of this module's tiles that is in another module: its number there, and whether it is held for timed delivery. -/
structure Away where
  seq : Nat
  op : RemoteOp
  held : Bool
deriving DecidableEq, Repr

/-- A write held at a massif's edge port (R379): a remote operation, that of a packet (queue, index), or that of another module's engine. -/
inductive EdgeItem where
  | remote (op : RemoteOp)
  | packet (queue index : Nat)
  | write (tile : Nat) (imem : Bool) (off : Nat) (bytes : List Byte)
deriving DecidableEq, Repr

/-- R379. -/
inductive PowerState where
  | full | reduced | retention | off
deriving DecidableEq, Repr

/-- PWR of a massif (R379). -/
structure Power where
  state : PowerState
  pending : Option (PowerState × Nat)
  lastErr : Nat
deriving DecidableEq, Repr

/-- MERR of a massif (R378). -/
structure Merr where
  spadce : Nat
  netce : Nat
  imce : Nat
  ue : Nat
  semLost : Nat
  retce : Nat
  retue : Nat
deriving DecidableEq, Repr

/-- CERR of a col (R378). -/
structure Cerr where
  hbmce : Nat
  hbmue : Nat
  lpce : Nat
  lpue : Nat
deriving DecidableEq, Repr

/-- An access counter entry of a col (spec/15_page.md R357); the newest use is first in the col's list. -/
structure AccessCounter where
  ctx : Nat
  region : Nat
  near : Nat
  far : Nat
deriving DecidableEq, Repr

/-- A page that a translation unit holds (R344): a pull that runs, or a migration. -/
structure Pulling where
  ctx : Nat
  gpa : Nat
  level : Nat
  entryAddr : Nat
  since : Nat
deriving DecidableEq, Repr

/-- A table entry that a translation unit holds (R346): context, stage, level, the first input address, the entry's address and the
value read. -/
structure Cached where
  ctx : Nat
  stage : Nat
  level : Nat
  input : Nat
  addr : Nat
  value : Nat
deriving DecidableEq, Repr

/-- A message to the outside: an MSI-X vector, or what goes to another module `m`: a request for a counter slot and its answer (R270), extents
to be checked (R401), a
command for a gate there and the status of one from there (R330), a gate's record or what is published of it (R332, R336). -/
inductive Message where
  | msix (vector : Nat)
  | toModule (m : Nat) (what : String) (a b : Nat)
  | pull (m lineage gpa size : Nat)
  | lineage (m : Nat) (req : LineageReq)
  | lineageAnswer (m code slot : Nat) (req : LineageReq)
  | extents (m part source : Nat) (bytes : List Byte)
  | command (m queue index : Nat) (bytes : List Byte)
  | status (m queue index code detail : Nat)
  | gate (m id : Nat) (what : String) (g : Gate)
  | remote (op : RemoteOp)
  | post (p : Post)
  | readData (bytes : List Byte)
  | poison
  | registerValue (value : Nat)
deriving DecidableEq, Repr

/-- The rights of a context at a gate, as they travel in a cairn (spec/10_context.md R277). -/
structure GateRight where
  gate : Nat
  ctx : Nat
  post : Bool
  wait : Bool
  doff : Nat
deriving DecidableEq, Repr

/-- What a cairn seals (spec/10_context.md R271-R273), under its key and the salt of its signature: the nodes of the RCB chain, the fault
ring, the gate rights, the table pages and the data pages, each with its address and its bytes. -/
structure Cairn where
  lineage : Nat
  counter : Nat
  source : Nat
  mode : Nat
  context : Context
  groups : List Group
  launches : List Launch
  queues : List (Nat × Queue)
  rcb : List (List Byte)
  ring : Nat × List Byte
  rights : List GateRight
  tables : List (Nat × List Byte)
  pages : List (Nat × List Byte)
  key : List Byte
  salt : Nat
deriving DecidableEq, Repr

/-- A gate command of another module at work here (R330, R401): where it came from, the record that it names, its next step, and the cycle up
to which the modules that it asks may answer. -/
structure Carried where
  module : Nat
  queue : Nat
  index : Nat
  record : Nat
  next : Nat
  deadline : Nat
  data : List Byte
deriving DecidableEq, Repr

/-- What the event that executes next acts on; each meaning says what it reads here. -/
structure Args where
  a : Nat
  b : Nat
  c : Nat
  d : Nat
  flag : Bool
  bytes : List Byte
  peer : Peer
  req : LineageReq
  boot : BootResult
  op : Option RemoteOp
  post : Option Post
  gate : Option Gate
  cairn : Option Cairn
  parts : List (Nat × Nat × Nat)
deriving DecidableEq, Repr

/-- The module's global registers (R373, R381, R384); `measured` is the digest of the firmware measurements that bring-up recorded. -/
structure Globals where
  modIdx : Nat
  present : List Nat
  missync : Bool
  clkfree : Bool
  hwBase : Nat
  hdmBase : Nat
  step : Nat
  stagger : Bool
  win : Nat
  boot : Nat
  bootDetail : Nat
  measured : List Byte
  mapped : List (Nat × Nat)
deriving DecidableEq, Repr

/-- What is still to be done in the current cycle: the links carry what waits at them; a tile lands results, writes its load/store
port, issues, serves its other ports. -/
inductive Phase where
  | links | land | store | issue | post
deriving DecidableEq, Repr

/-- The state of the module. `cur` names the tile in `tile`; `tiles` holds every other tile that differs from a reset one, and
tile (x, y) of the module grid has number 384 y + x. `todo` lists what is left of the current cycle. `timers` holds the events
whose cycle the spec fixes, `script` those whose cycle it leaves open (log 4). `msix` holds the MSI-X table with its mask bits inverted,
`pba` the pending bits (R372). `released` lists lineages whose forwarding slot here has been freed (R276), `sealing` what a SEAL at work seals,
`carried` the gate commands of other modules that wait for answers (R401). -/
structure State where
  cur : Nat
  tile : Tile
  tiles : List (Nat × Tile)
  cycle : Nat
  todo : List (Nat × Phase)
  timers : List (Nat × Instr × Args)
  script : List (Nat × Instr × Args)
  args : Args
  freeCtr : Nat
  lastTrap : Option TrapInfo
  sent : List Message
  dev : Memory
  devEcc : List (Nat × Bool)
  host : Memory
  globals : Globals
  contexts : List (Nat × Context)
  partitions : List (Nat × Partition)
  counters : List (Nat × Counter)
  released : List Nat
  queues : List (Nat × Queue)
  interfaces : List (Nat × Interface)
  launches : List (Nat × Launch)
  groups : List (Nat × Group)
  nextNum : Nat
  gates : List (Nat × Gate)
  shadows : List Shadow
  posts : List Post
  links : List (Nat × Link)
  transit : List Transit
  away : List Away
  power : List (Nat × Power)
  merr : List (Nat × Merr)
  cerr : List (Nat × Cerr)
  access : List (Nat × List AccessCounter)
  pulling : List Pulling
  tlb : List Cached
  msix : Memory
  pba : Nat
  parkedAtEdge : List (Nat × EdgeItem)
  cairns : List Cairn
  sealing : List (Nat × Cairn)
  carried : List Carried
deriving DecidableEq, Repr

/-! ### Reset -/

/-- Memory with nothing listed, reading zero. -/
def Memory.empty : Memory := { epoch := none, cells := [] }

def Regs.zero : Regs :=
  { s := Vector.replicate 64 0, h := Vector.replicate 8 0, a := Vector.replicate 16 0, table := Vector.replicate 96 0,
    v := Vector.replicate 32 0, p := Vector.replicate 8 0, q := Vector.replicate 8 0, k := Vector.replicate 32 0, rrb := 0 }

def Latches.zero : Latches := { b := Vector.replicate 3 0, vb := Vector.replicate 4 0, lost := [] }

/-- VFMT resets to FP32 in its three formats (R37). -/
def Csrs.zero : Csrs :=
  { vfmt := 0x4210, tstat := 0, ten := 0, seed := 0, clamp := 0, tcause := 0, epc := 0 }

def Control.zero : Control :=
  { pc := 0, source := 0, lastPc := 0, levels := [], transfer := none, nextIssue := 0, handler := false, nopre := false, preempt := none,
    held := 0, waits := [], waited := none, skip := none, haltPoint := false, entry := none, landing := none, dropped := false, leaving := false,
    scatterUntil := 0 }

def Mx.zero : Mx :=
  { acc0 := 0, acc1 := 0, blk := 0, aLatch := 0, bLatch := 0, mode := 0, aFmt := 0, bFmt := 0, dFmt := 0, ca := 0, cb := 0,
    cd := 0, pending := [], frozen := [], owned := false, saved := [], restored := [] }

def Ports.zero : Ports :=
  { stores := [], amos := [], reads := [], sincs := [], writes := [], requests := [], fences := [], remotes := [], copies := [], posts := [],
    timed := [], inbound := [], port := (0, []), lphase := Vector.replicate 32 0, pending := Vector.replicate 32 none,
    bindings := [] }

def Place.zero : Place :=
  { status := .idle, group := none, rank := 0, gx := 0, gy := 0, gw := 1, gh := 1, glast := 1, dx := 0, dy := 0, gangW := 1,
    gangH := 1, lead := 0, delta := 0, members := [], partition := 0, ctx := 0, kseq := 0, hvpriv := false, entryPoint := none,
    task := 0, taskFrom := 0, s0 := 0, feed := [], index := 0, gated := false, stop := none }

/-- A tile after module reset: group-start values (R54) for everything that the spec gives no reset value (log 1). -/
def Tile.reset : Tile :=
  { regs := .zero, lat := .zero, csr := .zero, ctl := .zero, mx := .zero, io := .zero, place := .zero, flights := [], nextId := 0,
    sems := Vector.replicate 256 ⟨0, 0⟩, frame := none, halt := none, spad := .empty, imem := .empty, stale := [], loopBuf := [],
    bufFor := none, ecc := [], iecc := [], slot := 0, lit := none, kval := none }

/-- The reset values of R362, R373, R379-R384; a full-grade module alone in its domain (log 2). -/
def Globals.reset : Globals :=
  { modIdx := 0, present := [0], missync := false, clkfree := false, hwBase := 0, hdmBase := 0, step := 0x40, stagger := true,
    win := 0x400, boot := 0, bootDetail := 0, measured := [], mapped := [] }

/-- No arguments. -/
def Args.none : Args :=
  { a := 0, b := 0, c := 0, d := 0, flag := false, bytes := [], peer := ⟨0, 0⟩, req := ⟨0, 0, 0, 0, false, [], 0, [], ⟨0, []⟩, [], .none, .none⟩, boot := .ready, op := .none, post := .none, gate := .none,
    cairn := .none, parts := [] }

/-- The module right after reset. -/
def State.reset : State :=
  { cur := 0, tile := .reset, tiles := [], cycle := 0, todo := [], timers := [], script := [], args := .none, freeCtr := 0, lastTrap := none,
    sent := [], dev := { epoch := some 0, cells := [] }, devEcc := [], host := .empty, globals := .reset, contexts := [], partitions := [], counters := [], released := [],
    queues := [], interfaces := [], launches := [], groups := [], nextNum := 1, gates := [], shadows := [], posts := [],
    links := [], transit := [], away := [], power := [], merr := [], cerr := [], access := [], pulling := [], tlb := [], msix := .empty, pba := 0, parkedAtEdge := [],
    cairns := [], sealing := [], carried := [] }

/-! ### How a step can stop -/

/-- Faults of a step. -/
inductive Fault where
  /-- An event names an object that the spec says the module does not have (a tile, massif, link, queue, interface or context
  number out of its range): raised by the meanings of the module's events. Safe: the run stops. -/
  | noSuchObject (number : Nat)
deriving DecidableEq, Repr

/-- Refusals of a step. -/
inductive Refusal where
  /-- An instruction with no meaning yet, by its mnemonic: raised by `exec` alone. Safe: the run stops. -/
  | notModelled (mnemonic : String)
deriving DecidableEq, Repr

end Sys2Proof.Machine
end

