-- ==== Sys2Proof/Machine/Ops.lean ====
section
/-! DEFINITION. The named operations over memory, registers and latches, results in flight, and taking and leaving a trap
(spec/02_tile.md R26-R53, spec/05_scalar_control.md R141-R148). -/

namespace Sys2Proof.Machine

/-- What executing an instruction gives. -/
abbrev Out := Host.Outcome State Fault Refusal

/-! ### Lists and vectors -/

/-- Entry `n` of a register file; a number out of range reads the default. -/
def rd {α : Type} {n : Nat} [Inhabited α] (v : Vector α n) (i : Nat) : α := v[i]?.getD default
/-- A register file with entry `i` replaced; a number out of range changes nothing. -/
def wr {α : Type} {n : Nat} (v : Vector α n) (i : Nat) (x : α) : Vector α n := v.setIfInBounds i x

/-- The entry of an association list. -/
def find {α : Type} (l : List (Nat × α)) (k : Nat) : Option α :=
  match l with
  | [] => none
  | (a, x) :: r => if a = k then some x else find r k

/-- An association list without a key. -/
def erase {α : Type} (l : List (Nat × α)) (k : Nat) : List (Nat × α) := l.filter (fun e => e.1 != k)

/-- An association list with a key set, in rising order of keys. -/
def put {α : Type} (l : List (Nat × α)) (k : Nat) (x : α) : List (Nat × α) :=
  match l with
  | [] => [(k, x)]
  | (a, y) :: r => if a < k then (a, y) :: put r k x else if a = k then (k, x) :: r else (k, x) :: (a, y) :: r

/-- Insertion sort by a key, stable. -/
def insertBy {α : Type} (f : α → Nat) (x : α) : List α → List α
  | [] => [x]
  | y :: r => if f x ≤ f y then x :: y :: r else y :: insertBy f x r
def sortBy {α : Type} (f : α → Nat) (l : List α) : List α := l.foldr (fun x r => insertBy f x r) []

/-! ### Byte memories -/

/-- What an unlisted address of a memory reads as. -/
def Memory.dflt (m : Memory) (a : Nat) : Byte :=
  match m.epoch with
  | none => 0
  | some e => Config.freeByte e a

/-- One byte. -/
def Memory.read (m : Memory) (a : Nat) : Byte := (find m.cells a).getD (m.dflt a)

/-- A cell list with the byte of one address replaced, canonical. -/
def cellWrite (d : Byte) (l : List Host.Cell) (a : Nat) (b : Byte) : List Host.Cell :=
  match l with
  | [] => if b = d then [] else [(a, b)]
  | (k, c) :: r =>
    if k < a then (k, c) :: cellWrite d r a b
    else if k = a then (if b = d then r else (a, b) :: r)
    else (if b = d then (k, c) :: r else (a, b) :: (k, c) :: r)

/-- Write one byte. -/
def Memory.write (m : Memory) (a : Nat) (b : Byte) : Memory := { m with cells := cellWrite (m.dflt a) m.cells a b }

/-- Write bytes at their addresses, in order. -/
def Memory.writeCells (m : Memory) (cs : List Host.Cell) : Memory := cs.foldl (fun m c => m.write c.1 c.2) m

/-- The bytes from `a` on. -/
def Memory.bytes (m : Memory) (a : Nat) : Nat → List Byte
  | 0 => []
  | n + 1 => m.read a :: m.bytes (a + 1) n

/-- Cells for consecutive bytes. -/
def cellsAt (a : Nat) : List Byte → List Host.Cell
  | [] => []
  | b :: r => (a, b) :: cellsAt (a + 1) r

/-- The little-endian value of bytes (R3). -/
def leNat : List Byte → Nat
  | [] => 0
  | b :: r => b.toNat + 256 * leNat r

/-- The `n` low bytes of a value, little-endian. -/
def natBytes (w : Nat) : Nat → List Byte
  | 0 => []
  | n + 1 => BitVec.ofNat 8 w :: natBytes (w / 256) n

/-- A little-endian value of `n` bytes. -/
def Memory.nat (m : Memory) (a n : Nat) : Nat := leNat (m.bytes a n)

/-- Write a little-endian value of `n` bytes. -/
def Memory.writeNat (m : Memory) (a n w : Nat) : Memory := m.writeCells (cellsAt a (natBytes w n))

/-- The cells of a list are strictly rising and none equals what its address reads as when unlisted. -/
def cellsWf (d : Nat → Byte) : List Host.Cell → Bool
  | [] => true
  | (a, b) :: r => (b != d a) && (match r with
    | [] => true
    | (k, _) :: _ => decide (a < k)) && cellsWf d r

/-- The canonical form. -/
def Memory.wf (m : Memory) : Bool := cellsWf m.dflt m.cells

/-- The field [lo, lo + n) of a number. -/
def bitsOf (w lo n : Nat) : Nat := w / 2 ^ lo % 2 ^ n

/-- The field of a byte list that starts at byte `at`, `n` bytes wide, little-endian. -/
def fieldOf (bs : List Byte) (at_ n : Nat) : Nat := leNat ((bs.drop at_).take n)

/-- A signed reading of an `n`-bit number. -/
def signedOf (w n : Nat) : Int := if w < 2 ^ (n - 1) then w else (w : Int) - (2 ^ n : Nat)

/-! ### Places of the module (spec/01_stoub_module.md R11-R16) -/

/-- The massif index of a tile. -/
def massifOf (tile : Nat) : Nat := (tile / 384 / 55) * 8 + tile % 384 / 48
/-- The logical column and row inside the massif. -/
def txOf (tile : Nat) : Nat := tile % 384 % 48
def tyOf (tile : Nat) : Nat := tile / 384 % 55

/-- The mapped-out rows of a massif: the entries of the repair record, in ascending order (R14). -/
def Globals.rowsOut (g : Globals) (m : Nat) : List Nat := (g.mapped.filter (fun e => e.1 == m)).map (·.2)

/-- Whether a tile number names a tile (R16). -/
def State.tileExists (s : State) (t : Nat) : Bool :=
  decide (t / 384 < 660) && (decide (tyOf t < 54) || decide ((s.globals.rowsOut (massifOf t)).length < 2))

/-- The physical row of a logical row (R14). -/
def State.physRow (s : State) (t : Nat) : Nat :=
  (s.globals.rowsOut (massifOf t)).foldl (fun p m => if m ≤ p then p + 1 else p) (tyOf t)

/-! ### The tile in focus -/

def State.onTile (s : State) (f : Tile → Tile) : State := { s with tile := f s.tile }
def State.getTile (s : State) (t : Nat) : Tile := if t = s.cur then s.tile else (find s.tiles t).getD .reset
def State.setTile (s : State) (t : Nat) (x : Tile) : State :=
  if t = s.cur then { s with tile := x } else { s with tiles := put s.tiles t x }
/-- Bring a tile into focus. -/
def State.focus (s : State) (t : Nat) : State :=
  if t = s.cur then s
  else { s with cur := t, tile := s.getTile t, tiles := put (erase s.tiles t) s.cur s.tile }
def Tile.onCtl (t : Tile) (f : Control → Control) : Tile := { t with ctl := f t.ctl }
def Tile.onRegs (t : Tile) (f : Regs → Regs) : Tile := { t with regs := f t.regs }
def Tile.onMx (t : Tile) (f : Mx → Mx) : Tile := { t with mx := f t.mx }
def Tile.onIo (t : Tile) (f : Ports → Ports) : Tile := { t with io := f t.io }
def Tile.onPlace (t : Tile) (f : Place → Place) : Tile := { t with place := f t.place }
def Tile.onCsr (t : Tile) (f : Csrs → Csrs) : Tile := { t with csr := f t.csr }
def State.ctl (s : State) : Control := s.tile.ctl
def State.onCtl (s : State) (f : Control → Control) : State := s.onTile (·.onCtl f)
def State.onMx (s : State) (f : Mx → Mx) : State := s.onTile (·.onMx f)
def State.onIo (s : State) (f : Ports → Ports) : State := s.onTile (·.onIo f)
def State.onPlace (s : State) (f : Place → Place) : State := s.onTile (·.onPlace f)

/-- Global cycles of one tile cycle of a massif: two in REDUCED (R379). -/
def State.unitAt (s : State) (m : Nat) : Nat :=
  match (find s.power m).map (·.state) with
  | some PowerState.reduced => 2
  | _ => 1
def State.unit (s : State) : Nat := s.unitAt (massifOf s.cur)
/-- The cycle `n` tile cycles from now. -/
def State.after (s : State) (n : Nat) : Nat := s.cycle + n * s.unit

/-- Enter an event whose cycle the spec fixes. -/
def State.at_ (s : State) (c : Nat) (i : Instr) (x : Args) : State := { s with timers := s.timers ++ [(c, i, x)] }

/-- The error counters of a massif (R378), saturating. -/
def satInc (n k : Nat) : Nat := min (n + k) 0xFFFFFFFF
def Merr.zero : Merr := ⟨0, 0, 0, 0, 0, 0, 0⟩
def State.onMerr (s : State) (m : Nat) (f : Merr → Merr) : State :=
  { s with merr := put s.merr m (f ((find s.merr m).getD .zero)) }

/-! ### Registers and latches -/

/-- Scalar register n of the selected bank; s0 is zero (R27). -/
def Tile.sreg (t : Tile) (n : Nat) : W64 :=
  if n = 0 then 0 else if t.ctl.handler && decide (56 ≤ n) then rd t.regs.h (n - 56) else rd t.regs.s n

/-- The physical number of a vector register name (R31). -/
def Tile.phys (t : Tile) (n : Nat) : Nat := if n < 16 then n else 16 + (n - 16 + t.regs.rrb.toNat) % 16
def Tile.vreg (t : Tile) (n : Nat) : VReg := rd t.regs.v (t.phys n)
/-- A predicate register; p0 reads all ones (R32). -/
def Tile.preg (t : Tile) (n : Nat) : PReg := if n = 0 then BitVec.allOnes 256 else rd t.regs.p n

def Latch.index : Latch → Nat
  | .b0 => 0
  | .b1 => 1
  | .b2 => 2
  | .vb0 => 0
  | .vb1 => 1
  | .vb2 => 2
  | .vb3 => 3

def Latch.ofB (n : Nat) : Latch := if n = 0 then .b0 else if n = 1 then .b1 else .b2
def Latch.ofVb (n : Nat) : Latch := if n = 0 then .vb0 else if n = 1 then .vb1 else if n = 2 then .vb2 else .vb3

/-- A scalar latch; zero while it is lost (R35, R321). -/
def Tile.bLat (t : Tile) (n : Nat) : W64 := if t.lat.lost.contains (.ofB n) then 0 else rd t.lat.b n
def Tile.vbLat (t : Tile) (n : Nat) : VReg := if t.lat.lost.contains (.ofVb n) then 0 else rd t.lat.vb n

def Latches.setB (l : Latches) (k : Latch) (w : W64) : Latches :=
  { l with b := wr l.b k.index w, lost := l.lost.filter (· != k) }
def Latches.setVb (l : Latches) (k : Latch) (w : VReg) : Latches :=
  { l with vb := wr l.vb k.index w, lost := l.lost.filter (· != k) }

/-- Set sticky flags now. -/
def Tile.flag (t : Tile) (f : Flags) : Tile := t.onCsr (fun c => { c with tstat := c.tstat ||| f.setWidth 32 })

/-- A write of a named scalar register of one bank; s0 is discarded (R27). -/
def Regs.setS (r : Regs) (n : Nat) (handler : Bool) (w : W64) : Regs :=
  if n = 0 then r
  else if handler && decide (56 ≤ n) then { r with h := wr r.h (n - 56) w }
  else { r with s := wr r.s n w }

/-! ### Results in flight -/

/-- A byte-lane mask as a mask of 2,048 bits. -/
def spread (m : PReg) : Nat → VReg
  | 0 => 0
  | n + 1 => (if m.getLsbD n then (0xFF#2048) <<< (8 * n) else 0) ||| spread m n
/-- A full mask needs no spreading. -/
def laneMask (m : PReg) : VReg := if m = BitVec.allOnes 256 then BitVec.allOnes 2048 else spread m 256

/-- Byte-enabled writing (R152). -/
def merge (m : PReg) (val old : VReg) : VReg :=
  let k := laneMask m
  (val &&& k) ||| (old &&& ~~~k)

/-- Whether a result is one of R143's results in flight, and how many of them it is. -/
def Flight.weight (f : Flight) : Nat :=
  match f.dest, f.payload with
  | .acc _, .laneAdd product _ _ _ _ => if product then 2 else 1
  | .s _ _, _ => 1
  | .a _, _ => 1
  | .v _, _ => 1
  | .q _, _ => 1
  | .p _, _ => 1
  | .bank, _ => 1
  | .nowhere, _ => 1
  | _, _ => 0

/-- What a trap or a halt takes out of flight: the results, and the plane clear of a VLQCLR, which nothing may overtake (R144). -/
def Flight.kept (f : Flight) : Bool :=
  f.weight != 0 || (match f.dest with
    | .acc _ => true
    | _ => false)

def Tile.inFlight (t : Tile) : Nat := (t.flights.map Flight.weight).sum

/-- Issue a result of the current syllable: it lands `l` tile cycles from now. -/
def State.issue (s : State) (l : Nat) (d : Dest) (p : Payload) (fl : Flags) (nwb : Bool) (k : Option Latch) : State :=
  s.onTile fun t =>
    { t with
      flights := t.flights ++ [{ due := s.after l, issued := s.cycle, id := t.nextId, syl := t.slot, dest := d, payload := p,
                                 flags := fl, nwb := nwb, latch := k }]
      nextId := t.nextId + 1 }

/-- A result that goes through a quire: the value it leaves, and its overflow flag. -/
def quireLand (old : QReg) : Payload → QReg × Flags
  | .quire w => (w, 0)
  | .quireAdd v =>
    let r := qadd 1024 (quireInt 1024 old.toNat) v
    (BitVec.ofNat 1024 (quireWord 1024 r.1), r.2)
  | _ => (old, 0)

/-- The register file after one landing, from the file `r0` as it stood before this cycle's landings (R51): a quire takes the
results in turn (R190). NWB suppresses the write alone: a quire's overflow still sets its flag (R39, R84). -/
def landReg (r0 r : Regs) (f : Flight) : Regs × Flags :=
  if f.nwb then
    match f.dest, f.payload with
    | .q n, p => (r, (quireLand (rd r.q n) p).2)
    | _, _ => (r, 0)
  else
    match f.dest, f.payload with
    | .s n h, .word w => (r.setS n h w, 0)
    | .a n, .word w => ({ r with a := wr r.a n (w.setWidth 32) }, 0)
    | .delta n, .word w => ({ r with a := wr r.a n (w.setWidth 32) }, 0)
    | .v n, .lanes m x => ({ r with v := wr r.v n (merge m x (rd r0.v n)) }, 0)
    | .p n, .bits m x => if n = 0 then (r, 0) else ({ r with p := wr r.p n ((x &&& m) ||| (rd r0.p n &&& ~~~m)) }, 0)
    | .q n, p =>
      let (w, fl) := quireLand (rd r.q n) p
      ({ r with q := wr r.q n w }, fl)
    | .bank, .consts w => ({ r with k := Vector.ofFn (fun i : Fin 32 => w.extractLsb' (32 * i.val) 32) }, 0)
    | .sbk n, .word w => ({ r with s := wr r.s (56 + n) w }, 0)
    | .table a lev, .word w => ({ r with table := wr r.table (6 * a + lev) (w.setWidth 32) }, 0)
    | .rrb, .word w => ({ r with rrb := w.setWidth 4 }, 0)
    | _, _ => (r, 0)

/-- The control registers after one landing, from those before the cycle's landings (R51, R123, R184): a write of VFMT replaces its
fields alone, TSTAT's clear comes before the flags of the cycle. -/
def landCsr (c0 c : Csrs) (f : Flight) : Csrs :=
  match f.dest, f.payload with
  | .vfmt m, .word w => { c with vfmt := ((w.setWidth 32 &&& m) ||| (c.vfmt &&& ~~~m)) &&& 0x01FF7FFF }
  | .seed, .word w => { c with seed := w }
  | .ten, .word w => { c with ten := w.setWidth 32 &&& 0xFF }
  | .tstat, .word w => { c with tstat := c0.tstat &&& ~~~(w.setWidth 32) }
  | _, _ => c

/-- The bytes that a result's latch receives, from the registers after its landing: those the destination would hold (R35, R181, log 82). -/
def latchValue (r0 r : Regs) (c : Csrs) (f : Flight) : VReg :=
  match f.dest, f.payload with
  | .vfmt _, _ => c.vfmt.setWidth 2048
  | .ten, _ => c.ten.setWidth 2048
  | .tstat, _ => c.tstat.setWidth 2048
  | .v n, .lanes m x => merge m x (rd r0.v n)
  | .p n, .bits m x =>
    let old := if n = 0 then BitVec.allOnes 256 else rd r0.p n
    ((x &&& m) ||| (old &&& ~~~m)).setWidth 2048
  | .q n, p => if f.nwb then (quireLand (rd r.q n) p).1.setWidth 2048 else (rd r.q n).setWidth 2048
  | _, .word w => w.setWidth 2048
  | _, _ => 0

def landLatch (l : Latches) (k : Latch) (w : VReg) : Latches :=
  match k with
  | .b0 => l.setB k (w.setWidth 64)
  | .b1 => l.setB k (w.setWidth 64)
  | .b2 => l.setB k (w.setWidth 64)
  | .vb0 => l.setVb k w
  | .vb1 => l.setVb k w
  | .vb2 => l.setVb k w
  | .vb3 => l.setVb k w

/-- Two results in one register in one cycle (R51, R29, R190). A VSETF replaces fields of a CSRW's value, as R184 has it, and is no such
pair (log 83). -/
def sameReg (f g : Flight) : Bool :=
  if f.nwb || g.nwb then false
  else
    match f.dest, g.dest with
    | .s n h, .s m k => n == m && (n < 56 || h == k)
    | .a n, .a m => n == m
    | .a n, .delta m => n == m
    | .delta n, .a m => n == m
    | .v n, .v m => n == m
    | .p n, .p m => n == m
    | .q n, .q m => n == m && (match f.payload, g.payload with
      | .quireAdd _, .quireAdd _ => false
      | _, _ => true)
    | .sbk n, .sbk m => n == m
    | .table a l, .table b m => a == b && l == m
    | .vfmt m, .vfmt k => m == 0xFFFFFFFF && k == 0xFFFFFFFF
    | .seed, .seed => true
    | .ten, .ten => true
    | .tstat, .tstat => true
    | _, _ => false

/-- Whether two of a list meet in one register. -/
def collide : List Flight → Bool
  | [] => false
  | f :: r => r.any (sameReg f) || collide r

/-- R51's order, from the lowest priority to the highest: by syllable, then by issue; a loop-back delta first (R29). -/
def byPriority (l : List Flight) : List Flight :=
  sortBy (fun f => match f.dest with
    | .delta _ => 0
    | _ => 1 + f.syl) (sortBy (·.issued) l)

/-! ### Links in use (spec/16_link.md R361-R365) -/

def Link.zero : Link :=
  { state := .down, width := 0, rate := 0, retries := 0, attempts := 0, again := 0, slots0 := [], slots1 := [], used0 := (0, 0), used1 := (0, 0),
    busy0 := 0, busy1 := 0, changes := [] }
def State.link_ (s : State) (l : Nat) : Link := (find s.links l).getD .zero
def Link.up (l : Link) : Bool := l.state == .active || l.state == .degraded
/-- A link that carries nothing (R365), and one that carries nothing yet (R363). -/
def Link.shut (l : Link) : Bool := l.state == .down || l.state == .failed
def Link.dead (l : Link) : Bool := l.shut || l.state == .training
/-- The CXL port's link (R361), and whether it carries accesses (R365). -/
def cxlPort : Nat := 420
def State.hostPort (s : State) : Bool := !(s.link_ cxlPort).dead

inductive Side where
  | east | west | north | south
deriving DecidableEq, Repr

/-- The numbers of the sides in the link index (R361). -/
def Side.number : Side → Nat
  | .north => 0
  | .east => 1
  | .south => 2
  | .west => 3

/-- Port `p` of a side (R361). -/
def ridgeLink (d : Side) (p : Nat) : Nat := 356 + 16 * d.number + p

/-- The side of the module towards another module: x before y (R24, R368). -/
def sideTo (here there : Nat) : Side :=
  if here % 24 < there % 24 then .east else if there % 24 < here % 24 then .west
  else if here / 24 < there / 24 then .north else .south

/-- The ridge link that leads from a massif (96: from the copy engines) towards another module. -/
def State.ridgeTo (s : State) (massif there : Nat) : Nat :=
  ridgeLink (sideTo s.globals.modIdx there) (Config.ridgePort massif there % 16)

/-! ### Device physical addresses (R20, R21) -/

/-- The first device physical address of the host memory window (R20). -/
def hostWindow : Nat := 0x180000000000

/-- What a device physical address names. -/
inductive Dpa where
  | hbm (col addr : Nat)
  | lpddr (col addr : Nat)
  | host (offset : Nat)
  | peer (module addr : Nat)
  | bad
deriving DecidableEq, Repr

/-- Edge cols in ascending col index (R18, R20). -/
def edgeCols : List Nat := [0, 1, 2, 3, 4, 5, 6, 8, 23, 24, 39, 40, 55, 56, 71, 72, 87, 89, 90, 91, 92, 93, 94, 95]

/-- The module's own map. -/
def ownDpa (a : Nat) : Dpa :=
  if a < 0x60000000000 then .hbm (a / 2 ^ 36) a
  else if a < 0x80000000000 then .bad
  else if a < 0x140000000000 then .lpddr (edgeCols.getD ((a - 0x80000000000) / 2 ^ 39) 0) a
  else if a < hostWindow then .bad
  else if a < 0x200000000000 then .host (a - hostWindow)
  else .bad

/-- R20 and R21. The memory of other modules, as this module's accesses leave it, is kept under its full address. -/
def State.dpa (s : State) (a : Nat) : Dpa :=
  if 2 ^ 56 ≤ a then .bad
  else if a < 2 ^ 55 then ownDpa a
  else
    let m := bitsOf a 45 10
    let o := a % 2 ^ 45
    if 432 ≤ m ∨ !s.globals.present.contains m then .bad
    else
      match ownDpa o with
      | .host _ => .bad
      | .bad => .bad
      | d => if m = s.globals.modIdx then d else .peer m a

/-! ### Errors of device memory (spec/17_faults_determinism_power.md R377, R378) -/

def Cerr.zero : Cerr := ⟨0, 0, 0, 0⟩
def State.onCerr (s : State) (col : Nat) (f : Cerr → Cerr) : State :=
  { s with cerr := put s.cerr col (f ((find s.cerr col).getD .zero)) }

/-- The col of own memory, and whether it is LPDDR-6. -/
def Dpa.col : Dpa → Option (Nat × Bool)
  | .hbm c _ => some (c, false)
  | .lpddr c _ => some (c, true)
  | _ => none

/-- The address in this module's own memory, when it is one, by whichever form names it (R21). -/
def Dpa.own : Dpa → Option Nat
  | .hbm _ x => some x
  | .lpddr _ x => some x
  | _ => none

/-- An ECC event in the granule of an own address: 0 none, 1 corrected, 2 uncorrectable. -/
def State.devEccAt (s : State) (a : Nat) : State × Nat :=
  match (s.dpa a).own.bind fun x => find s.devEcc (x / 64), (s.dpa a).col with
  | some bad, some (c, lp) =>
    (s.onCerr c fun e =>
      if lp then (if bad then { e with lpue := satInc e.lpue 1 } else { e with lpce := satInc e.lpce 1 })
      else (if bad then { e with hbmue := satInc e.hbmue 1 } else { e with hbmce := satInc e.hbmce 1 }), if bad then 2 else 1)
  | _, _ => (s, 0)

/-- The errors met in a granule that hardware reads for itself are counted. -/
def State.devErr (s : State) (a : Nat) : State := if s.devEcc.isEmpty then s else (s.devEccAt a).1

/-- A little-endian number of own device memory within one granule. No read delivers uncorrected data (R377): what a lost granule gives to
hardware that reads it for itself is a free value (log 16). -/
def State.devNat (s : State) (a n : Nat) : Nat :=
  if find s.devEcc (a / 64) = some true then Config.lostData a s.cycle % 2 ^ (8 * n) else s.dev.nat a n

/-! ### Fault records (spec/15_page.md R348, R349) -/

/-- The fields of a fault record that its reason sets. -/
structure Record where
  reason : Nat
  flags : Nat
  level : Nat
  alias_ : Nat
  ctx : Nat
  queue : Nat
  index : Nat
  gva : Nat
  gpa : Nat
  detail : Nat
deriving DecidableEq, Repr

/-- A record with no packet. -/
def Record.plain (reason ctx detail : Nat) : Record :=
  { reason := reason, flags := 0, level := 0, alias_ := 0, ctx := ctx, queue := 0xFFFFFFFF, index := 0, gva := 0, gpa := 0,
    detail := detail }

/-- Bytes 0-62 of a fault record. -/
def Record.bytes (r : Record) (cycle : Nat) : List Byte :=
  natBytes r.reason 1 ++ natBytes r.flags 1 ++ natBytes r.level 1 ++ natBytes r.alias_ 1 ++ natBytes r.ctx 2 ++ natBytes 0 2 ++
    natBytes r.queue 4 ++ natBytes 0 4 ++ natBytes r.index 8 ++ natBytes r.gva 8 ++ natBytes r.gpa 8 ++ natBytes r.detail 8 ++
    natBytes cycle 8 ++ natBytes 0 7

/-- Append 63 bytes to the ring at `base` of a memory whose header has been read as write index, read index and losses (R348). A full ring
counts a loss. -/
def ringAppend (m : Memory) (base log : Nat) (header : Nat × Nat × Nat) (bs : List Byte) : Memory :=
  let (i, r, lost) := header
  if i - r < 2 ^ log then
    let a := base + 64 + 64 * (i % 2 ^ log)
    ((m.writeCells (cellsAt a bs)).writeNat (a + 63) 1 (i / 2 ^ log)).writeNat base 8 (i + 1)
  else m.writeNat (base + 16) 8 (min (lost + 1) (2 ^ 64 - 1))

/-- An address of the own map, also when it names this module as a module of the domain (R21). -/
def State.ownBase (s : State) (a : Nat) : Nat := if 2 ^ 55 ≤ a ∧ bitsOf a 45 10 = s.globals.modIdx then a % 2 ^ 45 else a

/-- Append to a ring in device memory or in the host memory window; one behind a port that carries nothing takes nothing (R365, log 108); no
ring, nothing. -/
def State.ring (s : State) (base log : Nat) (bs : List Byte) : State :=
  let a := s.ownBase base
  if base = 0 then s
  else if hostWindow ≤ a ∧ a < 2 ^ 45 then
    let h := s.globals.hwBase + a - hostWindow
    (if s.hostPort then { s with host := ringAppend s.host h log (s.host.nat h 8, s.host.nat (h + 8) 8, s.host.nat (h + 16) 8) bs } else s)
  else if 2 ^ 55 ≤ a ∧ (s.link_ (s.ridgeTo 96 (bitsOf a 45 10))).dead = true then s
  else
    let s := s.devErr a
    { s with dev := ringAppend s.dev a log (s.devNat a 8, s.devNat (a + 8) 8, s.devNat (a + 16) 8) bs }

/-- Post a fault record to its context's fault ring. -/
def State.post (s : State) (r : Record) : State :=
  match find s.contexts r.ctx with
  | none => s
  | some c => s.ring c.xlat.fqBase c.xlat.fqLog (r.bytes s.cycle)

/-! ### Traps -/

/-- The causes of R149. -/
def causeIllegalOp : Nat := 0x01
def causeIllegalOperand : Nat := 0x02
def causeIllegalBundle : Nat := 0x03
def causeMisalignedTarget : Nat := 0x04
def causeSpadRange : Nat := 0x05
def causeMisalignedAccess : Nat := 0x06
def causeLoopDepth : Nat := 0x07
def causeTrapInsn : Nat := 0x08
def causeArith : Nat := 0x09
def causeEccCorrected : Nat := 0x0A
def causeEccUncorrected : Nat := 0x0B
def causeSemOvf : Nat := 0x0C
def causePlaceFault : Nat := 0x0D
def causeScopeClamp : Nat := 0x0E
def causeGateDenied : Nat := 0x0F
def causeGateRate : Nat := 0x10
def causeLockstepSlip : Nat := 0x11
def causeLateDelivery : Nat := 0x12
def causeTaskLate : Nat := 0x13
def causeMxOwned : Nat := 0x15
def causeMxBank : Nat := 0x16
def causePriv : Nat := 0x17
def causeDoubleTrap : Nat := 0x18
def causeQueueFull : Nat := 0x19
def causeWatchdog : Nat := 0x1A

/-- A fatal cause at the tile in focus: TCAUSE and EPC name it and the bundle at which it arose (R141), a DOUBLE_TRAP is written to the
frame store with its SCAUSE, EPC and a TVAL of zero (R145, R146), its FATAL record is posted, the tile issues nothing more, and the
teardown of its domain follows (R374-R376). -/
def State.fatalAt (s : State) (cause scause epc : Nat) : State :=
  let c := s.tile.place.ctx
  let x := s.cur % 384
  let y := s.cur / 384
  let owned := s.tile.place.group.isSome
  let s := if owned then s.post (.plain 0x60 c (cause + 256 * scause + x * 2 ^ 16 + y * 2 ^ 30)) else s
  let s := s.onTile fun t =>
    let t := (t.onPlace fun p => { p with status := .ended }).onCsr fun k =>
      { k with tcause := BitVec.ofNat 8 cause, epc := BitVec.ofNat 16 epc }
    { t with frame := if cause = causeDoubleTrap then t.frame.map fun f => { f with cause := cause, scause := scause, epc := epc, tval := 0 }
                      else t.frame }
  if owned then s.at_ s.cycle .fatalTeardown { Args.none with a := c } else s

/-- The bundle at which a condition that no syllable raises arises: the one that waits, or the one that would issue (R141). -/
def Control.here (c : Control) : Nat := if c.waits.isEmpty then c.pc else c.lastPc

/-- Between trap entry and T' (R148); T' itself lies outside the handler (log 72). -/
def Control.inHandler (c : Control) (now : Nat) : Bool := c.handler && !(c.leaving && decide (c.nextIssue ≤ now))

/-- A fatal cause that no bundle's own syllable raises: ECC_UNCORRECTED, WATCHDOG, or any condition in a handler, where it is
DOUBLE_TRAP with that cause in SCAUSE (R148). -/
def State.fatal (s : State) (cause : Nat) : State :=
  if s.ctl.inHandler s.cycle then s.fatalAt causeDoubleTrap cause s.ctl.here else s.fatalAt cause 0 s.ctl.here

/-- Taking a trap at the current cycle (R144): results due later are recorded, the loop stack, RRB, the latches and the pending
matrix effects are saved, the handler bank is selected, and the handler's first bundle issues two tile cycles later. -/
def State.enterTrap (s : State) (i : TrapInfo) : State :=
  let t := s.tile
  let u := s.unit
  match t.place.entryPoint with
  | none => s.fatalAt i.cause 0 i.epc
  | some h =>
    let due := t.flights.filter Flight.kept
    let f : Frame :=
      { cause := i.cause, scause := 0, self := i.self, rewait := i.rewait, nopre := t.ctl.nopre, preempt := t.ctl.preempt,
        levels := t.ctl.levels, rrb := t.regs.rrb, epc := i.epc, resume := i.resume,
        next := if i.rewait.isEmpty then i.resume else t.ctl.pc,
        tval := i.tval, latches := t.lat,
        records := due.map fun f => { f with due := (f.due - s.cycle) / u, issued := (s.cycle - f.issued) / u },
        transfer := t.ctl.transfer, starting := false }
    { s with
      tile :=
        { t with
          csr := { t.csr with tcause := BitVec.ofNat 8 i.cause, epc := BitVec.ofNat 16 i.epc }
          flights := t.flights.filter (fun f => !f.kept)
          frame := some f
          mx := { t.mx with frozen := t.mx.pending.map fun p => { p with due := (p.due - s.cycle) / u }, pending := [],
                            owned := false, saved := [], restored := [] }
          loopBuf := []
          bufFor := none
          place := { t.place with status := .issuing }
          ctl := { t.ctl with levels := [], handler := true, pc := h, source := h, transfer := none, waits := [], waited := none, skip := none,
                              haltPoint := false, entry := none, nopre := false, nextIssue := s.cycle + 2 * u } } }

/-- Whether the tile runs in a gang of more than one tile. -/
def Tile.ganged (t : Tile) : Bool := decide (1 < t.place.members.length)

/-- A trap condition at the tile in focus. In a handler it is DOUBLE_TRAP (R148); in a gang it stops every tile at one index
(R312); otherwise the trap is taken. -/
def State.takeTrap (s : State) (i : TrapInfo) : State :=
  let s := { s with lastTrap := some i }
  if s.tile.ctl.handler then s.fatalAt causeDoubleTrap i.cause i.epc
  else if s.tile.ganged then
    let own := match s.ctl.entry with
      | some j => j
      | none => i
    (s.onCtl fun c => { c with entry := some own }).at_ (s.cycle + s.tile.place.delta * s.unit) .gangStopSignal
      { Args.none with a := s.cur }
  else s.enterTrap i

/-- An issue-kind trap of the current syllable: TVAL holds the syllable and, in its high half, `hi` (R146). -/
def State.raise (s : State) (cause hi : Nat) : State :=
  s.takeTrap { cause := cause, tval := BitVec.ofNat 64 (s.tile.slot + hi % 2 ^ 32 * 2 ^ 32), epc := s.ctl.pc, resume := s.ctl.pc,
               self := true, rewait := [] }

/-- MISALIGNED_TARGET: TVAL is the whole target (R146). -/
def State.raiseTarget (s : State) (epc resume target : Nat) : State :=
  s.takeTrap { cause := causeMisalignedTarget, tval := BitVec.ofNat 64 target, epc := epc, resume := resume, self := true,
               rewait := [] }

/-- Note a landing-kind condition; the lowest cause of a cycle is kept (R141). In a handler it is fatal at once, but for
ECC_CORRECTED (R148), also while a wait of the handler holds the tile, though R138 has a condition wait for that (log 114). -/
def State.noteLanding (s : State) (cause : Nat) (tval : W64) : State :=
  let i : TrapInfo := { cause := cause, tval := tval, epc := 0, resume := 0, self := true, rewait := [] }
  if s.ctl.inHandler s.cycle then (if cause = causeEccCorrected then s else s.fatal cause)
  else
    s.onCtl fun c =>
      { c with landing := some (match c.landing with
        | some j => if j.cause ≤ cause then j else i
        | none => i) }

/-- Leaving a handler (R147): the loop stack, RRB, the latches, the NOPRE state and the frozen matrix effects return, the
program bank is selected, and the records land when they are due. A transfer taken in ERET's delay bundle takes the bundle at
RESUME as its own delay bundle (R128); the frame store keeps its contents (R41). -/
def State.leaveTrap (s : State) : State :=
  match s.tile.frame with
  | none => s.onCtl fun c => { c with handler := false, leaving := false }
  | some f =>
    let u := s.unit
    s.onTile fun t =>
      { t with
        regs := { t.regs with rrb := f.rrb }
        lat := f.latches
        flights := t.flights ++ f.records.map fun r => { r with due := s.cycle + r.due * u, issued := s.cycle - r.issued * u }
        mx := { t.mx with pending := t.mx.pending ++ t.mx.frozen.map fun p => { p with due := s.cycle + p.due * u }, frozen := [],
                          owned := false, saved := [], restored := [] }
        loopBuf := []
        bufFor := none
        place := { t.place with status := if f.rewait.isEmpty then .issuing else .waiting, gated := !f.rewait.isEmpty }
        ctl := { t.ctl with levels := f.levels, handler := false, nopre := f.nopre, pc := f.next,
                            lastPc := if f.rewait.isEmpty then t.ctl.lastPc else f.resume,
                            transfer := (match t.ctl.transfer with
                              | some x => some { x with close := 0, leave := false }
                              | none => f.transfer),
                            waits := f.rewait, waited := none, leaving := false } }

end Sys2Proof.Machine
end

