-- ==== Sys2Proof/Machine/Operands.lean ====
section
/-! DEFINITION. Reading operands: scalar, vector and MX codes, descriptors, elements, formats and the rounding state
(spec/04_bundles.md R94-R97, spec/02_tile.md R37, spec/07_vector.md R180-R182). -/

namespace Sys2Proof.Machine

/-! ### Scalar operands (R94) -/

/-- The value of a scalar operand code in the tile in focus. -/
def Tile.scalar (t : Tile) (c : BitVec 7) : W64 :=
  let n := c.toNat
  if n < 0x40 then t.sreg n
  else if n < 0x43 then t.bLat (n - 0x40)
  else if n < 0x48 then 0
  else if n < 0x58 then (rd t.regs.a (n - 0x48)).setWidth 64
  else if n = 0x5F then (t.lit.getD 0).signExtend 64
  else if n < 0x60 then 0
  else (rd t.regs.k (n - 0x60)).signExtend 64

/-- The operand of a K syllable: in a gang it is the lead's (spec/13_group.md R310). -/
def Tile.kOperand (t : Tile) (c : BitVec 7) : W64 := t.kval.getD (t.scalar c)

/-- Whether a scalar code names a lost latch. -/
def Tile.scalarLost (t : Tile) (c : BitVec 7) : Bool :=
  decide (0x40 ≤ c.toNat) && decide (c.toNat < 0x43) && t.lat.lost.contains (.ofB (c.toNat - 0x40))
/-- Whether a vector code names a lost latch. -/
def Tile.vectorLost (t : Tile) (c : BitVec 7) : Bool :=
  decide (0x20 ≤ c.toNat) && decide (c.toNat < 0x24) && t.lat.lost.contains (.ofVb (c.toNat - 0x20))

/-- A read of a lost latch sets LATCHLOST (R35). -/
def State.touchS (s : State) (cs : List (BitVec 7)) : State :=
  if cs.any s.tile.scalarLost then s.onTile (·.flag Flag.LATCHLOST) else s
def State.touchV (s : State) (cs : List (BitVec 7)) : State :=
  if cs.any s.tile.vectorLost then s.onTile (·.flag Flag.LATCHLOST) else s

/-- Bit 0 of the named predicate (R32). -/
def Tile.predOn (t : Tile) (p : BitVec 3) : Bool := (t.preg p.toNat).getLsbD 0

/-! ### Elements (R30) -/

/-- Element `e` of width `w`. -/
def elem (v : VReg) (w e : Nat) : Nat := v.toNat / 2 ^ (w * e) % 2 ^ w

/-- A number whose `n` elements of width `w` are `f 0`, `f 1`, … -/
def packGo (w : Nat) (f : Nat → Nat) : Nat → Nat
  | 0 => 0
  | n + 1 => packGo w f n + f n % 2 ^ w * 2 ^ (w * n)
/-- A vector register of elements. -/
def pack (w : Nat) (f : Nat → Nat) : VReg := BitVec.ofNat 2048 (packGo w f (2048 / w))

/-- One element repeated (R95). -/
def repeated (w x : Nat) : VReg := BitVec.ofNat 2048 (x % 2 ^ w * ((2 ^ 2048 - 1) / (2 ^ w - 1)))

/-- Element `e` of width `w` is active (R32). -/
def activeEl (m : PReg) (w e : Nat) : Bool := m.getLsbD (w * e / 8)

/-- The byte lanes of the active elements of width `w` (at least 8 bits): each lane follows its element's lowest lane. -/
def elemLanes (m : PReg) (w : Nat) : PReg :=
  if m = BitVec.allOnes 256 then m
  else BitVec.ofNat 256 (packGo (w / 8) (fun e => if activeEl m w e then 2 ^ (w / 8) - 1 else 0) (2048 / w))

/-- Byte `j` of a vector. -/
def byteOf (v : VReg) (j : Nat) : Nat := elem v 8 j

/-! ### Vector operands (R95) -/

/-- A code that broadcasts one value. -/
def isBroadcast (c : BitVec 7) : Bool := decide (0x3F ≤ c.toNat)

/-- The value of a vector operand code; `w` is the element width of its position, used by a broadcast alone. -/
def Tile.vector (t : Tile) (c : BitVec 7) (w : Nat) : VReg :=
  let n := c.toNat
  if n < 0x20 then t.vreg n
  else if n < 0x24 then t.vbLat (n - 0x20)
  else if n < 0x3F then 0
  else if n = 0x3F then repeated w (t.lit.getD 0).toNat
  else if n < 0x60 then repeated w (rd t.regs.k (n - 0x40)).toNat
  else repeated w (t.sreg (n - 0x60)).toNat

/-! ### VFMT (R37) -/

def Tile.aFmt (t : Tile) : Option Fmt := Fmt.ofCode (t.csr.vfmt.toNat % 32)
def Tile.bFmt (t : Tile) : Option Fmt := Fmt.ofCode (t.csr.vfmt.toNat / 32 % 32)
def Tile.dFmt (t : Tile) : Option Fmt := Fmt.ofCode (t.csr.vfmt.toNat / 1024 % 32)
def Tile.rmode (t : Tile) : Nat := t.csr.vfmt.toNat / 2 ^ 16 % 4
def Tile.tids (t : Tile) : BitVec 7 := t.csr.vfmt.extractLsb' 18 7

/-- How an instruction rounds: nearest even, or stochastically with the tensor-id operand (R59, R182). -/
inductive Rounding where
  | nearest
  | stochastic (seed operand : W64)
deriving DecidableEq, Repr

/-- The rounding of an instruction that rounds to `d`; none is ILLEGAL_OPERAND: a reserved RMODE, or in SR for a tapered or IEEE
result a reserved TIDS (R37). -/
def Tile.rounding (t : Tile) (d : Fmt) : Option Rounding :=
  match t.rmode with
  | 0 => some .nearest
  | 1 =>
    if d.isInt then some .nearest
    else if isScalarCode t.tids && (t.tids.toNat != 0x5F || t.lit.isSome) then some (.stochastic t.csr.seed (t.scalar t.tids))
    else none
  | _ => none

/-- The random word of the element with coordinate offset `e` (R182). -/
def Rounding.word (r : Rounding) (e : Nat) : Option Nat :=
  match r with
  | .nearest => none
  | .stochastic seed x => some (Sys2Proof.vrand seed.toNat (x.toNat % 2 ^ 32) ((x.toNat / 2 ^ 32 * 512 + e) % 2 ^ 64))

/-- The random word of a scalar rounding: coordinate 0 (R113). -/
def Rounding.scalarWord (r : Rounding) : Option Nat :=
  match r with
  | .nearest => none
  | .stochastic seed x => some (Sys2Proof.vrand seed.toNat (x.toNat % 2 ^ 32) 0)

/-- The tensor-id operand is read, and may be a lost latch, only by an instruction that takes the random word. -/
def State.touchR (s : State) (r : Rounding) : State :=
  match r with
  | .nearest => s
  | .stochastic _ _ => s.touchS [s.tile.tids]

/-! ### MX operands (R96, R97, R212) -/

/-- A scratchpad descriptor. -/
structure Descriptor where
  base : Nat
  pinc : Nat
  rpitch : Nat
  tpitch : Nat
  brot : Nat
deriving DecidableEq, Repr

/-- The descriptor with code 0x40 + n, read from s2n and s2n+1. -/
def Tile.descriptor (t : Tile) (c : BitVec 7) : Descriptor :=
  let n := c.toNat - 0x40
  let lo := (t.sreg (2 * n)).toNat
  let hi := (t.sreg (2 * n + 1)).toNat
  { base := lo % 2 ^ 19, pinc := bitsOf lo 32 19, rpitch := hi % 2 ^ 16, tpitch := bitsOf hi 16 16, brot := bitsOf hi 32 4 }

/-- The scratchpad offset of operand element `i` with cursor `c` (R212). -/
def Descriptor.offset (d : Descriptor) (c i : Nat) : Nat :=
  let o := (d.base + c + i * d.rpitch) % 2 ^ 19
  let k := (bitsOf o 4 4 + i * d.brot) % 16
  o / 256 * 256 + k * 16 + o % 16

end Sys2Proof.Machine
end

