-- ==== Sys2Proof/Machine/Flags.lean ====
section
/-! DEFINITION. The sticky flags of TSTAT, the operations that round and gather them, and the accumulator's landings
(spec/02_tile.md R38, R39, spec/03_numbers.md R56-R76, spec/08_matrix_copy.md R216-R224). -/

namespace Sys2Proof.Machine

/-- One word of a format as an exact value, with the flags of reading it. -/
def valOf (f : Fmt) (w : Nat) : VF := f.xval w

/-- FP32 operands of a scalar instruction. -/
def f32 (w : W64) : VF := fp32.xval (w.toNat % 2 ^ 32)

/-- A two-operand FP32 operation rounded once (R119). -/
def fp32Op (op : Val → Val → OpRes) (z : Option Nat) (a b : W64) : Nat × Flags :=
  let (x, f) := f32 a
  let (y, g) := f32 b
  let (w, h) := (op x y).deliver true fp32 z
  (w, f ||| g ||| h)

/-- Elements `0 … n - 1` of a computed vector with their flags: the active ones only. -/
def mapGo (w : Nat) (act : Nat → Bool) (f : Nat → Nat × Flags) : Nat → Nat × Flags
  | 0 => (0, 0)
  | n + 1 =>
    let (x, fl) := mapGo w act f n
    if act n then
      let (y, fy) := f n
      (x + y % 2 ^ w * 2 ^ (w * n), fl ||| fy)
    else (x, fl)
/-- A vector of elements of width `w`. -/
def mapElems (w : Nat) (act : Nat → Bool) (f : Nat → Nat × Flags) : VReg × Flags :=
  let (x, fl) := mapGo w act f (2048 / w)
  (BitVec.ofNat 2048 x, fl)

/-! ### The accumulator's cells (R73, R209) -/

/-- Cells of one row, bits of a cell, bits of a row for a mode. -/
def cellsPerRow (mode : Nat) : Nat := if mode = 1 then 8 else if mode = 2 then 4 else 16
def cellBits (mode : Nat) : Nat := if mode = 0 then 256 else if mode = 2 then 1024 else 512
def rowsOf (mode : Nat) : Nat := cellsPerRow mode
/-- Bytes of an operand element. -/
def elemBytes (mode : Nat) : Nat := if mode = 1 then 2 else if mode = 2 then 4 else 1

/-- Plane and cell index of cell (i, j): in T4-block mode rows 8-15 lie in acc.1 (R209). -/
def cellAt (mode : Nat) (plane : Bool) (i j : Nat) : Bool × Nat :=
  if mode = 3 then (decide (8 ≤ i), 16 * (i % 8) + j) else (plane, cellsPerRow mode * i + j)

def Mx.plane (m : Mx) (p : Bool) : BitVec 65536 := if p then m.acc1 else m.acc0
def Mx.setPlane (m : Mx) (p : Bool) (x : BitVec 65536) : Mx := if p then { m with acc1 := x } else { m with acc0 := x }

/-- Entry `k` of `w` bits of a number. -/
def slice (x w k : Nat) : Nat := x / 2 ^ (w * k) % 2 ^ w
/-- The entries 0 … n - 1 of `w` bits of a plane, each replaced by `f`, with the flags. -/
def mapPlaneGo (w x : Nat) (f : Nat → Nat → Nat × Flags) : Nat → Nat × Flags
  | 0 => (0, 0)
  | n + 1 =>
    let (y, fl) := mapPlaneGo w x f n
    let (c, fc) := f n (slice x w n)
    (y + c % 2 ^ w * 2 ^ (w * n), fl ||| fc)
def mapPlane {n : Nat} (w : Nat) (x : BitVec n) (f : Nat → Nat → Nat × Flags) : BitVec n × Flags :=
  let (y, fl) := mapPlaneGo w x.toNat f (n / w)
  (BitVec.ofNat n y, fl)

/-- qadd of an exact value into a cell of `w` bits (R69, R70). -/
def cellAdd (w cell : Nat) (v : Val) : Nat × Flags :=
  let (q, fl) := qadd w (quireInt w cell) (v.toQuire w)
  (quireWord w q, fl)

/-- A block-plane entry after adding `d` LSBs; none is NaR (R217). -/
def blkAdd (entry : Nat) (d : Option Int) : Nat × Flags :=
  match quireInt 32 entry, d with
  | some a, some b =>
    let c := a + b
    if (2 ^ 31 - 1 : Int) < c ∨ c < -(2 ^ 31 - 1 : Int) then (2 ^ 31, Flag.QOVF) else (intWord c 32, 0)
  | _, _ => (2 ^ 31, 0)

/-- A T4 value times 2^4, an integer; none is NaR. -/
def t4Int (es nibble : Nat) : Option Int :=
  match tdecode nibble 4 es with
  | .fin s n d => some (if s then -((n * 16 / d : Nat) : Int) else ((n * 16 / d : Nat) : Int))
  | _ => none

/-- The product of two T4 nibbles in LSBs of 2^-8. -/
def t4Product (ea a eb b : Nat) : Option Int :=
  match t4Int ea a, t4Int eb b with
  | some x, some y => some (x * y)
  | _, _ => none

def optAdd (a b : Option Int) : Option Int :=
  match a, b with
  | some x, some y => some (x + y)
  | _, _ => none

/-- A MACC contribution landing (R216, R217). The bytes of a plane beyond its cells stay (R73). -/
def Mx.macc (m : Mx) (mode : Nat) (p : Bool) (af bf : Nat) (a b : BitVec 128) : Mx × Flags :=
  let z := elemBytes mode
  if mode = 3 then
    let (x, fl) := mapPlane 32 m.blk fun k e =>
      let x := slice a.toNat 8 (k / 16)
      let y := slice b.toNat 8 (k % 16)
      blkAdd e (optAdd (t4Product af (x % 16) bf (y % 16)) (t4Product af (x / 16) bf (y / 16)))
    ({ m with blk := x }, fl)
  else
    match Fmt.ofCode af, Fmt.ofCode bf with
    | some fa, some fb =>
      let n := cellsPerRow mode
      let (x, fl) := mapPlane (cellBits mode) (m.plane p) fun k c =>
        if n * n ≤ k then (c, 0) else
        let (u, f) := fa.xval (slice a.toNat (8 * z) (k / n))
        let (v, g) := fb.xval (slice b.toNat (8 * z) (k % n))
        let (w, h) := quireProduct u v
        let (r, o) := cellAdd (cellBits mode) c w
        (r, f ||| g ||| h ||| o)
      (m.setPlane p x, fl)
    | _, _ => (m, 0)

/-- An MCLR clear landing (R223): flags acc0, acc1, blk in bits 0-2. -/
def Mx.clear (m : Mx) (f : BitVec 5) : Mx :=
  { m with
    acc0 := if f.getLsbD 0 then 0 else m.acc0
    acc1 := if f.getLsbD 1 then 0 else m.acc1
    blk := if f.getLsbD 2 then 0 else m.blk }

/-- A lane-quire contribution landing (R195, R196): lanes of the elements' width. -/
def Mx.laneAdd (m : Mx) (p product : Bool) (af bf : Nat) (a b : VReg) : Mx × Flags :=
  match Fmt.ofCode af with
  | none => (m, 0)
  | some fa =>
    let w := fa.width
    let (x, fl) := mapPlane (32 * w) (m.plane p) fun k c =>
      let (u, f) := fa.xval (elem a w k)
      let (v, g) :=
        if product then
          match Fmt.ofCode bf with
          | some fb =>
            let (y, g) := fb.xval (elem b w k)
            let (r, h) := quireProduct u y
            (r, g ||| h)
          | none => (u, 0)
        else quireTerm u
      let (r, o) := cellAdd (32 * w) c v
      (r, f ||| g ||| o)
    (m.setPlane p x, fl)

/-! ### The MX state image (R33, R226) -/

/-- A cursor as four bytes. -/
def cursorNat (c : BitVec 19) : Nat := c.toNat

/-- PMETA and PFMT of a pending record: metadata (4 bytes), formats (2 bytes), payload (32 bytes). -/
def pendImage (now u : Nat) (frozen : Bool) (p : MxPending) : Nat × Nat × Nat :=
  let remain := if frozen then p.due else (p.due - now) / u
  match p.kind with
  | .macc mode pl af bf a b =>
    (1 + 256 * remain + 2 ^ 16 * (mode + (if pl then 4 else 0)), af + 256 * bf, a.toNat + b.toNat * 2 ^ 128)
  | .clear f => (2 + 256 * remain + 2 ^ 24 * f.toNat, 0, 0)
  | .chunk _ _ => (0, 0, 0)

/-- A pending effect that the image records. -/
def MxKind.recorded : MxKind → Bool
  | .chunk _ _ => false
  | _ => true

/-- Chunk 68 as a number of 2,048 bits (R226). -/
def Mx.control (m : Mx) (now u : Nat) (inHandler : Bool) : VReg :=
  let l := if inHandler then m.frozen else m.pending.filter (·.kind.recorded)
  let img := fun (k : Nat) => match l[k]? with
    | some p => pendImage now u inHandler p
    | none => (0, 0, 0)
  let (m0, f0, r0) := img 0
  let (m1, f1, r1) := img 1
  BitVec.ofNat 2048
    (m.aLatch.toNat + m.bLatch.toNat * 2 ^ (8 * 0x20) + m.mode % 4 * 2 ^ (8 * 0x40) + m.aFmt.toNat * 2 ^ (8 * 0x41) +
      m.bFmt.toNat * 2 ^ (8 * 0x42) + m.dFmt.toNat * 2 ^ (8 * 0x43) + cursorNat m.ca * 2 ^ (8 * 0x44) +
      cursorNat m.cb * 2 ^ (8 * 0x48) + cursorNat m.cd * 2 ^ (8 * 0x4C) + m0 * 2 ^ (8 * 0x50) + m1 * 2 ^ (8 * 0x54) +
      f0 * 2 ^ (8 * 0x58) + f1 * 2 ^ (8 * 0x5A) + r0 * 2 ^ (8 * 0x80) + r1 * 2 ^ (8 * 0xA0))

/-- Chunk `c` of the image (R33, R225). -/
def Mx.chunk (m : Mx) (now u : Nat) (inHandler : Bool) (c : Nat) : VReg :=
  if c < 32 then m.acc0.extractLsb' (2048 * c) 2048
  else if c < 64 then m.acc1.extractLsb' (2048 * (c - 32)) 2048
  else if c < 68 then m.blk.extractLsb' (2048 * (c - 64)) 2048
  else m.control now u inHandler

/-- A number with the 2,048-bit entry `k` replaced. -/
def setChunk {n : Nat} (x : BitVec n) (k : Nat) (v : VReg) : BitVec n :=
  let mask : BitVec n := BitVec.ofNat n ((2 ^ 2048 - 1) * 2 ^ (2048 * k))
  (x &&& ~~~mask) ||| BitVec.ofNat n (v.toNat * 2 ^ (2048 * k))

/-- The pending record that a chunk 68 restores at place `k`, if it is one that can be pending (R226). -/
def restoredPend (now u : Nat) (v : VReg) (k : Nat) : List MxPending :=
  let meta_ := bitsOf v.toNat (8 * (0x50 + 4 * k)) 32
  let fmts := bitsOf v.toNat (8 * (0x58 + 2 * k)) 16
  let rec_ := bitsOf v.toNat (8 * (0x80 + 32 * k)) 256
  let remain := bitsOf meta_ 8 8
  if remain = 0 ∨ 2 < remain then []
  else
    match meta_ % 256 with
    | 1 =>
      [{ due := now + remain * u,
         kind := .macc (bitsOf meta_ 16 2) (bitsOf meta_ 18 1 == 1) (fmts % 32) (bitsOf fmts 8 5) (BitVec.ofNat 128 rec_)
           (BitVec.ofNat 128 (rec_ / 2 ^ 128)) }]
    | 2 => [{ due := now + remain * u, kind := .clear (BitVec.ofNat 5 (bitsOf meta_ 24 5)) }]
    | _ => []

/-- Chunk `c` placed in the state (R225, R226). In a handler the records wait for the return, outside they replace the beats in
flight and land from now on. -/
def Mx.restoreChunk (m : Mx) (now u : Nat) (inHandler : Bool) (c : Nat) (v : VReg) : Mx :=
  if c < 32 then { m with acc0 := setChunk m.acc0 c v }
  else if c < 64 then { m with acc1 := setChunk m.acc1 (c - 32) v }
  else if c < 68 then { m with blk := setChunk m.blk (c - 64) v }
  else
    let n := v.toNat
    let recs := fun (now u : Nat) => restoredPend now u v 0 ++ restoredPend now u v 1
    { m with
      aLatch := v.extractLsb' 0 256
      bLatch := v.extractLsb' 256 128
      mode := bitsOf n (8 * 0x40) 2
      aFmt := BitVec.ofNat 5 (bitsOf n (8 * 0x41) 5)
      bFmt := BitVec.ofNat 5 (bitsOf n (8 * 0x42) 5)
      dFmt := BitVec.ofNat 5 (bitsOf n (8 * 0x43) 5)
      ca := BitVec.ofNat 19 (bitsOf n (8 * 0x44) 19)
      cb := BitVec.ofNat 19 (bitsOf n (8 * 0x48) 19)
      cd := BitVec.ofNat 19 (bitsOf n (8 * 0x4C) 19)
      pending := if inHandler then m.pending else m.pending.filter (fun p => !p.kind.recorded) ++ recs now u
      frozen := if inHandler then recs 0 1 else m.frozen }

end Sys2Proof.Machine
end

