-- ==== Sys2Proof/Machine/Landing.lean ====
section
/-! DEFINITION. What happens to a tile in a cycle beside issuing: results land, stores and port operations are applied
(RESULT_LANDING, STORE_WRITE; spec/02_tile.md R45-R52, spec/08_matrix_copy.md R224). -/

namespace Sys2Proof.Machine

/-! ### Results -/

/-- All landings of one cycle on the register files and the control registers, from those before them, with latches and flags. -/
def landAll (r0 : Regs) (c0 : Csrs) : List Flight → Regs → Csrs → Latches → Flags → Regs × Csrs × Latches × Flags
  | [], r, c, l, fl => (r, c, l, fl)
  | f :: rest, r, c, l, fl =>
    let (r', g) := landReg r0 r f
    let c' := landCsr c0 c f
    let l' := match f.latch with
      | some k => landLatch l k (latchValue r0 (if f.nwb then r else r') c' f)
      | none => l
    landAll r0 c0 rest r' c' l' (fl ||| f.flags ||| g)

/-- The accumulator after one lane-quire contribution; NWB suppresses the write alone (R84). -/
def landLane (m : Mx) (f : Flight) : Mx × Flags :=
  match f.dest, f.payload with
  | .acc p, .laneAdd product af bf a b =>
    let r := m.laneAdd p product af bf a b
    (if f.nwb then m else r.1, r.2)
  | _, _ => (m, 0)

def foldMx {α : Type} (f : Mx → α → Mx × Flags) : List α → Mx → Flags → Mx × Flags
  | [], m, fl => (m, fl)
  | a :: r, m, fl =>
    let (m', g) := f m a
    foldMx f r m' (fl ||| g)

def landMacc (m : Mx) (p : MxPending) : Mx × Flags :=
  match p.kind with
  | .macc mode pl af bf a b => m.macc mode pl af bf a b
  | _ => (m, 0)

def landClear (m : Mx) (p : MxPending) : Mx :=
  match p.kind with
  | .clear f => m.clear f
  | _ => m

/-- A whole-plane clear of VLQCLR (R197). -/
def landLaneClear (m : Mx) (f : Flight) : Mx :=
  match f.dest, f.payload with
  | .acc p, .word _ => if f.nwb then m else m.setPlane p 0
  | _, _ => m

/-- Bytes that an MRESTORE brings: they land first, and chunk 68 cancels effects due in the same cycle (R224, R226). -/
def MxKind.isChunk : MxKind → Bool
  | .chunk _ _ => true
  | _ => false

def landChunk (now u : Nat) (inHandler : Bool) (m : Mx) (p : MxPending) : Mx :=
  match p.kind with
  | .chunk n v => m.restoreChunk now u inHandler n v
  | _ => m

/-- SINC of the previous cycle (R171). -/
def addCount (v : Vector Semaphore 256) (n k : Nat) : Vector Semaphore 256 :=
  let x := rd v n
  wr v n { x with count := BitVec.ofNat 32 (min (x.count.toNat + k) 0xFFFFFFFF) }

/-- Everything that lands in the tile in focus at the current cycle. With an IFENCE the loop buffer loses what a pass that began at the
IFENCE has captured since (R139). -/
def State.land (s : State) : State :=
  let t := s.tile
  let c := s.cycle
  let due := byPriority (t.flights.filter (fun f => decide (f.due ≤ c)))
  let (regs, csr, lat, fl) := landAll t.regs t.csr due t.regs t.csr t.lat 0
  let fl := if collide due then fl ||| Flag.LANDCOLL else fl
  let chunk := fun (p : MxPending) => decide (p.due ≤ c) && p.kind.isChunk
  let mx := { t.mx with pending := t.mx.pending.filter fun p => !chunk p }
  let mx := (t.mx.pending.filter chunk).foldl (landChunk c s.unit t.ctl.handler) mx
  let mxDue := mx.pending.filter fun p => decide (p.due ≤ c)
  let mx := { mx with pending := mx.pending.filter fun p => !decide (p.due ≤ c) }
  let (mx, f1) := foldMx landLane due mx 0
  let (mx, f2) := foldMx landMacc mxDue mx 0
  let mx := due.foldl landLaneClear mx
  let mx := mxDue.foldl landClear mx
  let fl := fl ||| f1 ||| f2
  let csr := { csr with tstat := csr.tstat ||| fl.setWidth 32 }
  let hit := fl.setWidth 32 &&& csr.ten &&& 0xFF
  let stamp := (due.filter (fun f => f.dest == .fetch)).foldl (fun m f => match f.payload with
    | .word w => max m w.toNat
    | _ => m) 0
  let s :=
    { s with
      tile :=
        { t with
          regs := regs
          lat := lat
          mx := mx
          csr := csr
          flights := t.flights.filter (fun f => !decide (f.due ≤ c))
          stale := t.stale.filter (fun e => decide (stamp ≤ e.2.1))
          loopBuf := if due.any fun f => f.dest == .fetch then [] else t.loopBuf
          sems := (t.io.sincs.filter (fun e => decide (e.1 ≤ c))).foldl (fun v e => addCount v e.2.1 e.2.2) t.sems
          io := { t.io with sincs := t.io.sincs.filter (fun e => !decide (e.1 ≤ c)) } } }
  if hit = 0 then s else s.noteLanding causeArith (hit.setWidth 64)

/-- RESULT_LANDING (R49-R51, R39, R224): the results due now land in the tile in focus. -/
def execResultLanding (s : State) : Out := .next s.land

/-- A drain numbered below `id` that has not landed: in flight, or in the frame of the trap whose handler runs (R144, R147, R174, R228). -/
def Tile.drainsBefore (t : Tile) (id : Nat) : Bool :=
  let due := fun (l : List Flight) => l.any fun f => f.latch == some .vb3 && decide (f.id < id)
  due t.flights || (t.ctl.handler && t.frame.any fun x => due x.records)

/-! ### Stores and ports -/

/-- Bank words that bytes lie in. -/
def bankWords (cs : List Host.Cell) : List Nat := (cs.map (fun c => c.1 / 16)).eraseDups

/-- Whether every byte of a bank word is written. -/
def wholeWord (cs : List Host.Cell) (w : Nat) : Bool := (List.range 16).all fun i => cs.any fun c => c.1 == 16 * w + i

/-- Scratchpad bytes written (R47). A word written whole has new check bits; a narrower write is merged inside the bank, whose error stays until
a read meets it (R377, log 16). -/
def Tile.writeSpad (t : Tile) (cs : List Host.Cell) : Tile :=
  { t with
    spad := t.spad.writeCells cs
    ecc := if t.ecc.isEmpty then [] else t.ecc.filter fun e => !wholeWord cs e.1 }

/-- The bundle at an offset of an instruction memory. -/
def Tile.bundleAt (t : Tile) (pc : Nat) : Bundle := BitVec.ofNat 256 (t.imem.nat pc 32)

/-- Instruction-memory bytes written: fetch may see the old bundles until an IFENCE of a later cycle (R139). -/
def Tile.writeImem (t : Tile) (stamp : Nat) (cs : List Host.Cell) : Tile :=
  let bs := (cs.map (fun c => c.1 / 32)).eraseDups
  { t with
    imem := t.imem.writeCells cs
    stale := t.stale ++ bs.map (fun b => (b, stamp, t.bundleAt (32 * b)))
    iecc := t.iecc.filter (fun e => !bs.contains e.1) }

/-- The new memory value of an ALU operation on `w` bits (R48, R163): operation codes of R90, 10 swap, 11 compare-and-swap, 9
tapered add with `es`. -/
def aluResult (a : AluOp) (old : Nat) : Nat :=
  let w := a.bits
  let v := a.value % 2 ^ w
  match a.op with
  | 0 => (old + v) % 2 ^ w
  | 1 => old &&& v
  | 2 => old ||| v
  | 3 => old ^^^ v
  | 4 => if signedOf v w < signedOf old w then v else old
  | 5 => if signedOf old w < signedOf v w then v else old
  | 6 => min old v
  | 7 => max old v
  | 8 => (fadd32 old v none).1
  | 9 => ((Fmt.tap w a.es).rnd (vadd (tdecode old w a.es) (tdecode v w a.es)).val none).1
  | 10 => v
  | _ => if old = a.cmp % 2 ^ w then v else old

/-- The banks of a span of at most 256 bytes (R44). -/
def spanBanks (off n : Nat) : List Nat := (List.range ((off % 16 + n + 15) / 16)).map fun k => (off / 16 + k) % 16

/-- The banks whose network port is taken in a cycle: one word in each, local atomics first (R45, R48). -/
def Tile.portBanks (t : Tile) (now : Nat) : List Nat :=
  (if t.io.port.1 = now then t.io.port.2 else []) ++
    ((t.io.amos.filter fun a => decide (a.due ≤ now)).map fun a => spanBanks a.addr (a.alu.bits / 8)).flatten
def Tile.portFree (t : Tile) (now : Nat) (bs : List Nat) : Bool := bs.all fun b => !(t.portBanks now).contains b
def Tile.takePort (t : Tile) (now : Nat) (bs : List Nat) : Tile :=
  t.onIo fun p => { p with port := (now, (if p.port.1 = now then p.port.2 else []) ++ bs) }

/-- An atomic at a bank: the old value and the scratchpad after it. -/
def Tile.alu (t : Tile) (addr : Nat) (a : AluOp) : Nat × Tile :=
  let old := t.spad.nat addr (a.bits / 8)
  (old, t.writeSpad (cellsAt addr (natBytes (aluResult a old) (a.bits / 8))))

/-- A network-port read of a word with an error (R47). -/
def State.networkEcc (s : State) (tile addr : Nat) : State :=
  let t := s.getTile tile
  match find t.ecc (addr / 16) with
  | some false =>
    (s.setTile tile { t with ecc := erase t.ecc (addr / 16) }).onMerr (massifOf tile) fun m => { m with netce := satInc m.netce 1 }
  | some true =>
    let s := s.onMerr (massifOf tile) fun m => { m with ue := satInc m.ue 1 }
    let here := s.cur
    ((s.focus tile).fatal causeEccUncorrected).focus here
  | none => s

/-- A bank word whose error no code corrects: no read delivers it, and an atomic there leaves it as it is (R47, R377). -/
def Tile.lostWord (t : Tile) (addr : Nat) : Bool := find t.ecc (addr / 16) == some true

/-- A result changed wherever it stands: in flight, or in a trap or halt frame. -/
def Tile.onFlights (t : Tile) (f : Flight → Flight) : Tile :=
  { t with
    flights := t.flights.map f
    frame := if t.ctl.handler then t.frame.map fun x => { x with records := x.records.map f } else t.frame
    halt := t.halt.map fun x => { x with records := x.records.map f } }

/-- A local atomic enters its ALU: its old value goes to its result (R164). -/
def State.runAmo (s : State) (a : Amo) : State :=
  if s.tile.lostWord a.addr then s.networkEcc s.cur a.addr
  else
    let s := s.networkEcc s.cur a.addr
    let (old, t) := s.tile.alu a.addr a.alu
    { s with tile := t.onFlights fun f =>
        if f.id = a.flight ∧ f.payload = .unread then { f with payload := .word (BitVec.ofNat 64 old) } else f }

/-- The errors that a load/store or matrix-feed port meets in the bank words it reads (R47, R378). -/
def State.readEcc (s : State) : List Nat → State
  | [] => s
  | w :: r =>
    match find s.tile.ecc w with
    | none => s.readEcc r
    | some false =>
      (((s.onTile fun t => { t with ecc := erase t.ecc w }).onMerr (massifOf s.cur) fun m => { m with spadce := satInc m.spadce 1 }).noteLanding
        causeEccCorrected 0).readEcc r
    | some true => (s.onMerr (massifOf s.cur) fun m => { m with ue := satInc m.ue 1 }).fatal causeEccUncorrected

/-- The load/store port reads bytes at offsets. -/
def State.touchSpad (s : State) (os : List Nat) : State :=
  if s.tile.ecc.isEmpty then s else s.readEcc (os.map (· / 16)).eraseDups

/-- The lanes that a list of bytes fills. -/
def placeBytes (m : Memory) (cells : List (Nat × Nat)) : VReg :=
  cells.foldl (fun v c => v ||| (BitVec.ofNat 2048 ((m.read c.1).toNat * 2 ^ (8 * c.2)))) 0

/-- A read of a load that spans cycles. -/
def State.runRead (s : State) (r : PendingRead) : State :=
  let v := placeBytes s.tile.spad r.cells
  (s.onTile fun t => t.onFlights fun f =>
    if f.id = r.flight then
      match f.payload with
      | .lanes m x => { f with payload := .lanes m (x ||| v) }
      | _ => f
    else f).touchSpad (r.cells.map (·.1))

/-- One due store. -/
def Tile.applyStore (t : Tile) (x : Store) : Tile :=
  match x.kind with
  | .imem => t.writeImem x.issued x.cells
  | _ => t.writeSpad x.cells

def storeDue (c : Nat) (k : StoreKind) (x : Store) : Bool := decide (x.due ≤ c) && x.kind == k

/-- The writes of one kind that are due, in issue order. -/
def State.dueWrites (s : State) (k : StoreKind) : State :=
  s.onTile fun t =>
    let due := t.io.stores.filter (storeDue s.cycle k)
    due.foldl Tile.applyStore (t.onIo fun p => { p with stores := p.stores.filter (fun x => !storeDue s.cycle k x) })

/-- The load/store port's writes of this cycle. -/
def State.lsWrites (s : State) : State := s.dueWrites .spad

/-- The data of a remote operation at the banks of the tile in focus (R46, R48, R167). A timed operation applied in another cycle
than its own is LATE_DELIVERY, with D in TVAL, for the bundle of the next cycle (R170). -/
def State.applyData (s : State) (o : RemoteOp) : State :=
  let s := match o.kind with
    | .put bs => s.onTile fun t => t.writeSpad (cellsAt o.offset bs)
    | .atomic a => (s.networkEcc s.cur o.offset).onTile fun t => if t.lostWord o.offset then t else (t.alu o.offset a).2
  match o.deliver with
  | some d => if d = s.cycle then s else s.noteLanding causeLateDelivery (BitVec.ofNat 64 d)
  | none => s

/-- The rest of the load/store port's reads, then the matrix-feed writes, the instruction memory's (the bundle of this cycle has been
fetched, R162), then the network port: local atomics, then the writes
that arrived in this cycle (R46). -/
def State.otherPorts (s : State) : State :=
  let c := s.cycle
  let reads := s.tile.io.reads.filter (fun r => decide (r.due ≤ c))
  let s := reads.foldl State.runRead (s.onIo fun p => { p with reads := p.reads.filter (fun r => !decide (r.due ≤ c)) })
  let s := (s.dueWrites .feed).dueWrites .imem
  let amos := s.tile.io.amos.filter (fun a => decide (a.due ≤ c))
  let s := amos.foldl (fun s a => (s.runAmo a).onTile (·.takePort c (spanBanks a.addr (a.alu.bits / 8))))
    (s.onIo fun p => { p with amos := p.amos.filter (fun a => !decide (a.due ≤ c)) })
  let inb := s.tile.io.inbound
  inb.foldl State.applyData (s.onIo fun p => { p with inbound := [] })

/-- STORE_WRITE (R45, R46, R52): flag clear, the load/store port's writes; flag set, the other two ports of the cycle. -/
def execStoreWrite (s : State) : Out := .next (if s.args.flag then s.otherPorts else s.lsWrites)

end Sys2Proof.Machine
end

