-- ==== Sys2Proof/Machine/Flow.lean ====
section
/-! DEFINITION. What follows a bundle: transfers and their delay bundles, the loop-back event, halt points and the halt frame
(spec/05_scalar_control.md R127-R137, spec/02_tile.md R42, R43). -/

namespace Sys2Proof.Machine

/-! ### The loop-back event (R131) -/

/-- Passes of a level (R130). -/
def Level.passes (l : Level) : Nat := if l.loopm then l.limit - l.baseIt + l.stages - 1 else l.limit - l.baseIt

/-- The deltas of a level, one for each address register. -/
def Regs.deltas (r : Regs) (lev : Nat) : List Nat := (List.range 16).map fun j => (rd r.table (6 * j + lev)).toNat

/-- What a loop-back event leaves: `sums` holds for each address register the sum of its deltas, and whether one was not zero. -/
structure LoopBack where
  levels : List Level
  next : Nat
  rotate : Nat
  sums : List (Nat × Bool)
  lowered : Bool
deriving DecidableEq, Repr

/-- The loop-back of the innermost level and, when it closes where the next one ends, of that one too. A level whose LIMIT a request has lowered
ends there when no request pends any more, be it that its tile halted at a wait in the body and runs again (log 118). -/
def loopBack (r : Regs) (preempt : Bool) : List Level → Nat → Nat → List (Nat × Bool) → LoopBack
  | [], next, rot, sums => { levels := [], next := next, rotate := rot, sums := sums, lowered := false }
  | l :: rest, _, rot, sums =>
    let sums :=
      if !l.loopm || decide (l.baseIt + l.pass < l.limit) then List.zipWith (fun x d => (x.1 + d, x.2 || d != 0)) sums (r.deltas rest.length) else sums
    let rot := if l.loopm then rot + 1 else rot
    let pass := l.pass + 1
    if pass < l.passes then
      { levels := { l with pass := pass } :: rest, next := l.first, rotate := rot, sums := sums, lowered := false }
    else if l.loopm && l.clamped && preempt then
      { levels := { l with baseIt := l.limit, pass := 0, limit := l.ncount, clamped := false } :: rest, next := l.first,
        rotate := rot, sums := sums, lowered := true }
    else
      match rest with
      | [] => { levels := [], next := l.last + 32, rotate := rot, sums := sums, lowered := false }
      | m :: _ =>
        if m.last = l.last then loopBack r preempt rest (l.last + 32) rot sums
        else { levels := rest, next := l.last + 32, rotate := rot, sums := sums, lowered := false }

/-- The results of a loop-back: each address register with a nonzero delta takes the sum of its deltas in the next tile cycle, nested
levels that end together at once (R29, R131). -/
def deltaFlights (t : Tile) (due now : Nat) (sums : List (Nat × Bool)) : List Flight :=
  (List.range 16).filterMap fun j =>
    let (d, some_) := sums.getD j (0, false)
    if !some_ then none
    else some { due := due, issued := now, id := 0, syl := 0, dest := .delta j,
                payload := .word (BitVec.ofNat 64 (((rd t.regs.a j).toNat + d) % 2 ^ 32)), flags := 0, nwb := false, latch := none }

/-! ### The loop buffer (R43) -/

/-- The buffer is emptied. -/
def Tile.emptyBuffer (t : Tile) : Tile := { t with loopBuf := [], bufFor := none }

/-- At the start of a pass of the innermost level: an empty buffer starts to capture a body of 64 bundles or fewer. -/
def Tile.startPass (t : Tile) : Tile :=
  match t.ctl.levels with
  | [] => t.emptyBuffer
  | l :: rest =>
    let n := rest.length
    let t := if t.bufFor = some n then t else t.emptyBuffer
    if t.loopBuf.isEmpty && decide ((l.last - l.first) / 32 < 64) then { t with bufFor := some n } else t

/-! ### Pre-emption requests (R136) -/

/-- A request in force clamps the innermost LOOPM; a NOPRE region or a handler holds it. -/
def Control.applyRequest (c : Control) : Control :=
  if c.preempt.isSome && !c.nopre && !c.handler then
    match c.levels with
    | l :: rest =>
      let m := min l.limit (l.baseIt + l.pass + 1)
      if l.loopm && decide (m < l.limit) then { c with levels := { l with limit := m, clamped := true } :: rest } else c
    | [] => c
  else c

/-- A request that is in force and not held. -/
def Control.requested (c : Control) : Bool := c.preempt.isSome && !c.nopre && !c.handler

/-! ### After a bundle -/

/-- The successor of the bundle at `pc`, given the delay transfer `old` that was pending before it and the levels before it: the
transfer's target, the loop-back's, the skip of an empty loop, or the next bundle (R127-R133). `request` is the pre-emption request that
a loop-back sees, the lead's in a gang (R310). A BRK in the delay bundle of a BRK closes the levels it names that the first left. -/
def State.advance (s : State) (old : Option Transfer) (levels0 : List Level) (request : Bool) : State :=
  let t := s.tile
  let c := t.ctl
  let opened := decide (levels0.length < c.levels.length)
  match old with
  | some tr =>
    let ls := match opened, c.levels with
      | true, l :: r => l :: r.drop tr.close
      | _, l => l.drop tr.close
    let next := c.transfer.map fun x => { x with close := x.close - tr.close }
    let t := { t with ctl := { c with levels := ls, pc := tr.target, source := tr.source, skip := none, transfer := next, leaving := tr.leave } }
    { s with tile := if tr.close = 0 then t else t.emptyBuffer.startPass }
  | none =>
    match c.skip with
    | some n => s.onCtl fun c => { c with pc := n, source := c.pc, skip := none }
    | none =>
      match c.levels with
      | [] => s.onCtl fun c => { c with pc := c.pc + 32, source := c.pc }
      | l :: _ =>
        if l.last = c.pc && c.transfer.isNone && !opened then
          let b := loopBack t.regs request c.levels (c.pc + 32) 0 (List.replicate 16 (0, false))
          let t :=
            { t with
              regs := { t.regs with rrb := t.regs.rrb - BitVec.ofNat 4 b.rotate }
              flights := t.flights ++ deltaFlights t (s.after 1) s.cycle b.sums
              ctl := { c with levels := b.levels, pc := b.next, source := c.pc,
                              haltPoint := c.haltPoint || (c.requested && (b.lowered || !l.clamped ||
                                decide (b.levels.length < c.levels.length))) } }
          { s with tile := t.startPass }
        else if opened then { s with tile := { t with ctl := { c with pc := c.pc + 32, source := c.pc } }.startPass }
        else s.onCtl fun c => { c with pc := c.pc + 32, source := c.pc }

/-! ### Halting (R137, R317) -/

/-- The rotating base that the next bundle sees: one that an RRBSET of this cycle has set (R134), be the tile halted before it lands. -/
def Tile.rrbNext (t : Tile) : BitVec 4 :=
  t.flights.foldl (fun b f => match f.dest, f.payload with
    | .rrb, .word w => w.setWidth 4
    | _, _ => b) t.regs.rrb

/-- The tile in focus halts at the current cycle: results and matrix effects still due go to the halt frame; the latches are not saved (R317). -/
def State.haltTile (s : State) (rewait : List Wait) : State :=
  let t := s.tile
  let u := s.unit
  let f : Frame :=
    { cause := 0, scause := 0, self := false, rewait := rewait, nopre := t.ctl.nopre, preempt := none, levels := t.ctl.levels,
      rrb := t.rrbNext, epc := 0, resume := if rewait.isEmpty then t.ctl.pc else t.ctl.lastPc,
      next := t.ctl.pc, tval := 0, latches := .zero,
      records := (t.flights.filter Flight.kept).map fun f =>
        { f with due := (f.due - s.cycle) / u, issued := (s.cycle - f.issued) / u },
      transfer := t.ctl.transfer, starting := t.place.status == .starting }
  let s :=
    { s with
      tile :=
        { t with
          flights := t.flights.filter (fun f => !f.kept)
          halt := some f
          mx := { t.mx with frozen := t.mx.pending.map fun p => { p with due := (p.due - s.cycle) / u }, pending := [] }
          loopBuf := []
          bufFor := none
          place := { t.place with status := .halted }
          ctl := { t.ctl with waits := [], haltPoint := false, preempt := none } } }
  match t.place.group with
  | none => s
  | some g =>
    match find s.groups g with
    | some x => { s with groups := put s.groups g { x with haltMax := max x.haltMax s.cycle } }
    | none => s

/-- R259: an overrun of a request that a NOPRE region caused is added to DEBT of the context's node, in device memory. -/
def State.chargeDebt (s : State) (q : Nat) : State :=
  match find s.contexts s.tile.place.ctx with
  | none => s
  | some c =>
    let extra := s.cycle - q - 12800
    let d := min extra s.tile.ctl.held
    if d = 0 then s
    else { s with dev := s.dev.writeNat (c.rcb + 0x20) 8 (min (s.devNat (c.rcb + 0x20) 8 + d) (2 ^ 63 - 1)) }

/-- A tile with a request in force halts. -/
def State.preempted (s : State) (rewait : List Wait) : State :=
  let q := (s.ctl.preempt).getD s.cycle
  (s.chargeDebt q).haltTile rewait

end Sys2Proof.Machine
end

