-- ==== Sys2Proof/Machine/Check.lean ====
section
/-! DEFINITION. The checks of a bundle at decode: which registers each syllable reads, the read ports, the literal and the
compositions that are illegal (spec/04_bundles.md R80, R81, R98; spec/07_vector.md R195; spec/08_matrix_copy.md R231). -/

namespace Sys2Proof.Machine

/-- What a syllable reads: scalar operand codes, scalar registers by number, vector operand codes, vector registers by number. -/
structure Reads where
  sc : List (BitVec 7)
  sr : List Nat
  vc : List (BitVec 7)
  vr : List Nat
deriving DecidableEq, Repr

/-- The index operand of a mode-0b10 access (R88). -/
def memIndexCode (f : Mem) : List (BitVec 7) := if f.mode = 2 then [f.index] else []
/-- The place register and, with T, the register after it (R90). -/
def remotePlaceRegs (f : Remote) : List Nat :=
  if f.timed then [f.place.toNat, f.place.toNat + 1] else [f.place.toNat]

/-- The registers of the MX operands that a beat uses: both registers of a descriptor, or a vector register. -/
def mxReads (ops : List (BitVec 7 × Bool)) : Reads :=
  let used := (ops.filter (·.2)).map (fun o => o.1.toNat)
  { sc := []
    sr := (used.filter (fun n => decide (0x40 ≤ n))).flatMap fun n => [2 * (n - 0x40), 2 * (n - 0x40) + 1]
    vc := []
    vr := used.filter (fun n => decide (n < 0x40)) }

/-- The reads of each instruction (R98). The vd that a VDIGEST with INIT = 0 reads is not counted: R183 lists the destinations that count, without
it (log 117). -/
def readsOf : Instr → Reads
  | .nop _ => ⟨[], [], [], []⟩
  | .br _ _ => ⟨[], [], [], []⟩
  | .brz _ s _ => ⟨[s], [], [], []⟩
  | .brnz _ s _ => ⟨[s], [], [], []⟩
  | .jmp _ s => ⟨[s], [], [], []⟩
  | .call _ _ => ⟨[], [], [], []⟩
  | .callr _ s => ⟨[s], [], [], []⟩
  | .ret _ => ⟨[], [], [], []⟩
  | .loop _ s _ => ⟨[s], [], [], []⟩
  | .loopm _ s _ _ => ⟨[s], [], [], []⟩
  | .brk _ s _ => ⟨[s], [], [], []⟩
  | .yield _ => ⟨[], [], [], []⟩
  | .tend _ => ⟨[], [], [], []⟩
  | .trap _ _ => ⟨[], [], [], []⟩
  | .eret _ => ⟨[], [], [], []⟩
  | .ifence _ => ⟨[], [], [], []⟩
  | .rrbset _ _ => ⟨[], [], [], []⟩
  | .nopre _ => ⟨[], [], [], []⟩
  | .nopreend _ => ⟨[], [], [], []⟩
  | .waitc _ s => ⟨[s], [], [], []⟩
  | .halt _ => ⟨[], [], [], []⟩
  | .stg _ _ => ⟨[], [], [], []⟩
  | .add f => ⟨[f.srcA, f.srcB], [], [], []⟩
  | .sub f => ⟨[f.srcA, f.srcB], [], [], []⟩
  | .mul f => ⟨[f.srcA, f.srcB], [], [], []⟩
  | .mulh f => ⟨[f.srcA, f.srcB], [], [], []⟩
  | .mulhu f => ⟨[f.srcA, f.srcB], [], [], []⟩
  | .div f => ⟨[f.srcA, f.srcB], [], [], []⟩
  | .divu f => ⟨[f.srcA, f.srcB], [], [], []⟩
  | .rem f => ⟨[f.srcA, f.srcB], [], [], []⟩
  | .remu f => ⟨[f.srcA, f.srcB], [], [], []⟩
  | .and f => ⟨[f.srcA, f.srcB], [], [], []⟩
  | .or f => ⟨[f.srcA, f.srcB], [], [], []⟩
  | .xor f => ⟨[f.srcA, f.srcB], [], [], []⟩
  | .andn f => ⟨[f.srcA, f.srcB], [], [], []⟩
  | .orn f => ⟨[f.srcA, f.srcB], [], [], []⟩
  | .sel f => ⟨[f.srcA, f.srcB], [f.dst.toNat], [], []⟩
  | .shl f => ⟨[f.srcA, f.srcB], [], [], []⟩
  | .shr f => ⟨[f.srcA, f.srcB], [], [], []⟩
  | .sra f => ⟨[f.srcA, f.srcB], [], [], []⟩
  | .rotl f => ⟨[f.srcA, f.srcB], [], [], []⟩
  | .cmpeq f => ⟨[f.srcA, f.srcB], [], [], []⟩
  | .cmpne f => ⟨[f.srcA, f.srcB], [], [], []⟩
  | .cmplt f => ⟨[f.srcA, f.srcB], [], [], []⟩
  | .cmpltu f => ⟨[f.srcA, f.srcB], [], [], []⟩
  | .cmple f => ⟨[f.srcA, f.srcB], [], [], []⟩
  | .cmpleu f => ⟨[f.srcA, f.srcB], [], [], []⟩
  | .min f => ⟨[f.srcA, f.srcB], [], [], []⟩
  | .max f => ⟨[f.srcA, f.srcB], [], [], []⟩
  | .minu f => ⟨[f.srcA, f.srcB], [], [], []⟩
  | .maxu f => ⟨[f.srcA, f.srcB], [], [], []⟩
  | .clz f => ⟨[f.srcA], [], [], []⟩
  | .ctz f => ⟨[f.srcA], [], [], []⟩
  | .popc f => ⟨[f.srcA], [], [], []⟩
  | .ext f => ⟨[f.srcA, f.srcB], [], [], []⟩
  | .ins f => ⟨[f.srcA, f.srcB], [f.dst.toNat], [], []⟩
  | .addi f => ⟨[f.srcA], [], [], []⟩
  | .andi f => ⟨[f.srcA], [], [], []⟩
  | .ori f => ⟨[f.srcA], [], [], []⟩
  | .xori f => ⟨[f.srcA], [], [], []⟩
  | .shli f => ⟨[f.srcA], [], [], []⟩
  | .shri f => ⟨[f.srcA], [], [], []⟩
  | .srai f => ⟨[f.srcA], [], [], []⟩
  | .cmpeqi f => ⟨[f.srcA], [], [], []⟩
  | .cmplti f => ⟨[f.srcA], [], [], []⟩
  | .cmpltui f => ⟨[f.srcA], [], [], []⟩
  | .movi _ => ⟨[], [], [], []⟩
  | .movhi f => ⟨[], [f.dst.toNat], [], []⟩
  | .movfi _ => ⟨[], [], [], []⟩
  | .fadd f => ⟨[f.srcA, f.srcB], [], [], []⟩
  | .fsub f => ⟨[f.srcA, f.srcB], [], [], []⟩
  | .fmul f => ⟨[f.srcA, f.srcB], [], [], []⟩
  | .ffma f => ⟨[f.srcA, f.srcB], [f.dst.toNat], [], []⟩
  | .fmin f => ⟨[f.srcA, f.srcB], [], [], []⟩
  | .fmax f => ⟨[f.srcA, f.srcB], [], [], []⟩
  | .fcmpeq f => ⟨[f.srcA, f.srcB], [], [], []⟩
  | .fcmplt f => ⟨[f.srcA, f.srcB], [], [], []⟩
  | .fcmple f => ⟨[f.srcA, f.srcB], [], [], []⟩
  | .fcvt f => ⟨[f.srcA], [], [], []⟩
  | .fdiv f => ⟨[f.srcA, f.srcB], [], [], []⟩
  | .fsqrt f => ⟨[f.srcA], [], [], []⟩
  | .tadd f => ⟨[f.srcA, f.srcB], [], [], []⟩
  | .tmul f => ⟨[f.srcA, f.srcB], [], [], []⟩
  | .tfma f => ⟨[f.srcA, f.srcB], [f.dst.toNat], [], []⟩
  | .amov f => ⟨[f.srcA], [], [], []⟩
  | .aaddi f => ⟨[f.srcA], [], [], []⟩
  | .aread _ => ⟨[], [], [], []⟩
  | .adelta f => ⟨[f.srcA], [], [], []⟩
  | .lidx _ => ⟨[], [], [], []⟩
  | .csrr _ => ⟨[], [], [], []⟩
  | .csrw f => ⟨[f.srcA], [], [], []⟩
  | .topo _ => ⟨[], [], [], []⟩
  | .rdcyc _ => ⟨[], [], [], []⟩
  | .pany _ => ⟨[], [], [], []⟩
  | .pall _ => ⟨[], [], [], []⟩
  | .pcnt _ => ⟨[], [], [], []⟩
  | .ldb f => ⟨(memIndexCode f), [], [], []⟩
  | .ldbu f => ⟨(memIndexCode f), [], [], []⟩
  | .ldh f => ⟨(memIndexCode f), [], [], []⟩
  | .ldhu f => ⟨(memIndexCode f), [], [], []⟩
  | .ldw f => ⟨(memIndexCode f), [], [], []⟩
  | .ldwu f => ⟨(memIndexCode f), [], [], []⟩
  | .ldd f => ⟨(memIndexCode f), [], [], []⟩
  | .stb f => ⟨(memIndexCode f), [f.reg.toNat], [], []⟩
  | .sth f => ⟨(memIndexCode f), [f.reg.toNat], [], []⟩
  | .stw f => ⟨(memIndexCode f), [f.reg.toNat], [], []⟩
  | .std f => ⟨(memIndexCode f), [f.reg.toNat], [], []⟩
  | .vld f => ⟨(memIndexCode f), [], [], []⟩
  | .vst f => ⟨(memIndexCode f), [], [], [f.reg.toNat]⟩
  | .vlds f => ⟨(memIndexCode f), [], [], []⟩
  | .vsts f => ⟨(memIndexCode f), [], [], [f.reg.toNat]⟩
  | .vgather f => ⟨[], [], [f.index], []⟩
  | .vscatter f => ⟨[], [], [f.index], [f.reg.toNat]⟩
  | .vldb f => ⟨(memIndexCode f), [], [], []⟩
  | .pld f => ⟨(memIndexCode f), [], [], []⟩
  | .pst f => ⟨(memIndexCode f), [], [], []⟩
  | .kld f => ⟨(memIndexCode f), [], [], []⟩
  | .qsave f => ⟨(memIndexCode f), [], [], []⟩
  | .qload f => ⟨(memIndexCode f), [], [], []⟩
  | .istore f => ⟨(memIndexCode f), [], [], [f.reg.toNat]⟩
  | .amoadd f => ⟨[f.srcB], [], [], []⟩
  | .amoand f => ⟨[f.srcB], [], [], []⟩
  | .amoor f => ⟨[f.srcB], [], [], []⟩
  | .amoxor f => ⟨[f.srcB], [], [], []⟩
  | .amomin f => ⟨[f.srcB], [], [], []⟩
  | .amomax f => ⟨[f.srcB], [], [], []⟩
  | .amominu f => ⟨[f.srcB], [], [], []⟩
  | .amomaxu f => ⟨[f.srcB], [], [], []⟩
  | .amoswap f => ⟨[f.srcB], [], [], []⟩
  | .amocas f => ⟨[f.srcB], [f.dst.toNat], [], []⟩
  | .amofadd f => ⟨[f.srcB], [], [], []⟩
  | .amotadd f => ⟨[f.srcB], [], [], []⟩
  | .rput f => ⟨[], f.data.toNat :: (remotePlaceRegs f), [], []⟩
  | .rputv f => ⟨[], (remotePlaceRegs f), [], [f.data.toNat]⟩
  | .ramo f => ⟨[], f.data.toNat :: (remotePlaceRegs f), [], []⟩
  | .sinc f => ⟨[f.srcA], [], [], []⟩
  | .swait f => ⟨[f.srcA], [], [], []⟩
  | .sexpect f => ⟨[f.srcA], [], [], []⟩
  | .swaite f => ⟨[f.srcA], [], [], []⟩
  | .sread f => ⟨[f.srcA], [], [], []⟩
  | .bararr f => ⟨[f.srcA], [], [], []⟩
  | .barwait f => ⟨[f.srcA], [], [], []⟩
  | .fence f => ⟨[f.srcA], [], [], []⟩
  | .fencemark f => ⟨[f.srcA], [], [], []⟩
  | .gpost f => ⟨[f.srcA], [], [], []⟩
  | .gwait f => ⟨[f.srcA], [], [], []⟩
  | .gtry f => ⟨[f.srcA], [], [], []⟩
  | .gread f => ⟨[f.srcA], [], [], []⟩
  | .vsetf f => ⟨[f.srcA], [], [], []⟩
  | .vadd f => ⟨[], [], [f.srcA, f.srcB], []⟩
  | .vsub f => ⟨[], [], [f.srcA, f.srcB], []⟩
  | .vmul f => ⟨[], [], [f.srcA, f.srcB], []⟩
  | .vfma f => ⟨[], [], [f.srcA, f.srcB], [f.dst.toNat]⟩
  | .vfms f => ⟨[], [], [f.srcA, f.srcB], [f.dst.toNat]⟩
  | .vfnma f => ⟨[], [], [f.srcA, f.srcB], [f.dst.toNat]⟩
  | .vdiv f => ⟨[], [], [f.srcA, f.srcB], []⟩
  | .vmin f => ⟨[], [], [f.srcA, f.srcB], []⟩
  | .vmax f => ⟨[], [], [f.srcA, f.srcB], []⟩
  | .vabs f => ⟨[], [], [f.srcA], []⟩
  | .vneg f => ⟨[], [], [f.srcA], []⟩
  | .vcmpeq f => ⟨[], [], [f.srcA, f.srcB], []⟩
  | .vcmplt f => ⟨[], [], [f.srcA, f.srcB], []⟩
  | .vcmple f => ⟨[], [], [f.srcA, f.srcB], []⟩
  | .vsel f => ⟨[], [], [f.srcA, f.srcB], []⟩
  | .vand f => ⟨[], [], [f.srcA, f.srcB], []⟩
  | .vor f => ⟨[], [], [f.srcA, f.srcB], []⟩
  | .vxor f => ⟨[], [], [f.srcA, f.srcB], []⟩
  | .vshl f => ⟨[], [], [f.srcA, f.srcB], []⟩
  | .vshr f => ⟨[], [], [f.srcA, f.srcB], []⟩
  | .vsra f => ⟨[], [], [f.srcA, f.srcB], []⟩
  | .vqdot f => ⟨[], [], [f.srcA, f.srcB], []⟩
  | .vqadd _ => ⟨[], [], [], []⟩
  | .vqacc f => ⟨[], [], [f.srcA], []⟩
  | .vqsub _ => ⟨[], [], [], []⟩
  | .vqrnd f => ⟨[f.srcB], [], [], []⟩
  | .vqscale f => ⟨[f.srcB], [], [], []⟩
  | .vqclr _ => ⟨[], [], [], []⟩
  | .vqmovQq _ => ⟨[], [], [], []⟩
  | .vqmovVq _ => ⟨[], [], [], []⟩
  | .vqmovQv f => ⟨[], [], [f.srcA], []⟩
  | .vlqmac f => ⟨[], [], [f.srcA, f.srcB], []⟩
  | .vlqadd f => ⟨[], [], [f.srcA], []⟩
  | .vlqrnd f => ⟨[f.srcB], [], [], []⟩
  | .vlqclr _ => ⟨[], [], [], []⟩
  | .vpiv f => ⟨[], [], [f.srcA, f.srcB], [f.dst.toNat]⟩
  | .vcvt f => ⟨[], [], [f.srcA], []⟩
  | .vpack4 f => ⟨[], [], [f.srcA], []⟩
  | .vunpack4 f => ⟨[], [], [], [f.srcA.toNat, f.srcA.toNat + 1]⟩
  | .vperm f => ⟨[], [], [f.srcA, f.srcB], []⟩
  | .vrotl f => ⟨[f.srcB], [], [f.srcA], []⟩
  | .vslide f => ⟨[f.srcB], [], [f.srcA], [f.dst.toNat]⟩
  | .vbcast f => ⟨[f.srcB], [], [f.srcA], []⟩
  | .viota f => ⟨[f.srcA], [], [], []⟩
  | .vmov f => ⟨[], [], [f.srcA], []⟩
  | .vext f => ⟨[f.srcB], [], [f.srcA], []⟩
  | .vins f => ⟨[f.srcA, f.srcB], [], [], [f.dst.toNat]⟩
  | .vrand f => ⟨[f.srcA, f.srcB], [], [], []⟩
  | .vtopk f => ⟨[f.srcB], [], [f.srcA], [f.dst.toNat]⟩
  | .vdigest f => ⟨[f.srcB], [], [f.srcA], []⟩
  | .vrecip f => ⟨[], [], [f.srcA], []⟩
  | .vrsqrt f => ⟨[], [], [f.srcA], []⟩
  | .vsqrt f => ⟨[], [], [f.srcA], []⟩
  | .vexp2 f => ⟨[], [], [f.srcA], []⟩
  | .vlog2 f => ⟨[], [], [f.srcA], []⟩
  | .vtanh f => ⟨[], [], [f.srcA], []⟩
  | .vsigm f => ⟨[], [], [f.srcA], []⟩
  | .pand _ => ⟨[], [], [], []⟩
  | .por _ => ⟨[], [], [], []⟩
  | .pxor _ => ⟨[], [], [], []⟩
  | .pnot _ => ⟨[], [], [], []⟩
  | .pset f => ⟨[f.srcA], [], [], []⟩
  | .mcfg _ => ⟨[], [], [], []⟩
  | .macc f => mxReads [(f.srcA, f.flags.getLsbD 0 || f.flags.getLsbD 2), (f.srcB, f.flags.getLsbD 1 || f.flags.getLsbD 3)]
  | .mshift f => mxReads [(f.srcA, f.flags.getLsbD 1 || f.flags.getLsbD 2), (f.srcB, f.flags.getLsbD 3)]
  | .mscale f => mxReads [(f.srcA, true), (f.srcB, true)]
  | .mdrain f => mxReads [(f.srcB &&& 0x1F, f.srcB.getLsbD 6)]
  | .mdrainq f => mxReads [(f.srcA, true)]
  | .mclr _ => ⟨[], [], [], []⟩
  | .msave f => mxReads [(f.srcA, true)]
  | .mrestore f => mxReads [(f.srcA, true)]
  | .mbar _ => ⟨[], [], [], []⟩
  | .cqpush f => ⟨[f.srcB], [], [], []⟩
  | .cwait f => ⟨[f.srcB], [], [], []⟩
  | .cdone _ => ⟨[], [], [], []⟩
  | .ckick _ => ⟨[], [], [], []⟩
  | .cqres _ => ⟨[], [], [], []⟩
  | .resultLanding => ⟨[], [], [], []⟩
  | .storeWrite => ⟨[], [], [], []⟩
  | .trapEntry => ⟨[], [], [], []⟩
  | .waitSatisfied => ⟨[], [], [], []⟩
  | .gangStopSignal => ⟨[], [], [], []⟩
  | .preemptRequest => ⟨[], [], [], []⟩
  | .taskStart => ⟨[], [], [], []⟩
  | .writeQueueDepart => ⟨[], [], [], []⟩
  | .requestQueueDepart => ⟨[], [], [], []⟩
  | .remoteApply => ⟨[], [], [], []⟩
  | .timedRelease => ⟨[], [], [], []⟩
  | .doneshPublication => ⟨[], [], [], []⟩
  | .gatePublication => ⟨[], [], [], []⟩
  | .tokenDivision => ⟨[], [], [], []⟩
  | .gatePostArrival => ⟨[], [], [], []⟩
  | .waiterRecord => ⟨[], [], [], []⟩
  | .moveInstall => ⟨[], [], [], []⟩
  | .barrierArrival => ⟨[], [], [], []⟩
  | .barrierRelease => ⟨[], [], [], []⟩
  | .kick => ⟨[], [], [], []⟩
  | .claim => ⟨[], [], [], []⟩
  | .consumerSweep => ⟨[], [], [], []⟩
  | .contentWindowExpiry => ⟨[], [], [], []⟩
  | .packetBegin => ⟨[], [], [], []⟩
  | .packetCompletion => ⟨[], [], [], []⟩
  | .copyV1 => ⟨[], [], [], []⟩
  | .copyV2 => ⟨[], [], [], []⟩
  | .tile2d => ⟨[], [], [], []⟩
  | .mcast2d => ⟨[], [], [], []⟩
  | .fill => ⟨[], [], [], []⟩
  | .packetFence => ⟨[], [], [], []⟩
  | .mark => ⟨[], [], [], []⟩
  | .signal => ⟨[], [], [], []⟩
  | .prefetch => ⟨[], [], [], []⟩
  | .migrate => ⟨[], [], [], []⟩
  | .launch => ⟨[], [], [], []⟩
  | .launchDepsMet => ⟨[], [], [], []⟩
  | .launchCheck => ⟨[], [], [], []⟩
  | .placementDecision => ⟨[], [], [], []⟩
  | .groupLoaded => ⟨[], [], [], []⟩
  | .launchDone => ⟨[], [], [], []⟩
  | .sliceEnd => ⟨[], [], [], []⟩
  | .watchdog => ⟨[], [], [], []⟩
  | .groupSave => ⟨[], [], [], []⟩
  | .groupResume => ⟨[], [], [], []⟩
  | .contextSuspended => ⟨[], [], [], []⟩
  | .fatalTeardown => ⟨[], [], [], []⟩
  | .ctxCreate => ⟨[], [], [], []⟩
  | .ctxSuspend => ⟨[], [], [], []⟩
  | .ctxResume => ⟨[], [], [], []⟩
  | .ctxDestroy => ⟨[], [], [], []⟩
  | .seal => ⟨[], [], [], []⟩
  | .restore => ⟨[], [], [], []⟩
  | .rehome => ⟨[], [], [], []⟩
  | .placeSet => ⟨[], [], [], []⟩
  | .slotSet => ⟨[], [], [], []⟩
  | .slotFrameBoundary => ⟨[], [], [], []⟩
  | .mapEntry => ⟨[], [], [], []⟩
  | .mapRange => ⟨[], [], [], []⟩
  | .mapRoots => ⟨[], [], [], []⟩
  | .mapRings => ⟨[], [], [], []⟩
  | .unmap => ⟨[], [], [], []⟩
  | .invalidate => ⟨[], [], [], []⟩
  | .harvest => ⟨[], [], [], []⟩
  | .faultResume => ⟨[], [], [], []⟩
  | .gateCreate => ⟨[], [], [], []⟩
  | .gateOpen => ⟨[], [], [], []⟩
  | .gateClose => ⟨[], [], [], []⟩
  | .gateSetacl => ⟨[], [], [], []⟩
  | .gateMove => ⟨[], [], [], []⟩
  | .gateRevoke => ⟨[], [], [], []⟩
  | .gateFree => ⟨[], [], [], []⟩
  | .gateFreefwd => ⟨[], [], [], []⟩
  | .queueCreate => ⟨[], [], [], []⟩
  | .queueDestroy => ⟨[], [], [], []⟩
  | .queueReset => ⟨[], [], [], []⟩
  | .interfaceBind => ⟨[], [], [], []⟩
  | .interfaceRevoke => ⟨[], [], [], []⟩
  | .interfaceRelease => ⟨[], [], [], []⟩
  | .interfaceRevoked => ⟨[], [], [], []⟩
  | .linkCmdRetrain => ⟨[], [], [], []⟩
  | .linkCmdDown => ⟨[], [], [], []⟩
  | .linkCmdTrain => ⟨[], [], [], []⟩
  | .peerTraining => ⟨[], [], [], []⟩
  | .trainingResult => ⟨[], [], [], []⟩
  | .crcRetry => ⟨[], [], [], []⟩
  | .syncFlit => ⟨[], [], [], []⟩
  | .powerReqFull => ⟨[], [], [], []⟩
  | .powerReqReduced => ⟨[], [], [], []⟩
  | .powerReqRetention => ⟨[], [], [], []⟩
  | .powerReqOff => ⟨[], [], [], []⟩
  | .powerTransitionDone => ⟨[], [], [], []⟩
  | .registerWrite => ⟨[], [], [], []⟩
  | .hostCxlMemAccess => ⟨[], [], [], []⟩
  | .pullRequest => ⟨[], [], [], []⟩
  | .pullReceived => ⟨[], [], [], []⟩
  | .pullTimeout => ⟨[], [], [], []⟩
  | .pullsComplete => ⟨[], [], [], []⟩
  | .lineageRequest => ⟨[], [], [], []⟩
  | .remoteRecordQuery => ⟨[], [], [], []⟩
  | .homeunreach => ⟨[], [], [], []⟩
  | .moduleReset => ⟨[], [], [], []⟩
  | .domainBringUp => ⟨[], [], [], []⟩
  | .partitionChangeReport => ⟨[], [], [], []⟩

/-- The codes of a range as register numbers counted from its start. -/
def codeNumbers (lo hi : Nat) (cs : List (BitVec 7)) : List Nat :=
  (cs.map BitVec.toNat).filterMap fun n => if lo ≤ n ∧ n < hi then some (n - lo) else none

/-- The scalar registers of a syllable that take a port (R98): s0 is free. -/
def Reads.scalars (r : Reads) : List Nat :=
  (codeNumbers 0 0x40 r.sc ++ r.sr ++ codeNumbers 0x60 0x80 r.vc).filter (fun n => n != 0)
/-- The vector registers of a syllable that take a port. -/
def Reads.vectors (r : Reads) : List Nat := codeNumbers 0 0x20 r.vc ++ r.vr
/-- The syllable names the literal. -/
def Reads.literal (r : Reads) : Bool := r.sc.contains 0x5F || r.vc.contains 0x3F

/-- A bundle's decoded syllables: position and instruction, NOPs included. -/
abbrev Syllables := List (Nat × Instr)

/-- More registers of one parity than ports. -/
def overPorts (regs : List Nat) (ports : Nat) : Bool :=
  let d := regs.eraseDups
  decide (ports < (d.filter (· % 2 == 0)).length) || decide (ports < (d.filter (· % 2 == 1)).length)

/-- The first syllable whose reads take a bank past its ports (R98, R146). -/
def portBreach : Syllables → List Nat → List Nat → Option Nat
  | [], _, _ => none
  | (k, i) :: rest, ss, vs =>
    let r := (readsOf i)
    let ss := ss ++ r.scalars
    let vs := vs ++ r.vectors
    if overPorts ss 3 || overPorts vs 2 then some k else portBreach rest ss vs

/-- The plane that a lane-quire instruction works on (R195). -/
def lanePlane : Instr → Option Bool
  | .vlqmac f => some (f.dst.getLsbD 0)
  | .vlqadd f => some (f.dst.getLsbD 0)
  | .vlqrnd f => some (f.srcA.getLsbD 0)
  | .vlqclr f => some (f.dst.getLsbD 0)
  | _ => none

/-- Whether an MX beat reaches a plane in a mode (R195). -/
def beatReaches (mode : Nat) (p : Bool) : Instr → Bool
  | .macc f => mode == 3 || f.plane == p
  | .mdrain f => mode == 3 || f.plane == p
  | .mdrainq f => mode == 3 || f.plane == p
  | .mcfg _ => true
  | .mclr _ => true
  | .msave _ => true
  | .mrestore _ => true
  | .mshift _ => mode == 3
  | .mscale _ => mode == 3
  | .mbar _ => mode == 3
  | _ => false

/-- An LS-slot instruction of opcode 0x01-0x1C. -/
def isMemory (w : W32) : Bool := decide (1 ≤ (w.toNat / 2 ^ 24)) && decide (w.toNat / 2 ^ 24 ≤ 0x1C)

/-- The slots of a bundle that hold syllables: the literal is none. -/
def syllablePositions (b : Bundle) : List Nat := if b.lit then [0, 1, 2, 3, 4, 5, 6] else [0, 1, 2, 3, 4, 5, 6, 7]

/-- The decoding of each syllable. -/
def decodeAll (b : Bundle) : List (Nat × Except DecodeError Instr) :=
  (syllablePositions b).map fun k => (k, decodeSlot (Slot.ofIndex k) (b.syllable k))

/-- The lowest syllable whose decoding gives an error of one kind. -/
def firstError (e : DecodeError) : List (Nat × Except DecodeError Instr) → Option Nat
  | [] => none
  | (k, .error d) :: r => if d = e then some k else firstError e r
  | (_, .ok _) :: r => firstError e r

/-- The syllables that decoded. -/
def decoded : List (Nat × Except DecodeError Instr) → Syllables
  | [] => []
  | (k, .ok i) :: r => (k, i) :: decoded r
  | (_, .error _) :: r => decoded r

/-- The bundle's literal (R81). -/
def Bundle.literal (b : Bundle) : Option W32 := if b.lit then some (b.syllable 7) else none

/-- The lowest syllable that names the literal of a bundle that has none. -/
def badLiteral (b : Bundle) (l : Syllables) : Option Nat :=
  if b.lit then none else (l.find? (fun e => (readsOf e.2).literal)).map (·.1)

/-- Check 3 of R80: the syllable to report. -/
def badComposition (mode : Nat) (b : Bundle) (l : Syllables) : Option Nat :=
  match portBreach l [] [] with
  | some k => some k
  | none =>
    let planes := l.filterMap (fun e => lanePlane e.2)
    if planes.any (fun p => l.any (fun e => beatReaches mode p e.2)) then some 6
    else if l.any (fun e => match e.2 with
        | .cqpush _ => true
        | _ => false) && isMemory (b.syllable 3) then some 7
    else none

/-- The decode checks of a bundle, in their order: the cause and syllable of the first that fails, or the syllables. -/
def checkBundle (mode : Nat) (b : Bundle) : Except (Nat × Nat) Syllables :=
  let ds := decodeAll b
  let l := decoded ds
  match firstError .illegalOp ds with
  | some k => .error (causeIllegalOp, k)
  | none =>
    match firstError .illegalOperand ds, badLiteral b l with
    | some k, some j => .error (causeIllegalOperand, min k j)
    | some k, none => .error (causeIllegalOperand, k)
    | none, some j => .error (causeIllegalOperand, j)
    | none, none =>
      match badComposition mode b l with
      | some k => .error (causeIllegalBundle, k)
      | none => .ok l

end Sys2Proof.Machine
end

