-- ==== Sys2Proof/Machine/Rcb.lean ====
section
/-! DEFINITION. Region control blocks read from device memory, effective values, budgets and fault domains
(spec/10_context.md R255-R258), and the tests of waits and task conditions (spec/05_scalar_control.md R137, R138;
spec/06_memory_sync_ops.md R172, R173, R179; spec/08_matrix_copy.md R230). -/

namespace Sys2Proof.Machine

/-! ### Nodes (R255) -/

/-- The nodes from `a` up to the top, at most `n`, by their addresses in the own map (R21). -/
def State.rcbPath (s : State) (a : Nat) : Nat → List Nat
  | 0 => []
  | n + 1 =>
    let x := s.ownBase a
    let up := s.devNat x 8
    if s.devNat (x + 8) 1 = 0 ∨ up = 0 then [x] else x :: s.rcbPath up n

/-- The path of a context's bound node. -/
def State.ctxPath (s : State) (c : Nat) : List Nat :=
  match find s.contexts c with
  | some x => s.rcbPath x.rcb 6
  | none => []

/-- The effective value of a field at the first node of a path (R257). -/
def State.eff (s : State) (bit : Nat) (get : Nat → Nat) : List Nat → Nat
  | [] => 0
  | x :: rest => if s.devNat (x + 8) 1 ≠ 0 ∧ (s.devNat (x + 0xA) 2).testBit bit ∧ rest ≠ [] then s.eff bit get rest else get x

/-- FLAGS of a node. -/
def State.rcbFlag (s : State) (bit n : Nat) (x : Nat) : Nat := bitsOf (s.devNat (x + 9) 1) bit n

def State.effTiles (s : State) (p : List Nat) : Nat := s.eff 0 (fun x => s.devNat (x + 0xC) 4) p
def State.effHbm (s : State) (p : List Nat) : Nat := s.eff 1 (fun x => s.devNat (x + 0x10) 8) p
def State.effQslots (s : State) (p : List Nat) : Nat := s.eff 2 (fun x => s.devNat (x + 0x18) 4) p
def State.effSlice (s : State) (p : List Nat) : Nat := s.eff 3 (fun x => s.devNat (x + 0x1C) 4) p
def State.effPrio (s : State) (p : List Nat) : Nat := s.eff 4 (s.rcbFlag 5 3) p
/-- 1 is STRICT (R256). -/
def State.effPolicy (s : State) (p : List Nat) : Nat := s.eff 5 (s.rcbFlag 3 1) p
def State.effLockstep (s : State) (p : List Nat) : Bool := s.eff 6 (s.rcbFlag 1 1) p == 1
def State.effNopre (s : State) (p : List Nat) : Bool := s.eff 7 (s.rcbFlag 2 1) p == 1
/-- HVPRIV is honoured on the level-0 node alone (R256). -/
def State.ctxHvpriv (s : State) (c : Nat) : Bool :=
  match (s.ctxPath c).getLast? with
  | some x => s.devNat (x + 8) 1 == 0 && s.rcbFlag 4 1 x == 1
  | none => false

/-- The node that bounds a context's fault domain (R257). -/
def State.faultDomain (s : State) (c : Nat) : Option Nat :=
  let p := s.ctxPath c
  match p.find? (fun x => s.rcbFlag 0 1 x == 1) with
  | some x => some x
  | none => p.getLast?

/-- Every suffix of a path: a node with the nodes above it. -/
def suffixes {α : Type} : List α → List (List α)
  | [] => []
  | x :: r => (x :: r) :: suffixes r

/-- A budget holds at every node of a path for an addition of `n` (R258). -/
def State.fits (s : State) (used width : Nat) (budget : List Nat → Nat) (n : Nat) (p : List Nat) : Bool :=
  (suffixes p).all fun q => match q with
    | [] => true
    | x :: _ => decide (s.devNat (x + used) width + n ≤ budget q)

/-- Add to a use count of every node of a path; the errors met there are counted. -/
def State.addUse (s : State) (used width : Nat) (n : Int) (p : List Nat) : State :=
  let s := p.foldl State.devErr s
  { s with dev := p.foldl (fun m x => m.writeNat (x + used) width ((({ s with dev := m }.devNat (x + used) width : Nat) : Int) + n).toNat) s.dev }

def State.addTiles (s : State) (c : Nat) (n : Int) : State := s.addUse 0x28 4 n (s.ctxPath c)
def State.addQslots (s : State) (c : Nat) (n : Int) : State := s.addUse 0x2C 4 n (s.ctxPath c)
def State.addHbm (s : State) (c : Nat) (n : Int) : State := s.addUse 0x30 8 n (s.ctxPath c)

/-! ### Bindings, shadows and waits -/

/-- The binding with a number, none when it is empty or its queue is gone, created again or not (R229, R281, R293). -/
def State.binding (s : State) (t : Tile) (b : Nat) : Option Binding :=
  match find t.io.bindings b with
  | some x =>
    if x.kind = 0 then none
    else match find s.queues x.queue with
      | some q => if q.state = .free ∨ q.life ≠ x.life then none else some x
      | none => none
  | none => none

/-- The shadow of a gate on a massif; the gate id is bits [20:0] of R178. -/
def State.shadow (s : State) (gate massif : Nat) : Option Shadow := s.shadows.find? (fun x => (x.gate == gate || x.old.contains gate) && x.massif == massif)
def State.setShadow (s : State) (x : Shadow) : State :=
  { s with shadows := s.shadows.map fun y => if y.gate = x.gate ∧ y.massif = x.massif then x else y }

/-- The rights of a context in a shadow: POST, WAIT. -/
def Shadow.rightsOf (x : Shadow) (c : Nat) : Bool × Bool :=
  match x.rights.find? (fun r => r.1 == c) with
  | some r => r.2
  | none => (false, false)

/-- The condition of GWAIT (R179). -/
def gateReached (seq : W64) (target : Nat) : Bool := decide (((seq.toNat % 2 ^ 32) + 2 ^ 32 - target) % 2 ^ 32 < 2 ^ 31)

/-- The condition of CWAIT (R230). -/
def copyReached (donesh id : W64) : Bool := decide ((donesh - id).toNat < 2 ^ 63)

/-- What a test of a wait gives. -/
inductive WaitResult where
  | satisfied (s : State)
  | waiting
  | denied

/-- One test of a wait of the tile in focus, with its subtraction (R172). -/
def State.testWait (s : State) : Wait → WaitResult
  | .sem n v =>
    let x := rd s.tile.sems n
    if v ≤ x.count.toNat then
      .satisfied (s.onTile fun t => { t with sems := wr t.sems n { x with count := x.count - BitVec.ofNat 32 v } })
    else .waiting
  | .semExpect n =>
    let x := rd s.tile.sems n
    if x.expect.toNat ≤ x.count.toNat then
      .satisfied (s.onTile fun t => { t with sems := wr t.sems n { count := x.count - x.expect.setWidth 32, expect := 0 } })
    else .waiting
  | .barrier n =>
    match rd s.tile.io.pending n with
    | none => .satisfied s
    | some p =>
      if rd s.tile.io.lphase n = p then .waiting
      else .satisfied (s.onIo fun i => { i with pending := wr i.pending n none })
  | .gate x =>
    match s.shadow (x.toNat % 2 ^ 21) (massifOf s.cur) with
    | none => .denied
    | some h =>
      if h.state = .revoked ∨ !(h.rightsOf s.tile.place.ctx).2 then .denied
      else if gateReached h.seq (x.toNat / 2 ^ 32) then .satisfied s
      else .waiting
  | .copy b id =>
    match s.binding s.tile b with
    | none => .waiting
    | some x => if copyReached x.donesh id then .satisfied s else .waiting
  | .cycle c => if c ≤ s.cycle + s.unit then .satisfied s else .waiting

/-- The number of tasks of the tile's kernel. -/
def State.taskCount (s : State) : Nat :=
  match s.tile.place.group with
  | none => 0
  | some g => match find s.groups g with
    | some x => x.kernel.tasks.length
    | none => 0

/-- A wait instruction in its issue cycle: satisfied at once, or the tile waits (R53, R172). -/
def State.startWait (s : State) (w : Wait) : State :=
  match s.testWait w with
  | .satisfied s => s
  | _ => (s.onPlace fun p => { p with status := .waiting }).onCtl fun c => { c with waits := c.waits ++ [w] }

/-- Whether a task condition holds (R293). -/
def State.condHolds (s : State) (c : Cond) : Bool :=
  match c.kind with
  | 1 => decide (c.value ≤ (rd s.tile.sems c.object).count.toNat)
  | 2 =>
    match s.binding s.tile c.object with
    | some x => copyReached x.donesh (BitVec.ofNat 64 c.value)
    | none => false
  | _ => decide (((rd s.tile.io.lphase c.object).toNat + 2 ^ 32 - c.value) % 2 ^ 32 < 2 ^ 31)

end Sys2Proof.Machine
end

