-- ==== Sys2Proof/Machine/Control.lean ====
section
/-! DEFINITION. The K slot (spec/05_scalar_control.md R127-R149): transfers, loops, task and region markers, waiting, TRAP and ERET.
A K syllable acts after the other syllables of its bundle, so every operand of the bundle is read before it. -/

namespace Sys2Proof.Machine

/-- NOP (R79) has no effect. -/
def execNop (_ : Bool) (s : State) : Out := .next s

/-- The target of a displacement counted in bundles (R83). -/
def branchTarget (pc : Nat) (d : Int) : Nat := (((pc : Int) + 32 * d) % (2 ^ 32 : Nat)).toNat

/-- A taken transfer: the next bundle is its delay bundle (R127). -/
def State.jump (s : State) (target : Nat) : State :=
  s.onCtl fun c => { c with transfer := some { target := target, source := c.pc, close := 0, leave := false } }

/-- BR (R127): always taken. -/
def execBr (_ : Bool) (d : BitVec 24) (s : State) : Out := .next (s.jump (branchTarget s.ctl.pc d.toInt))

/-- A K operand is read: from the registers of the tile, or, in a gang's member, from the lead's alone (R310). -/
def State.touchK (s : State) (x : BitVec 7) : State := if s.tile.kval.isSome then s else s.touchS [x]

/-- BRZ (R127): taken when all 64 bits are zero. -/
def execBrz (_ : Bool) (x : BitVec 7) (d : BitVec 17) (s : State) : Out :=
  let t := s.touchK x
  .next (if s.tile.kOperand x = 0 then t.jump (branchTarget s.ctl.pc d.toInt) else t)

/-- BRNZ (R127). -/
def execBrnz (_ : Bool) (x : BitVec 7) (d : BitVec 17) (s : State) : Out :=
  let t := s.touchK x
  .next (if s.tile.kOperand x = 0 then t else t.jump (branchTarget s.ctl.pc d.toInt))

/-- JMP (R127): the target is the operand's low 32 bits. -/
def execJmp (_ : Bool) (x : BitVec 7) (s : State) : Out :=
  .next ((s.touchK x).jump ((s.tile.kOperand x).toNat % 2 ^ 32))

/-- The return offset of CALL and CALLR goes to s63 of the current bank with latency 1 and no latch (R27, R127). -/
def State.link (s : State) : State :=
  s.issue 1 (.s 63 s.ctl.handler) (.word (BitVec.ofNat 64 (s.ctl.pc + 64))) 0 false none

/-- CALL (R127). -/
def execCall (_ : Bool) (d : BitVec 24) (s : State) : Out := .next (s.link.jump (branchTarget s.ctl.pc d.toInt))

/-- CALLR (R127). -/
def execCallr (_ : Bool) (x : BitVec 7) (s : State) : Out :=
  .next ((s.touchK x).link.jump ((s.tile.kOperand x).toNat % 2 ^ 32))

/-- RET (R127): the target is s63. -/
def execRet (_ : Bool) (s : State) : Out := .next (s.jump ((s.tile.kOperand 63).toNat % 2 ^ 32))

/-- Opening a level of `n` body bundles (R129, R130). The failures are issue-kind traps. -/
def State.openLoop (s : State) (x : BitVec 7) (n : Nat) (loopm : Bool) (ii stages : Nat) : State :=
  let s := s.touchK x
  let count := (s.tile.kOperand x).toNat % 2 ^ 32
  let pc := s.ctl.pc
  let last := pc + 32 * n
  if count ≠ 0 ∧ 6 ≤ s.ctl.levels.length then s.raise causeLoopDepth 0
  else if 0xFFE0 < last then s.raiseTarget pc pc (last % 2 ^ 32)
  else if count = 0 then s.onCtl fun c => { c with skip := some (last + 32) }
  else
    s.onCtl fun c =>
      { c with levels :=
          { pass := 0, ncount := count, limit := count, baseIt := 0, first := pc + 32, last := last, loopm := loopm, ii := ii,
            stages := stages, clamped := false } :: c.levels }

/-- LOOP (R129). -/
def execLoop (_ : Bool) (x : BitVec 7) (n : BitVec 11) (s : State) : Out := .next (s.openLoop x n.toNat false 1 1)

/-- LOOPM (R129). -/
def execLoopm (_ : Bool) (x : BitVec 7) (ii : BitVec 5) (g : BitVec 3) (s : State) : Out :=
  .next (s.openLoop x ii.toNat true ii.toNat (g.toNat + 1))

/-- BRK (R133): a count above the active levels traps on every issue; a taken break closes the levels after its delay bundle. -/
def execBrk (_ : Bool) (x : BitVec 7) (n : BitVec 3) (s : State) : Out :=
  let s := s.touchK x
  let k := n.toNat + 1
  let c := s.ctl
  .next (
    if c.levels.length < k then s.raise causeLoopDepth 0
    else if s.tile.kOperand x = 0 then s
    else
      match c.levels[k - 1]? with
      | some l =>
        s.onCtl fun c => { c with transfer := some { target := l.last + 32, source := c.pc, close := k, leave := false } }
      | none => s)

/-- YIELD (R135, R137): a halt point. -/
def execYield (_ : Bool) (s : State) : Out := .next (s.onCtl fun c => { c with haltPoint := c.haltPoint || c.requested })

/-- TEND (R135, R148): the task ends, its loop stack empties and its NOPRE region closes. In a handler the
frame is discarded: its records never land. A wait of its own bundle holds the tile between the tasks, after the last one too (log 23). -/
def execTend (_ : Bool) (s : State) : Out :=
  let more := decide (s.tile.place.task + 1 < s.taskCount)
  .next (s.onTile fun t =>
    let c := { t.ctl with levels := [], nopre := false, transfer := none, handler := false }
    { t with
      ctl := { c with haltPoint := c.requested && more }
      mx := if t.ctl.handler then { t.mx with frozen := [], owned := false, saved := [], restored := [] } else t.mx
      loopBuf := []
      bufFor := none
      place := { t.place with status := if more || !c.waits.isEmpty then .starting else .ended, task := t.place.task + 1, taskFrom := s.after 2 } })

/-- TRAP (R142): the trap is taken after the bundle, before the next one issues. A gang's tile that has recorded a condition of its own
reports that one (R312). -/
def execTrap (_ : Bool) (imm : BitVec 16) (s : State) : Out :=
  .next (s.onCtl fun c =>
    { c with entry := some (c.entry.getD
        { cause := causeTrapInsn, tval := imm.setWidth 64, epc := c.pc, resume := 0, self := true, rewait := [] }) })

/-- ERET (R147): PRIV outside a handler; unrestored matrix state is DOUBLE_TRAP (R227); otherwise a transfer that leaves the
handler after its delay bundle. -/
def execEret (_ : Bool) (s : State) : Out :=
  .next (
    if !s.ctl.handler then s.raise causePriv 0
    else if s.tile.mx.owned && decide (s.tile.mx.restored.length < 69) then s.raise causeMxOwned 0
    else
      let r := match s.tile.frame with
        | some f => f.next
        | none => s.ctl.pc + 32
      s.onCtl fun c => { c with transfer := some { target := r, source := c.pc, close := 0, leave := true } })

/-- IFENCE (R139): what was written before is what fetch sees two cycles on; the loop buffer is emptied. -/
def execIfence (_ : Bool) (s : State) : Out :=
  .next ((s.onTile Tile.emptyBuffer).issue 2 .fetch (.word (BitVec.ofNat 64 s.cycle)) 0 false none)

/-- RRBSET (R134): seen by the bundles of the next cycle on. -/
def execRrbset (_ : Bool) (n : BitVec 4) (s : State) : Out := .next (s.issue 1 .rrb (.word (n.setWidth 64)) 0 false none)

/-- NOPRE (R135): opens a region when the context's node grants it, PRIV otherwise. -/
def execNopre (_ : Bool) (s : State) : Out :=
  .next (
    if s.ctl.nopre then s
    else if s.effNopre (s.ctxPath s.tile.place.ctx) then s.onCtl fun c => { c with nopre := true }
    else s.raise causePriv 0)

/-- NOPREEND (R135, R136): closes the region; a held request applies. -/
def execNopreend (_ : Bool) (s : State) : Out :=
  .next (if s.ctl.nopre then s.onCtl fun c => Control.applyRequest { c with nopre := false } else s)

/-- WAITC (R135): the next bundle issues at max(t + 1, operand). -/
def execWaitc (_ : Bool) (x : BitVec 7) (s : State) : Out :=
  .next ((s.touchK x).startWait (.cycle (s.tile.kOperand x).toNat))

/-- HALT (R140): PRIV without hypervisor privilege. -/
def execHalt (_ : Bool) (s : State) : Out :=
  .next (if s.tile.place.hvpriv then s.onPlace fun p => { p with status := .halted } else s.raise causePriv 0)

/-- STG (R132): its stages are applied when the bundle of a LOOPM body issues; anywhere else it has no effect. -/
def execStg (_ : Bool) (_ : BitVec 21) (s : State) : Out := .next s

end Sys2Proof.Machine
end

