-- ==== Sys2Proof/Machine/Scalar.lean ====
section
/-! DEFINITION. The integer, bitfield and immediate instructions of the SA and SB slots (spec/05_scalar_control.md R112-R118). -/

namespace Sys2Proof.Machine

/-- The latch of the scalar slot that executes (R35). -/
def State.sLatch (s : State) : Latch := if s.tile.slot = 1 then .b0 else .b1

/-- A scalar result of the slot that executes: it lands in register `d` of the selected bank (R27, R51, R112). -/
def State.putS (s : State) (l : Nat) (d : BitVec 6) (v : W64) (fl : Flags) (nwb : Bool) : State :=
  s.issue l (.s d.toNat s.ctl.handler) (.word v) fl nwb (some s.sLatch)

/-- An RG instruction on two scalar operands and the old destination; predicated off it has no effect (R112). -/
def State.scalarOp (s : State) (f : RG) (l : Nat) (op : W64 → W64 → W64 → W64) : State :=
  if s.tile.predOn f.pred then
    (s.touchS [f.srcA, f.srcB]).putS l f.dst (op (s.tile.scalar f.srcA) (s.tile.scalar f.srcB) (s.tile.sreg f.dst.toNat)) 0 f.nwb
  else s

/-- An RI instruction (R117): the immediate is sign-extended. -/
def State.immOp (s : State) (f : RI) (op : W64 → W64 → W64) : State :=
  (s.touchS [f.srcA]).putS 1 f.dst (op (s.tile.scalar f.srcA) (f.imm.signExtend 64)) 0 false

/-- A truth value as a result. -/
def ofBool (b : Bool) : W64 := if b then 1 else 0

/-- Signed division truncated toward zero, with R115's results. -/
def sdivWord (a b : W64) : W64 := if b = 0 then BitVec.allOnes 64 else BitVec.ofInt 64 (a.toInt.tdiv b.toInt)
/-- The signed remainder with the sign of the dividend (R115). -/
def sremWord (a b : W64) : W64 := if b = 0 then a else BitVec.ofInt 64 (a.toInt.tmod b.toInt)
/-- Unsigned division and remainder (R115). -/
def udivWord (a b : W64) : W64 := if b = 0 then BitVec.allOnes 64 else BitVec.ofNat 64 (a.toNat / b.toNat)
def uremWord (a b : W64) : W64 := if b = 0 then a else BitVec.ofNat 64 (a.toNat % b.toNat)

/-- The shift amount b[5:0]. -/
def amount (b : W64) : Nat := b.toNat % 64

/-- Zeros above the highest set bit among the `n` low bits. -/
def leadingZeros (a : W64) : Nat → Nat
  | 0 => 0
  | n + 1 => if a.getLsbD n then 0 else 1 + leadingZeros a n
/-- Zeros below the lowest set bit, looking at `n` bits from bit 64 - n on. -/
def trailingZeros (a : W64) : Nat → Nat
  | 0 => 0
  | n + 1 => if a.getLsbD (63 - n) then 0 else 1 + trailingZeros a n
/-- Set bits among the `n` low bits. -/
def bitCount {w : Nat} (a : BitVec w) : Nat → Nat
  | 0 => 0
  | n + 1 => (if a.getLsbD n then 1 else 0) + bitCount a n

/-- The mask of a bitfield of length b[12:6], at most 64 (R116). -/
def fieldMask (b : W64) : W64 := BitVec.ofNat 64 (2 ^ min (bitsOf b.toNat 6 7) 64 - 1)
def extract (a b : W64) : W64 := (a >>> amount b) &&& fieldMask b
def insert (a b d : W64) : W64 := (d &&& ~~~(fieldMask b <<< amount b)) ||| ((a &&& fieldMask b) <<< amount b)

/-- ADD (R114). -/
def execAdd (f : RG) (s : State) : Out := .next (s.scalarOp f 1 fun a b _ => a + b)

/-- SUB (R114). -/
def execSub (f : RG) (s : State) : Out := .next (s.scalarOp f 1 fun a b _ => a - b)

/-- MUL (R114). -/
def execMul (f : RG) (s : State) : Out := .next (s.scalarOp f 3 fun a b _ => a * b)

/-- MULH (R114). -/
def execMulh (f : RG) (s : State) : Out := .next (s.scalarOp f 3 fun a b _ => (((a.signExtend 128) * (b.signExtend 128)).extractLsb' 64 64))

/-- MULHU (R114). -/
def execMulhu (f : RG) (s : State) : Out := .next (s.scalarOp f 3 fun a b _ => (((a.setWidth 128) * (b.setWidth 128)).extractLsb' 64 64))

/-- DIV (R114, R115). -/
def execDiv (f : RG) (s : State) : Out := .next (s.scalarOp f 18 fun a b _ => sdivWord a b)

/-- DIVU (R114, R115). -/
def execDivu (f : RG) (s : State) : Out := .next (s.scalarOp f 18 fun a b _ => udivWord a b)

/-- REM (R114, R115). -/
def execRem (f : RG) (s : State) : Out := .next (s.scalarOp f 18 fun a b _ => sremWord a b)

/-- REMU (R114, R115). -/
def execRemu (f : RG) (s : State) : Out := .next (s.scalarOp f 18 fun a b _ => uremWord a b)

/-- AND (R114). -/
def execAnd (f : RG) (s : State) : Out := .next (s.scalarOp f 1 fun a b _ => a &&& b)

/-- OR (R114). -/
def execOr (f : RG) (s : State) : Out := .next (s.scalarOp f 1 fun a b _ => a ||| b)

/-- XOR (R114). -/
def execXor (f : RG) (s : State) : Out := .next (s.scalarOp f 1 fun a b _ => a ^^^ b)

/-- ANDN (R114). -/
def execAndn (f : RG) (s : State) : Out := .next (s.scalarOp f 1 fun a b _ => a &&& ~~~b)

/-- ORN (R114). -/
def execOrn (f : RG) (s : State) : Out := .next (s.scalarOp f 1 fun a b _ => a ||| ~~~b)

/-- SEL (R114). -/
def execSel (f : RG) (s : State) : Out := .next (s.scalarOp f 1 fun a b d => if d ≠ 0 then a else b)

/-- SHL (R114). -/
def execShl (f : RG) (s : State) : Out := .next (s.scalarOp f 1 fun a b _ => a <<< amount b)

/-- SHR (R114). -/
def execShr (f : RG) (s : State) : Out := .next (s.scalarOp f 1 fun a b _ => a >>> amount b)

/-- SRA (R114). -/
def execSra (f : RG) (s : State) : Out := .next (s.scalarOp f 1 fun a b _ => a.sshiftRight (amount b))

/-- ROTL (R114). -/
def execRotl (f : RG) (s : State) : Out := .next (s.scalarOp f 1 fun a b _ => a.rotateLeft (amount b))

/-- CMPEQ (R114). -/
def execCmpeq (f : RG) (s : State) : Out := .next (s.scalarOp f 1 fun a b _ => ofBool (a == b))

/-- CMPNE (R114). -/
def execCmpne (f : RG) (s : State) : Out := .next (s.scalarOp f 1 fun a b _ => ofBool (a != b))

/-- CMPLT (R114). -/
def execCmplt (f : RG) (s : State) : Out := .next (s.scalarOp f 1 fun a b _ => ofBool (a.slt b))

/-- CMPLTU (R114). -/
def execCmpltu (f : RG) (s : State) : Out := .next (s.scalarOp f 1 fun a b _ => ofBool (a.ult b))

/-- CMPLE (R114). -/
def execCmple (f : RG) (s : State) : Out := .next (s.scalarOp f 1 fun a b _ => ofBool (a.sle b))

/-- CMPLEU (R114). -/
def execCmpleu (f : RG) (s : State) : Out := .next (s.scalarOp f 1 fun a b _ => ofBool (a.ule b))

/-- MIN (R114). -/
def execMin (f : RG) (s : State) : Out := .next (s.scalarOp f 1 fun a b _ => if b.slt a then b else a)

/-- MAX (R114). -/
def execMax (f : RG) (s : State) : Out := .next (s.scalarOp f 1 fun a b _ => if a.slt b then b else a)

/-- MINU (R114). -/
def execMinu (f : RG) (s : State) : Out := .next (s.scalarOp f 1 fun a b _ => if b.ult a then b else a)

/-- MAXU (R114). -/
def execMaxu (f : RG) (s : State) : Out := .next (s.scalarOp f 1 fun a b _ => if a.ult b then b else a)

/-- CLZ (R114). -/
def execClz (f : RG) (s : State) : Out := .next (s.scalarOp f 1 fun a _ _ => BitVec.ofNat 64 (leadingZeros a 64))

/-- CTZ (R114). -/
def execCtz (f : RG) (s : State) : Out := .next (s.scalarOp f 1 fun a _ _ => BitVec.ofNat 64 (trailingZeros a 64))

/-- POPC (R114). -/
def execPopc (f : RG) (s : State) : Out := .next (s.scalarOp f 1 fun a _ _ => BitVec.ofNat 64 (bitCount a 64))

/-- EXT (R116). -/
def execExt (f : RG) (s : State) : Out := .next (s.scalarOp f 1 fun a b _ => extract a b)

/-- INS (R116). -/
def execIns (f : RG) (s : State) : Out := .next (s.scalarOp f 1 fun a b d => insert a b d)

/-- ADDI (R117). -/
def execAddi (f : RI) (s : State) : Out := .next (s.immOp f fun a i => a + i)

/-- ANDI (R117). -/
def execAndi (f : RI) (s : State) : Out := .next (s.immOp f fun a i => a &&& i)

/-- ORI (R117). -/
def execOri (f : RI) (s : State) : Out := .next (s.immOp f fun a i => a ||| i)

/-- XORI (R117). -/
def execXori (f : RI) (s : State) : Out := .next (s.immOp f fun a i => a ^^^ i)

/-- SHLI (R117). -/
def execShli (f : RI) (s : State) : Out := .next (s.immOp f fun a i => a <<< amount i)

/-- SHRI (R117). -/
def execShri (f : RI) (s : State) : Out := .next (s.immOp f fun a i => a >>> amount i)

/-- SRAI (R117). -/
def execSrai (f : RI) (s : State) : Out := .next (s.immOp f fun a i => a.sshiftRight (amount i))

/-- CMPEQI (R117). -/
def execCmpeqi (f : RI) (s : State) : Out := .next (s.immOp f fun a i => ofBool (a == i))

/-- CMPLTI (R117). -/
def execCmplti (f : RI) (s : State) : Out := .next (s.immOp f fun a i => ofBool (a.slt i))

/-- CMPLTUI (R117). -/
def execCmpltui (f : RI) (s : State) : Out := .next (s.immOp f fun a i => ofBool (a.ult i))

/-- MOVI (R118). -/
def execMovi (f : I20) (s : State) : Out := .next (s.putS 1 f.dst (f.imm.signExtend 64) 0 false)

/-- MOVHI (R118): the immediate above the destination's low 12 bits, sign-extended from bit 31. -/
def execMovhi (f : I20) (s : State) : Out :=
  .next (s.putS 1 f.dst ((f.imm ++ (s.tile.sreg f.dst.toNat).extractLsb' 0 12).signExtend 64) 0 false)

/-- MOVFI (R118): the high 20 bits of an FP32 word. -/
def execMovfi (f : I20) (s : State) : Out := .next (s.putS 1 f.dst (f.imm.setWidth 64 <<< 12) 0 false)

end Sys2Proof.Machine
end

