-- ==== Sys2Proof/Machine/Float.lean ====
section
/-! DEFINITION. The FP32 and tapered scalar instructions (spec/05_scalar_control.md R119-R121). -/

namespace Sys2Proof.Machine

/-- An RG instruction that delivers a word and its flags; predicated off it has no effect, and none is an ILLEGAL_OPERAND of its
execution (R37, R112). -/
def State.floatOp (s : State) (f : RG) (l : Nat) (op : W64 → W64 → W64 → Option (W64 × Flags)) : State :=
  if s.tile.predOn f.pred then
    match op (s.tile.scalar f.srcA) (s.tile.scalar f.srcB) (s.tile.sreg f.dst.toNat) with
    | some (w, fl) => (s.touchS [f.srcA, f.srcB]).putS l f.dst w fl f.nwb
    | none => s.raise causeIllegalOperand 0
  else s

/-- An FP32 operation on decoded operands, rounded once with the rounding in force. -/
def State.fpRounded (s : State) (f : RG) (l : Nat) (op : Val → Val → Val → OpRes) (ternary : Bool) : State :=
  match s.tile.rounding fp32 with
  | none => if s.tile.predOn f.pred then s.raise causeIllegalOperand 0 else s
  | some r =>
    (if s.tile.predOn f.pred then s.touchR r else s).floatOp f l fun a b d =>
      let (x, fa) := f32 a
      let (y, fb) := f32 b
      let (z, fd) := if ternary then f32 d else (.zero, 0)
      let (w, fl) := (op x y z).deliver true fp32 r.scalarWord
      some (BitVec.ofNat 64 w, fa ||| fb ||| fd ||| fl)

/-- FADD (R119). -/
def execFadd (f : RG) (s : State) : Out := .next (s.fpRounded f 4 (fun a b _ => vadd a b) false)

/-- FSUB (R119). -/
def execFsub (f : RG) (s : State) : Out := .next (s.fpRounded f 4 (fun a b _ => vadd a b.neg) false)

/-- FMUL (R119). -/
def execFmul (f : RG) (s : State) : Out := .next (s.fpRounded f 4 (fun a b _ => vmul a b) false)

/-- FFMA (R119): a × b + d with one rounding. -/
def execFfma (f : RG) (s : State) : Out := .next (s.fpRounded f 4 vfma true)

/-- FDIV (R119). -/
def execFdiv (f : RG) (s : State) : Out := .next (s.fpRounded f 14 (fun a b _ => vdiv true a b) false)

/-- FSQRT (R119). -/
def execFsqrt (f : RG) (s : State) : Out := .next (s.fpRounded { f with srcB := 0 } 14 (fun a _ _ => vsqrt true a) false)

/-- FMIN and FMAX choose a word without rounding. -/
def fpMinMax (greater : Bool) (a b : W64) : Option (W64 × Flags) :=
  let (x, fa) := f32 a
  let (y, fb) := f32 b
  some (BitVec.ofNat 64 (fp32.rnd (vminmax greater false false x y) none).1, fa ||| fb)

/-- FMIN (R119). -/
def execFmin (f : RG) (s : State) : Out := .next (s.floatOp f 4 fun a b _ => fpMinMax false a b)

/-- FMAX (R119). -/
def execFmax (f : RG) (s : State) : Out := .next (s.floatOp f 4 fun a b _ => fpMinMax true a b)

/-- A compare: NV for a signalling NaN, and for an ordered compare for any NaN (R119). -/
def fpCompare (ordered : Bool) (rel : Val → Val → Bool) (a b : W64) : Option (W64 × Flags) :=
  let (x, fa) := f32 a
  let (y, fb) := f32 b
  let nan := x.isNan || y.isNan
  some (ofBool (!nan && rel x y), fa ||| fb ||| (if ordered && nan then Flag.NV else 0))

/-- FCMPEQ (R119). -/
def execFcmpeq (f : RG) (s : State) : Out := .next (s.floatOp f 4 fun a b _ => fpCompare false Val.eqv a b)

/-- FCMPLT (R119). -/
def execFcmplt (f : RG) (s : State) : Out := .next (s.floatOp f 4 fun a b _ => fpCompare true Val.lt a b)

/-- FCMPLE (R119). -/
def execFcmple (f : RG) (s : State) : Out :=
  .next (s.floatOp f 4 fun a b _ => fpCompare true (fun x y => x.lt y || x.eqv y) a b)

/-- A word of a format in a scalar register: a signed integer is sign-extended, any other zero-extended (R120). -/
def Fmt.toScalar (f : Fmt) (w : Nat) : W64 :=
  match f with
  | .int true n => BitVec.ofInt 64 (signedOf w n)
  | _ => BitVec.ofNat 64 w

/-- FCVT (R120): srcB is the direction and the other format. -/
def execFcvt (f : RG) (s : State) : Out :=
  let toF := f.srcB.getLsbD 6
  let g := { f with srcB := 0 }
  .next (
    match Fmt.ofCode (f.srcB.toNat % 32) with
    | none => if s.tile.predOn f.pred then s.raise causeIllegalOperand 0 else s
    | some other =>
      let (src, dst) := if toF then (fp32, other) else (other, fp32)
      match s.tile.rounding dst with
      | none => if s.tile.predOn f.pred then s.raise causeIllegalOperand 0 else s
      | some r =>
        (if s.tile.predOn f.pred then s.touchR r else s).floatOp g 4 fun a _ _ =>
          let (x, fa) := src.xval (a.toNat % 2 ^ src.width)
          let (w, fl) := dst.rnd x r.scalarWord
          some (Fmt.toScalar dst w, fa ||| fl))

/-- The formats of a tapered scalar instruction: each of the three names T8, T16 or T32 (R121). -/
def Tile.taperedFmts (t : Tile) : Option (Fmt × Fmt × Fmt) :=
  match t.aFmt, t.bFmt, t.dFmt with
  | some a, some b, some d =>
    if a.isTap && b.isTap && d.isTap && decide (8 ≤ a.width) && decide (8 ≤ b.width) && decide (8 ≤ d.width) then some (a, b, d)
    else none
  | _, _, _ => none

/-- A tapered scalar operation, rounded once. -/
def State.taperedOp (s : State) (f : RG) (op : Val → Val → Val → OpRes) : State :=
  if s.tile.predOn f.pred then
    match s.tile.taperedFmts with
    | none => s.raise causeIllegalOperand 0
    | some (fa, fb, fd) =>
      match s.tile.rounding fd with
      | none => s.raise causeIllegalOperand 0
      | some r =>
        (s.touchR r).floatOp f 5 fun a b d =>
          let (x, _) := fa.xval a.toNat
          let (y, _) := fb.xval b.toNat
          let (z, _) := fd.xval d.toNat
          let (w, fl) := (op x y z).deliver false fd r.scalarWord
          some (BitVec.ofNat 64 w, fl)
  else s

/-- TADD (R121). -/
def execTadd (f : RG) (s : State) : Out := .next (s.taperedOp f fun a b _ => vadd a b)

/-- TMUL (R121). -/
def execTmul (f : RG) (s : State) : Out := .next (s.taperedOp f fun a b _ => vmul a b)

/-- TFMA (R121). -/
def execTfma (f : RG) (s : State) : Out := .next (s.taperedOp f vfma)

end Sys2Proof.Machine
end

