-- ==== Sys2Proof/Machine/Address.lean ====
section
/-! DEFINITION. Address registers and the loop update table, control registers, topology, the cycle counter and the predicate
summaries (spec/05_scalar_control.md R122-R126, spec/02_tile.md R36). -/

namespace Sys2Proof.Machine

/-- A result for an address register: 32 bits. -/
def State.putA (s : State) (d : BitVec 6) (v : W32) (nwb : Bool) : State :=
  s.issue 1 (.a d.toNat) (.word (v.setWidth 64)) 0 nwb (some s.sLatch)

/-- AMOV (R122). -/
def execAmov (f : RG) (s : State) : Out :=
  .next (if s.tile.predOn f.pred then (s.touchS [f.srcA]).putA f.dst ((s.tile.scalar f.srcA).setWidth 32) f.nwb else s)

/-- AADDI (R122). -/
def execAaddi (f : RI) (s : State) : Out :=
  .next ((s.touchS [f.srcA]).putA f.dst ((s.tile.scalar f.srcA).setWidth 32 + f.imm.signExtend 32) false)

/-- AREAD (R122): the delta of a register and a level, sign-extended. -/
def execAread (f : RG) (s : State) : Out :=
  .next (
    if s.tile.predOn f.pred then
      s.putS 1 f.dst ((rd s.tile.regs.table (6 * f.srcA.toNat + f.srcB.toNat)).signExtend 64) 0 f.nwb
    else s)

/-- ADELTA (R122): loop-backs of the next cycle on use the new delta. -/
def execAdelta (f : RG) (s : State) : Out :=
  .next (
    if s.tile.predOn f.pred then
      (s.touchS [f.srcA]).issue 1 (.table f.dst.toNat f.srcB.toNat) (.word (((s.tile.scalar f.srcA).setWidth 32).setWidth 64)) 0 f.nwb
        (some s.sLatch)
    else s)

/-- LIDX (R122, R130): BASEIT + PASS of an active level, counted from the outermost; zero for another. -/
def execLidx (f : RI) (s : State) : Out :=
  .next (s.putS 1 f.dst
    (match s.ctl.levels.reverse[f.imm.toNat]? with
      | some l => BitVec.ofNat 64 (l.baseIt + l.pass)
      | none => 0) 0 false)

/-- The value of a control register; none for a number that R36 does not list. -/
def Tile.readCsr (t : Tile) (n : Nat) : Option W64 :=
  if n = 0x001 then some (t.csr.vfmt.setWidth 64)
  else if n = 0x002 then some (t.csr.tstat.setWidth 64)
  else if n = 0x003 then some (t.csr.ten.setWidth 64)
  else if n = 0x004 then some (t.regs.rrb.setWidth 64)
  else if n = 0x005 then some t.csr.seed
  else if n = 0x006 then some (t.csr.clamp.setWidth 64)
  else if n = 0x010 then some (t.csr.tcause.setWidth 64)
  else if n = 0x011 then some (t.csr.epc.setWidth 64)
  else if 0x040 ≤ n ∧ n < 0x048 then some (rd t.regs.s (56 + (n - 0x040)))
  else none

/-- SBK0-7 are for handlers alone. -/
def handlerCsr (n : Nat) : Bool := decide (0x040 ≤ n) && decide (n < 0x048)
/-- RRB, CLAMPCOUNT, TCAUSE and EPC are read-only. -/
def readOnlyCsr (n : Nat) : Bool := [0x004, 0x006, 0x010, 0x011].contains n

/-- CSRR (R123): the checks of R36 are made here. -/
def execCsrr (f : RI) (s : State) : Out :=
  let n := f.imm.toNat
  .next (
    match s.tile.readCsr n with
    | none => s.raise causeIllegalOperand n
    | some w => if handlerCsr n && !s.ctl.handler then s.raise causePriv n else s.putS 1 f.dst w 0 false)

/-- What a write of a control register becomes: bundles of the next cycle see it (R123). TSTAT is cleared by ones. -/
def csrDest (n : Nat) : Dest :=
  if n = 0x001 then .vfmt 0xFFFFFFFF
  else if n = 0x002 then .tstat
  else if n = 0x003 then .ten
  else if n = 0x005 then .seed
  else .sbk (n - 0x040)

/-- CSRW (R123). -/
def execCsrw (f : RI) (s : State) : Out :=
  let n := f.imm.toNat
  .next (
    match s.tile.readCsr n with
    | none => s.raise causeIllegalOperand n
    | some _ =>
      if readOnlyCsr n || (handlerCsr n && !s.ctl.handler) then s.raise causePriv n
      else (s.touchS [f.srcA]).issue 1 (csrDest n) (.word (s.tile.scalar f.srcA)) 0 false (some s.sLatch))

/-- A field of the tile's place (R124). -/
def State.topo (s : State) (n : Nat) : Nat :=
  let p := s.tile.place
  match n with
  | 0 => p.gx
  | 1 => p.gy
  | 2 => p.gw
  | 3 => p.gh
  | 4 => p.glast
  | 5 => p.gw * (p.gh - 1) + p.glast
  | 6 => p.gy * p.gw + p.gx
  | 7 => s.cur % 384
  | 8 => s.cur / 384
  | 9 => s.globals.modIdx
  | 10 => p.dx % 256 + 2 ^ 8 * (p.dy % 256) + 2 ^ 16 * (p.gangW % 256) + 2 ^ 24 * (p.gangH % 256)
  | 11 => p.partition
  | 12 => p.ctx
  | _ => p.kseq

/-- TOPO (R124). -/
def execTopo (f : RI) (s : State) : Out := .next (s.putS 1 f.dst (BitVec.ofNat 64 (s.topo f.imm.toNat)) 0 false)

/-- RDCYC (R125): the global cycle counter in the issue cycle. -/
def execRdcyc (f : RG) (s : State) : Out :=
  .next (if s.tile.predOn f.pred then s.putS 1 f.dst (BitVec.ofNat 64 s.cycle) 0 f.nwb else s)

/-- The governing bits of a predicate for a width code: all of them, or one for each element (R32, R126). -/
def governing (m : PReg) (code : Nat) : PReg × Nat :=
  let step := if code = 1 then 2 else if code = 2 then 4 else 1
  let every := BitVec.ofNat 256 ((2 ^ 256 - 1) / (2 ^ step - 1))
  (m &&& every, 256 / step)

/-- A summary of the predicate that srcA names (R126). -/
def State.summary (s : State) (f : RG) (get : Nat → Nat → W64) : State :=
  if s.tile.predOn f.pred then
    let (m, n) := governing (s.tile.preg (f.srcA.toNat % 8)) f.srcB.toNat
    s.putS 1 f.dst (get (bitCount m 256) n) 0 f.nwb
  else s

/-- PANY (R126). -/
def execPany (f : RG) (s : State) : Out := .next (s.summary f fun k _ => ofBool (k != 0))

/-- PALL (R126). -/
def execPall (f : RG) (s : State) : Out := .next (s.summary f fun k n => ofBool (k == n))

/-- PCNT (R126): active elements, two for each bit with 4-bit elements. -/
def execPcnt (f : RG) (s : State) : Out :=
  .next (s.summary f fun k _ => BitVec.ofNat 64 (if f.srcB.toNat = 3 then 2 * k else k))

end Sys2Proof.Machine
end

