-- ==== Sys2Proof/Machine/Sha.lean ====
section
/-! DEFINITION. SHA-256 and HMAC-SHA-256 on bytes, as the published standards give them (spec/07_vector.md R206,
spec/10_context.md R263, R271). -/

namespace Sys2Proof.Sha

def rotr (x n : Nat) : Nat := x / 2 ^ n + x % 2 ^ n * 2 ^ (32 - n)
def notW (x : Nat) : Nat := 2 ^ 32 - 1 - x

/-- The integer part of a `k`-th root below `2 ^ n` that extends `r`, bit by bit. -/
def rootBelow (k x : Nat) : Nat → Nat → Nat
  | 0, r => r
  | n + 1, r => rootBelow k x n (if (r + 2 ^ n) ^ k ≤ x then r + 2 ^ n else r)

/-- The primes below 312, of which there are 64. -/
def primes : List Nat := (List.range 312).filter fun n => decide (2 ≤ n) && [2, 3, 5, 7, 11, 13, 17].all fun d => n == d || n % d != 0

/-- The first 32 bits of the fraction of a prime's `k`-th root. -/
def rootFraction (k p : Nat) : Nat := rootBelow k (p * 2 ^ (32 * k)) 37 0 % 2 ^ 32

/-- The constants of the 64 rounds: cube roots. -/
def kTable : List Nat := primes.map (rootFraction 3)

/-- The initial hash value: square roots of the first eight primes. -/
def h0 : List Nat := (primes.take 8).map (rootFraction 2)

/-- The message schedule, newest word first, extended by `n` words. -/
def extend : Nat → List Nat → List Nat
  | 0, ws => ws
  | n + 1, ws =>
    let w2 := ws.getD 1 0
    let w7 := ws.getD 6 0
    let w15 := ws.getD 14 0
    let w16 := ws.getD 15 0
    let s0 := rotr w15 7 ^^^ rotr w15 18 ^^^ w15 / 2 ^ 3
    let s1 := rotr w2 17 ^^^ rotr w2 19 ^^^ w2 / 2 ^ 10
    extend n (((w16 + s0 + w7 + s1) % 2 ^ 32) :: ws)

/-- One round on the eight working variables. -/
def round (v : List Nat) (kw : Nat × Nat) : List Nat :=
  match v with
  | [a, b, c, d, e, f, g, h] =>
    let s1 := rotr e 6 ^^^ rotr e 11 ^^^ rotr e 25
    let ch := (e &&& f) ^^^ (notW e &&& g)
    let t1 := (h + s1 + ch + kw.1 + kw.2) % 2 ^ 32
    let s0 := rotr a 2 ^^^ rotr a 13 ^^^ rotr a 22
    let mj := (a &&& b) ^^^ (a &&& c) ^^^ (b &&& c)
    [(t1 + s0 + mj) % 2 ^ 32, a, b, c, (d + t1) % 2 ^ 32, e, f, g]
  | _ => v

/-- The compression function on the sixteen words of one block. -/
def compress (h : List Nat) (block : List Nat) : List Nat :=
  let ws := (extend 48 block.reverse).reverse
  let v := (kTable.zip ws).foldl round h
  List.zipWith (fun a b => (a + b) % 2 ^ 32) h v

/-- Four bytes as a big-endian word. -/
def be32 (bs : List Nat) : Nat := bs.foldl (fun a b => a * 256 + b) 0

/-- A word as four big-endian bytes. -/
def toBe (w : Nat) : List Nat := [w / 2 ^ 24 % 256, w / 2 ^ 16 % 256, w / 2 ^ 8 % 256, w % 256]

/-- The words of a byte list, `n` of them. -/
def words : Nat → List Nat → List Nat
  | 0, _ => []
  | n + 1, bs => be32 (bs.take 4) :: words n (bs.drop 4)

/-- Compress `n` blocks of 64 bytes. -/
def blocks : Nat → List Nat → List Nat → List Nat
  | 0, h, _ => h
  | n + 1, h, bs => blocks n (compress h (words 16 (bs.take 64))) (bs.drop 64)

/-- The padding of a message of `n` bytes. -/
def padding (n : Nat) : List Nat :=
  let z := (119 - n % 64) % 64
  0x80 :: List.replicate z 0 ++ toBe (n * 8 / 2 ^ 32) ++ toBe (n * 8 % 2 ^ 32)

/-- SHA-256 of a byte list, as 32 bytes. -/
def sha256 (msg : List Nat) : List Nat :=
  let m := msg ++ padding msg.length
  (blocks (m.length / 64) h0 m).flatMap toBe

/-- HMAC-SHA-256 with a key of at most 64 bytes. -/
def hmac (key msg : List Nat) : List Nat :=
  let k := key ++ List.replicate (64 - key.length) 0
  sha256 (k.map (· ^^^ 0x5c) ++ sha256 (k.map (· ^^^ 0x36) ++ msg))

end Sys2Proof.Sha
end

