-- ==== Sys2Proof/Machine/Aes.lean ====
section
/-! DEFINITION. AES-256 in Galois/counter mode on bytes, as the published standards give it (spec/10_context.md R272). -/

namespace Sys2Proof.Aes

/-! ### The block cipher -/

/-- The substitution of bytes: byte x is bits [8x+7:8x]. -/
def sboxTable : Nat :=
  0x16bb54b00f2d99416842e6bf0d89a18cdf2855cee9871e9b948ed9691198f8e19e1dc186b95735610ef6034866b53e708a8bbd4b1f74dde8c6b4a61c2e2578ba08ae7a65eaf4566ca94ed58d6d37c8e779e4959162acd3c25c2406490a3a32e0db0b5ede14b8ee4688902a22dc4f816073195d643d7ea7c41744975fec130ccdd2f3ff1021dab6bcf5389d928f40a351a89f3c507f02f94585334d43fbaaefd0cf584c4a39becb6a5bb1fc20ed00d153842fe329b3d63b52a05a6e1b1a2c830975b227ebe28012079a059618c323c7041531d871f1e5a534ccf73f362693fdb7c072a49cafa2d4adf04759fa7dc982ca76abd7fe2b670130c56f6bf27b777c63
def sbox (x : Nat) : Nat := sboxTable / 2 ^ (8 * x) % 256

def xtime (x : Nat) : Nat := if x < 128 then 2 * x else (2 * x) ^^^ 0x11B

/-- Bytes of two lists, added. -/
def addBytes (a b : List Nat) : List Nat := List.zipWith (fun x y => x ^^^ y) a b

/-- Row r of the state moves r columns to the left; the state is a list of columns. -/
def shiftRows (st : List Nat) : List Nat := (List.range 16).map fun i => st.getD ((i + 4 * (i % 4)) % 16) 0

/-- One byte of a mixed column. -/
def mixByte (st : List Nat) (i : Nat) : Nat :=
  let at_ := fun k => st.getD (i / 4 * 4 + (i + k) % 4) 0
  xtime (at_ 0) ^^^ (xtime (at_ 1) ^^^ at_ 1) ^^^ at_ 2 ^^^ at_ 3
def mixColumns (st : List Nat) : List Nat := (List.range 16).map (mixByte st)

/-- The next word of the key schedule: number `i`, from the word before it and the one eight before it. -/
def keyWord (i rcon : Nat) (prev old : List Nat) : List Nat :=
  if i % 8 = 0 then addBytes old (addBytes ((prev.drop 1 ++ prev.take 1).map sbox) [rcon, 0, 0, 0])
  else if i % 8 = 4 then addBytes old (prev.map sbox)
  else addBytes old prev

/-- The key schedule, newest word first: `n` more words from word `i` on. -/
def schedule : Nat → Nat → Nat → List (List Nat) → List (List Nat)
  | 0, _, _, ws => ws
  | n + 1, i, rcon, ws =>
    schedule n (i + 1) (if i % 8 = 0 then xtime rcon else rcon) (keyWord i rcon (ws.headD []) (ws.getD 7 []) :: ws)

/-- The words of a 32-byte key. -/
def keyWords (key : List Nat) : List (List Nat) := (List.range 8).map fun i => (key.drop (4 * i)).take 4

/-- The fifteen round keys. -/
def roundKeys (key : List Nat) : List (List Nat) :=
  let ws := (schedule 52 8 1 (keyWords key).reverse).reverse
  (List.range 15).map fun r => ((ws.drop (4 * r)).take 4).flatten

/-- The rounds after the first key: the last one mixes no columns. -/
def rounds : List (List Nat) → List Nat → List Nat
  | [], st => st
  | [k], st => addBytes (shiftRows (st.map sbox)) k
  | k :: ks, st => rounds ks (addBytes (mixColumns (shiftRows (st.map sbox))) k)

/-- A block enciphered under round keys. -/
def cipher (ks : List (List Nat)) (block : List Nat) : List Nat := rounds (ks.drop 1) (addBytes block (ks.headD []))

/-! ### Galois/counter mode -/

/-- Bytes as one number, the first the most significant, and back. -/
def toNum (bs : List Nat) : Nat := bs.foldl (fun a b => a * 256 + b) 0
def ofNum : Nat → Nat → List Nat
  | 0, _ => []
  | n + 1, v => ofNum n (v / 256) ++ [v % 256]

/-- The product in the field of the hash: the most significant bit is the coefficient of x^0. -/
def mulFrom (x : Nat) : Nat → Nat → Nat → Nat
  | 0, _, z => z
  | n + 1, v, z => mulFrom x n (if v % 2 = 0 then v / 2 else (v / 2) ^^^ (0xE1 * 2 ^ 120)) (if x.testBit n then z ^^^ v else z)
def mul (x y : Nat) : Nat := mulFrom x 128 y 0

/-- Bytes filled up with zeros to whole blocks. -/
def pad16 (bs : List Nat) : List Nat := bs ++ List.replicate ((16 - bs.length % 16) % 16) 0

/-- The hash of `n` blocks. -/
def ghash (h : Nat) : Nat → List Nat → Nat → Nat
  | 0, _, y => y
  | n + 1, bs, y => ghash h n (bs.drop 16) (mul (y ^^^ toNum (bs.take 16)) h)

/-- The counter block of a 96-bit nonce. -/
def counterBlock (nonce : List Nat) (n : Nat) : List Nat := nonce ++ ofNum 4 n

/-- `n` blocks of text under the counters from `c` on. -/
def stream (ks : List (List Nat)) (nonce : List Nat) : Nat → Nat → List Nat → List Nat
  | 0, _, _ => []
  | n + 1, c, bs => addBytes (bs.take 16) (cipher ks (counterBlock nonce c)) ++ stream ks nonce n (c + 1) (bs.drop 16)

/-- The ciphertext and its tag, 16 bytes, of a text with associated data under a 96-bit nonce. -/
def gcm (key nonce ad text : List Nat) : List Nat × List Nat :=
  let ks := roundKeys key
  let h := toNum (cipher ks (List.replicate 16 0))
  let ct := stream ks nonce ((text.length + 15) / 16) 2 text
  let hashed := pad16 ad ++ pad16 ct ++ ofNum 8 (8 * ad.length) ++ ofNum 8 (8 * ct.length)
  let s := ghash h (hashed.length / 16) hashed 0
  (ct, addBytes (ofNum 16 s) (cipher ks (counterBlock nonce 1)))

end Sys2Proof.Aes
end

