-- ==== Sys2Proof/Machine/LoadStore.lean ====
section
/-! DEFINITION. Loads and stores of the LS slot (spec/06_memory_sync_ops.md R150-R162). -/

namespace Sys2Proof.Machine

/-! ### Effective offsets (R88, R151) -/

/-- The scratchpad's size. -/
def spadBytes : Nat := 0x60000

/-- The effective offset of a memory form whose mode-0b00 displacement counts `unit` bytes. -/
def Tile.offset (t : Tile) (f : Mem) (unit : Nat) : Nat :=
  let a := rd t.regs.a f.base.toNat
  if f.mode = 0 then (a + f.off.signExtend 32 * BitVec.ofNat 32 unit).toNat
  else if f.mode = 1 then a.toNat
  else (a + (t.scalar f.index).setWidth 32).toNat

/-- The index operand of mode 0b10 is read. -/
def State.touchIndex (s : State) (f : Mem) : State := if f.mode = 2 then s.touchS [f.index] else s

/-- The post-increment of mode 0b01: a scalar result of latency 1 with no latch. -/
def State.postInc (s : State) (f : Mem) (step : Nat) : State :=
  if f.mode = 1 then
    s.issue 1 (.a f.base.toNat) (.word ((rd s.tile.regs.a f.base.toNat + BitVec.ofNat 32 step).setWidth 64)) 0 false none
  else s

/-- The checks of R151 for `n` bytes at `o`, below `limit`; the access follows when they pass. -/
def State.checked (s : State) (o n align limit : Nat) (k : State → State) : State :=
  if limit < o + n then s.raise causeSpadRange o
  else if o % align ≠ 0 then s.raise causeMisalignedAccess o
  else k s

/-- A store: its bytes are written `l` cycles after issue (R52). -/
def State.store (s : State) (l : Nat) (k : StoreKind) (cs : List Host.Cell) : State :=
  s.onIo fun p => { p with stores := p.stores ++ [{ due := s.after l, issued := s.cycle, kind := k, cells := cs }] }

/-- The offsets of consecutive bytes. -/
def span (o n : Nat) : List Nat := (List.range n).map (o + ·)

/-! ### Scalar loads and stores (R153) -/

/-- A scalar load of `n` bytes. -/
def State.loadScalar (s : State) (f : Mem) (n : Nat) (ext : Nat → W64) : State :=
  if s.tile.predOn f.pred then
    let o := s.tile.offset f n
    (s.touchIndex f).checked o n n spadBytes fun s =>
      ((s.postInc f n).issue 3 (.s f.reg.toNat s.ctl.handler) (.word (ext (s.tile.spad.nat o n))) 0 false (some .b2)).touchSpad
        (span o n)
  else s

/-- A scalar store of `n` bytes. -/
def State.storeScalar (s : State) (f : Mem) (n : Nat) : State :=
  if s.tile.predOn f.pred then
    let o := s.tile.offset f n
    (s.touchIndex f).checked o n n spadBytes fun s =>
      (s.postInc f n).store 1 .spad (cellsAt o (natBytes (s.tile.sreg f.reg.toNat).toNat n))
  else s

/-- Sign extension of an `n`-bit value. -/
def sextNat (n w : Nat) : W64 := BitVec.ofInt 64 (signedOf w n)

/-- LDB (R153). -/
def execLdb (f : Mem) (s : State) : Out := .next (s.loadScalar f 1 (sextNat 8))

/-- LDBU (R153). -/
def execLdbu (f : Mem) (s : State) : Out := .next (s.loadScalar f 1 (BitVec.ofNat 64))

/-- LDH (R153). -/
def execLdh (f : Mem) (s : State) : Out := .next (s.loadScalar f 2 (sextNat 16))

/-- LDHU (R153). -/
def execLdhu (f : Mem) (s : State) : Out := .next (s.loadScalar f 2 (BitVec.ofNat 64))

/-- LDW (R153). -/
def execLdw (f : Mem) (s : State) : Out := .next (s.loadScalar f 4 (sextNat 32))

/-- LDWU (R153). -/
def execLdwu (f : Mem) (s : State) : Out := .next (s.loadScalar f 4 (BitVec.ofNat 64))

/-- LDD (R153). -/
def execLdd (f : Mem) (s : State) : Out := .next (s.loadScalar f 8 (BitVec.ofNat 64))

/-- STB (R153). -/
def execStb (f : Mem) (s : State) : Out := .next (s.storeScalar f 1)

/-- STH (R153). -/
def execSth (f : Mem) (s : State) : Out := .next (s.storeScalar f 2)

/-- STW (R153). -/
def execStw (f : Mem) (s : State) : Out := .next (s.storeScalar f 4)

/-- STD (R153). -/
def execStd (f : Mem) (s : State) : Out := .next (s.storeScalar f 8)

/-! ### Vector loads and stores (R155-R158) -/

/-- A vector result: active byte lanes and value. -/
def State.putV (s : State) (l : Nat) (n : Nat) (m : PReg) (v : VReg) (fl : Flags) (nwb : Bool) (k : Option Latch) : State :=
  s.issue l (.v (s.tile.phys n)) (.lanes m v) fl nwb k

/-- `n` bytes of the scratchpad as a number. -/
def Tile.spadNat (t : Tile) (o n : Nat) : Nat := t.spad.nat o n

/-- The bytes of a register that a predicate enables, at the offsets `at_` gives. -/
def activeCells (m : PReg) (v : VReg) (at_ : Nat → Nat) (n : Nat) : List Host.Cell :=
  ((List.range n).filter m.getLsbD).map fun j => (at_ j, BitVec.ofNat 8 (byteOf v j))

/-- VLD (R155). -/
def execVld (f : Mem) (s : State) : Out :=
  let o := s.tile.offset f 16
  .next ((s.touchIndex f).checked o 256 16 spadBytes fun s =>
    ((s.postInc f 256).putV 4 f.reg.toNat (s.tile.preg f.pred.toNat) (BitVec.ofNat 2048 (s.tile.spadNat o 256)) 0 false
      (some .vb2)).touchSpad (span o 256))

/-- VST (R155). -/
def execVst (f : Mem) (s : State) : Out :=
  let o := s.tile.offset f 16
  .next ((s.touchIndex f).checked o 256 16 spadBytes fun s =>
    (s.postInc f 256).store 2 .spad (activeCells (s.tile.preg f.pred.toNat) (s.tile.vreg f.reg.toNat) (o + ·) 256))

/-- The offset of word `i` of a strided access (R156). -/
def Tile.strideWord (t : Tile) (f : Mem) (i : Nat) : Nat :=
  (rd t.regs.a f.base.toNat + BitVec.ofNat 32 i * (t.scalar f.index).setWidth 32).toNat

/-- The checks of R156 in their order. -/
def State.strided (s : State) (f : Mem) (k : State → State) : State :=
  let t := s.tile
  let s := s.touchS [f.index]
  match (List.range 16).find? (fun i => decide (spadBytes < t.strideWord f i + 16)) with
  | some i => s.raise causeSpadRange (t.strideWord f i)
  | none =>
    let d := (t.scalar f.index).toNat % 2 ^ 32
    if t.strideWord f 0 % 16 ≠ 0 then s.raise causeMisalignedAccess (t.strideWord f 0)
    else if d % 16 ≠ 0 ∨ d / 16 % 2 = 0 then s.raise causeMisalignedAccess (t.strideWord f 1)
    else k s

/-- VLDS (R156). -/
def execVlds (f : Mem) (s : State) : Out :=
  let w := s.tile.strideWord f
  .next (s.strided f fun s =>
    (s.putV 4 f.reg.toNat (s.tile.preg f.pred.toNat)
      (BitVec.ofNat 2048 (packGo 128 (fun i => s.tile.spadNat (w i) 16) 16)) 0 false (some .vb2)).touchSpad
      ((List.range 16).map w))

/-- VSTS (R156). -/
def execVsts (f : Mem) (s : State) : Out :=
  let w := s.tile.strideWord f
  .next (s.strided f fun s =>
    s.store 2 .spad (activeCells (s.tile.preg f.pred.toNat) (s.tile.vreg f.reg.toNat) (fun j => w (j / 16) + j % 16) 256))

/-- The active elements of group `j` of an indexed access: element and offset (R157). -/
def Tile.groupOf (t : Tile) (f : Mem) (j : Nat) : List (Nat × Nat) :=
  let m := t.preg f.pred.toNat
  let idx := t.vector f.index 32
  let a := (rd t.regs.a f.base.toNat).toNat
  ((List.range 16).map (16 * j + ·)).filterMap fun e =>
    if m.getLsbD (4 * e) then some (e, (a + elem idx 32 e) % 2 ^ 32) else none

/-- The first element whose bank a group names by two words (R157). -/
def bankClash (g : List (Nat × Nat)) : Option Nat :=
  (g.find? fun e => g.any fun d => d.2 / 16 % 16 == e.2 / 16 % 16 && d.2 / 16 != e.2 / 16).map (·.2)

/-- The checks of an indexed access. -/
def State.indexed (s : State) (f : Mem) (k : State → State) : State :=
  let gs := (List.range 4).map (s.tile.groupOf f)
  let s := s.touchV [f.index]
  let all := gs.flatten
  match all.find? (fun e => decide (spadBytes < e.2 + 4)), all.find? (fun e => e.2 % 4 != 0), gs.findSome? bankClash with
  | some e, _, _ => s.raise causeSpadRange e.2
  | none, some e, _ => s.raise causeMisalignedAccess e.2
  | none, none, some o => s.raise causeMisalignedAccess o
  | none, none, none => k s

/-- A read of the last issued result at a later cycle. -/
def State.readLater (s : State) (l : Nat) (flight : Nat) (cs : List (Nat × Nat)) : State :=
  s.onIo fun p => { p with reads := p.reads ++ [{ due := s.after l, flight := flight, cells := cs }] }

/-- The four bytes of an element. -/
def elementBytes (e : Nat × Nat) : List (Nat × Nat) := (List.range 4).map fun b => (e.2 + b, 4 * e.1 + b)

/-- VGATHER (R157): group j is read at t + j. -/
def execVgather (f : Mem) (s : State) : Out :=
  let gs := (List.range 4).map fun j => (j, s.tile.groupOf f j)
  .next (s.indexed f fun s =>
    let id := s.tile.nextId
    let s := s.putV 8 f.reg.toNat (elemLanes (s.tile.preg f.pred.toNat) 32) 0 0 false (some .vb2)
    gs.foldl (fun s g => s.readLater g.1 id (g.2.flatMap elementBytes)) s)

/-- Syllables of opcode 0x01-0x1C are illegal until `l` cycles after this one (R157, R158). -/
def State.lsWindow (s : State) (l : Nat) : State := s.onCtl fun c => { c with scatterUntil := s.after (l + 1) }

/-- VSCATTER (R157): group j is written at t + 2 + j. -/
def execVscatter (f : Mem) (s : State) : Out :=
  let gs := (List.range 4).map fun j => (j, s.tile.groupOf f j)
  let v := s.tile.vreg f.reg.toNat
  .next (s.indexed f fun s =>
    (gs.foldl (fun s g => s.store (2 + g.1) .spad (g.2.flatMap fun e => cellsAt e.2 (natBytes (elem v 32 e.1) 4))) s).lsWindow 4)

/-- Source offset and destination byte of VLDB's element bytes and exponent bytes (R61, R158). -/
def blockBytes (o : Nat) : List (Nat × Nat) := (List.range 256).map fun k => (o + 40 * (k / 32) + k % 32, k)
def blockExponents (o : Nat) : List (Nat × Nat) := (List.range 64).map fun k => (o + 40 * (k / 8) + 32 + k % 8, k)
/-- The exponent lanes that load, and the zeros above them. -/
def exponentLanes (m : PReg) : PReg :=
  BitVec.ofNat 256 (packGo 1 (fun k => if 64 ≤ k ∨ m.getLsbD (4 * k) then 1 else 0) 256)

/-- VLDB (R158): words 0-15 are read at t, words 16-19 at t + 1. -/
def execVldb (f : Mem) (s : State) : Out :=
  let o := s.tile.offset f 16
  .next ((s.touchIndex f).checked o 320 16 spadBytes fun s =>
    let m := s.tile.preg f.pred.toNat
    let id := s.tile.nextId
    let s := (s.putV 4 f.reg.toNat m 0 0 false (some .vb2)).putV 4 (f.reg.toNat + 1) (exponentLanes m) 0 0 false none
    let early := fun (c : Nat × Nat) => decide (c.1 < o + 256)
    let late := fun (c : Nat × Nat) => !decide (c.1 < o + 256)
    let s := (s.readLater 0 id ((blockBytes o).filter early)).readLater 0 (id + 1) ((blockExponents o).filter early)
    let s := (s.readLater 1 id ((blockBytes o).filter late)).readLater 1 (id + 1) ((blockExponents o).filter late)
    (s.postInc f 320).lsWindow 1)

/-! ### Predicates, constants, quires and instruction memory (R159-R162) -/

/-- PLD (R159). -/
def execPld (f : Mem) (s : State) : Out :=
  let o := s.tile.offset f 16
  .next (
    if s.tile.predOn f.pred then
      (s.touchIndex f).checked o 32 16 spadBytes fun s =>
        ((s.postInc f 32).issue 3 (.p f.reg.toNat) (.bits (BitVec.allOnes 256) (BitVec.ofNat 256 (s.tile.spadNat o 32))) 0 false
          none).touchSpad (span o 32)
    else s)

/-- PST (R159): p0 writes all ones. -/
def execPst (f : Mem) (s : State) : Out :=
  let o := s.tile.offset f 16
  .next (
    if s.tile.predOn f.pred then
      (s.touchIndex f).checked o 32 16 spadBytes fun s =>
        (s.postInc f 32).store 1 .spad (cellsAt o (natBytes (s.tile.preg f.reg.toNat).toNat 32))
    else s)

/-- KLD (R160). -/
def execKld (f : Mem) (s : State) : Out :=
  let o := s.tile.offset f 16
  .next (
    if s.tile.predOn f.pred then
      (s.touchIndex f).checked o 128 16 spadBytes fun s =>
        ((s.postInc f 128).issue 4 .bank (.consts (BitVec.ofNat 1024 (s.tile.spadNat o 128))) 0 false none).touchSpad (span o 128)
    else s)

/-- QSAVE (R161): the quire's value at issue. -/
def execQsave (f : Mem) (s : State) : Out :=
  let o := s.tile.offset f 16
  .next (
    if s.tile.predOn f.pred then
      (s.touchIndex f).checked o 128 16 spadBytes fun s =>
        (s.postInc f 128).store 2 .spad (cellsAt o (natBytes (rd s.tile.regs.q f.reg.toNat).toNat 128))
    else s)

/-- QLOAD (R161). -/
def execQload (f : Mem) (s : State) : Out :=
  let o := s.tile.offset f 16
  .next (
    if s.tile.predOn f.pred then
      (s.touchIndex f).checked o 128 16 spadBytes fun s =>
        ((s.postInc f 128).issue 4 (.q f.reg.toNat) (.quire (BitVec.ofNat 1024 (s.tile.spadNat o 128))) 0 false none).touchSpad
          (span o 128)
    else s)

/-- ISTORE (R162): bundle i is written whole when predicate bit 32i is 1; every byte that is written lies in instruction memory. -/
def execIstore (f : Mem) (s : State) : Out :=
  let o := s.tile.offset f 16
  .next (
    if s.tile.predOn f.pred then
      let m := s.tile.preg f.pred.toNat
      let v := s.tile.vreg f.reg.toNat
      let bs := (List.range 8).filter fun i => m.getLsbD (32 * i)
      let n := match bs.getLast? with
        | some i => 32 * (i + 1)
        | none => 0
      (s.touchIndex f).checked o n 32 (if n = 0 then o else 0x10000) fun s =>
        (s.postInc f 256).store 2 .imem (bs.flatMap fun i => cellsAt (o + 32 * i) (natBytes (slice v.toNat 256 i) 32))
    else s)

end Sys2Proof.Machine
end

