-- ==== Sys2Proof/Machine/Remote.lean ====
section
/-! DEFINITION. Local atomics, remote writes and remote atomics of the LS slot (spec/06_memory_sync_ops.md R163-R170). -/

namespace Sys2Proof.Machine

/-! ### Local atomics -/

/-- A local atomic on `bits` bits (R164): checked at issue, in its bank's ALU at t + 2, its old value lands at t + 6. -/
def State.atomic (s : State) (f : Atomic) (op bits es : Nat) : State :=
  if s.tile.predOn f.pred then
    let o := (rd s.tile.regs.a f.base.toNat).toNat
    let a : AluOp :=
      { op := op, bits := bits, es := es, value := (s.tile.scalar f.srcB).toNat, cmp := (s.tile.sreg f.dst.toNat).toNat }
    (s.touchS [f.srcB]).checked o (bits / 8) (bits / 8) spadBytes fun s =>
      let id := s.tile.nextId
      (s.issue 6 (.s f.dst.toNat s.ctl.handler) .unread 0 false (some .b2)).onIo fun p =>
        { p with amos := p.amos ++ [{ due := s.after 2, addr := o, alu := a, flight := id }] }
  else s

/-- The width of an integer atomic (R89). -/
def intBits (f : Atomic) : Nat := if f.size = 3 then 64 else 32

/-- AMOADD (R163). -/
def execAmoadd (f : Atomic) (s : State) : Out := .next (s.atomic f 0 (intBits f) 0)

/-- AMOAND (R163). -/
def execAmoand (f : Atomic) (s : State) : Out := .next (s.atomic f 1 (intBits f) 0)

/-- AMOOR (R163). -/
def execAmoor (f : Atomic) (s : State) : Out := .next (s.atomic f 2 (intBits f) 0)

/-- AMOXOR (R163). -/
def execAmoxor (f : Atomic) (s : State) : Out := .next (s.atomic f 3 (intBits f) 0)

/-- AMOMIN (R163). -/
def execAmomin (f : Atomic) (s : State) : Out := .next (s.atomic f 4 (intBits f) 0)

/-- AMOMAX (R163). -/
def execAmomax (f : Atomic) (s : State) : Out := .next (s.atomic f 5 (intBits f) 0)

/-- AMOMINU (R163). -/
def execAmominu (f : Atomic) (s : State) : Out := .next (s.atomic f 6 (intBits f) 0)

/-- AMOMAXU (R163). -/
def execAmomaxu (f : Atomic) (s : State) : Out := .next (s.atomic f 7 (intBits f) 0)

/-- AMOSWAP (R163). -/
def execAmoswap (f : Atomic) (s : State) : Out := .next (s.atomic f 10 (intBits f) 0)

/-- AMOCAS (R163): the destination at issue is the compare value. -/
def execAmocas (f : Atomic) (s : State) : Out := .next (s.atomic f 11 (intBits f) 0)

/-- AMOFADD (R163): FP32, nearest even, no flag. -/
def execAmofadd (f : Atomic) (s : State) : Out := .next (s.atomic f 8 32 0)

/-- AMOTADD (R163): a tapered sum of 8, 16 or 32 bits with the instruction's es. -/
def execAmotadd (f : Atomic) (s : State) : Out := .next (s.atomic f 9 (8 * 2 ^ f.size.toNat) f.es.toNat)

/-! ### Places (R165, R166) -/

/-- A tile of a module. -/
structure PlaceAt where
  module : Nat
  tile : Nat
deriving DecidableEq, Repr

/-- Tile (x, y) of the logical grid of a group: x < GW, y < GH, and x < GLAST in the last row. -/
def groupTile (g : Group) (x y : Nat) : Option Nat :=
  if x < g.gw ∧ y * g.gw + x < g.size then g.tiles[y * g.gw + x]? else none

/-- Whether a tile of a module exists; the rows of another module are not known here. -/
def State.placeExists (s : State) (m t x y : Nat) : Bool :=
  decide (x < 384) && decide (y < 660) && (m != s.globals.modIdx || s.tileExists t)

/-- The tile of a partition place: the lowest-numbered valid extent that holds it (R261). -/
def State.partitionTile (s : State) (part x y : Nat) : Option PlaceAt :=
  match find s.partitions part with
  | none => none
  | some p =>
    match p.extents.find? (fun e => e.valid && decide (e.px ≤ x) && decide (x < e.px + e.w) && decide (e.py ≤ y) && decide (y < e.py + e.h)) with
    | none => none
    | some e =>
      let tx := e.tx + x - e.px
      let ty := e.ty + y - e.py
      if s.placeExists e.mod (ty * 384 + tx) tx ty then some ⟨e.mod, ty * 384 + tx⟩ else none

/-- The tile that a place address names, seen from a group and a partition. -/
def State.placeTile (s : State) (group : Option Nat) (part : Nat) (rel : Bool) (x y : Nat) : Option PlaceAt :=
  if rel then s.partitionTile part x y
  else
    match group with
    | none => none
    | some n => match find s.groups n with
      | some g => (groupTile g x y).map fun t => ⟨s.globals.modIdx, t⟩
      | none => none

/-- The place of a remote operation of `n` bytes: none is PLACE_FAULT (R166). `useSem` allows the SEM field. -/
def State.place (s : State) (w : W64) (n : Nat) (useSem : Bool) : Option (PlaceAt × Nat) :=
  let x := w.toNat
  let o := bitsOf x 0 19
  if bitsOf x 56 7 ≠ 0 ∨ bitsOf x 19 1 ≠ 0 ∨ (!useSem && bitsOf x 48 8 != 0) ∨ spadBytes < o + n then none
  else (s.placeTile s.tile.place.group s.tile.place.partition (bitsOf x 63 1 == 1) (bitsOf x 34 14) (bitsOf x 20 14)).map fun p => (p, o)

/-! ### The outbound queues (R169, R245) -/

/-- Entries of the two queues. -/
def writeQueueSize : Nat := 32
def requestQueueSize : Nat := 16

/-- An entry for the write queue; a full queue is QUEUE_FULL. -/
def State.pushWrite (s : State) (mk : Nat → OutKind) (k : State → Nat → State) : State :=
  if writeQueueSize ≤ s.tile.io.writes.length then s.raise causeQueueFull 0
  else
    let id := s.tile.nextId
    let s := s.onTile fun t =>
      (t.onIo fun p => { p with writes := p.writes ++ [{ ready := s.cycle + 2, kind := mk id }] }) |> fun t => { t with nextId := id + 1 }
    k s id

/-- An entry for the request queue. -/
def State.pushRequest (s : State) (mk : Nat → ReqKind) (k : State → Nat → State) : State :=
  if requestQueueSize ≤ s.tile.io.requests.length then s.raise causeQueueFull 0
  else
    let id := s.tile.nextId
    let s := s.onTile fun t =>
      (t.onIo fun p => { p with requests := p.requests ++ [{ ready := s.cycle + 2, kind := mk id, parked := false }] }) |>
        fun t => { t with nextId := id + 1 }
    k s id

/-- A remote operation of `n` bytes enters the write queue after the checks of R166 in their order. -/
def State.remoteOp (s : State) (f : Remote) (n : Nat) (kind : RemoteKind) (sem : W64 → Option Nat) (useSem : Bool) : State :=
  let w := s.tile.sreg f.place.toNat
  match s.place w n useSem with
  | none => s.raise causePlaceFault w.toNat
  | some (p, o) =>
    if o % (if n = 256 then 16 else n) ≠ 0 then s.raise causeMisalignedAccess o
    else
      s.pushWrite
        (fun id =>
          .remote
            { id := id, src := s.cur, destModule := p.module, dest := p.tile, offset := o, kind := kind, sem := sem w,
              cls := f.chan.toNat, deliver := if f.timed then some (s.tile.sreg (f.place.toNat + 1)).toNat else none })
        fun s id => s.onIo fun q => { q with remotes := q.remotes ++ [id] }

/-- The semaphore field of RPUT and RPUTV. -/
def remoteSem (f : Remote) (_ : W64) : Option Nat := if f.sig then some f.mid.toNat else none

/-- RPUT (R167). -/
def execRput (f : Remote) (s : State) : Out :=
  .next (s.remoteOp f 8 (.put (natBytes (s.tile.sreg f.data.toNat).toNat 8)) (remoteSem f) false)

/-- RPUTV (R167). -/
def execRputv (f : Remote) (s : State) : Out :=
  .next (s.remoteOp f 256 (.put (natBytes (s.tile.vreg f.data.toNat).toNat 256)) (remoteSem f) false)

/-- RAMO (R167): a T32 add takes its es from VFMT.DFMT, which must name T32. -/
def execRamo (f : Remote) (s : State) : Out :=
  let op := (f.mid.extractLsb' 4 4).toNat
  let bits := if f.mid.getLsbD 3 then 64 else 32
  let sem := fun (w : W64) => if f.sig then some (bitsOf w.toNat 48 8) else none
  let go := fun (es : Nat) =>
    s.remoteOp f (bits / 8) (.atomic { op := op, bits := bits, es := es, value := (s.tile.sreg f.data.toNat).toNat, cmp := 0 }) sem
      f.sig
  .next (
    if op = 9 then
      match s.tile.dFmt with
      | some (.tap 32 es) => go es
      | _ => s.raise causeIllegalOperand 0
    else go 0)

end Sys2Proof.Machine
end

