-- ==== Sys2Proof/Machine/Sync.lean ====
section
/-! DEFINITION. Semaphores, barriers, fences and gate instructions of the LS slot (spec/06_memory_sync_ops.md R171-R179). -/

namespace Sys2Proof.Machine

/-! ### Semaphores (R171, R172) -/

/-- SINC (R171): applied in the next cycle, before any wait is tested. -/
def execSinc (f : Sync) (s : State) : Out :=
  let k := (s.tile.scalar f.srcA).toNat % 2 ^ 32
  .next ((s.touchS [f.srcA]).onIo fun p => { p with sincs := p.sincs ++ [(s.after 1, f.obj.toNat, k)] })

/-- SWAIT (R171). -/
def execSwait (f : Sync) (s : State) : Out :=
  .next ((s.touchS [f.srcA]).startWait (.sem f.obj.toNat ((s.tile.scalar f.srcA).toNat % 2 ^ 32)))

/-- SEXPECT (R171): SEM_OVF changes nothing. -/
def execSexpect (f : Sync) (s : State) : Out :=
  let k := (s.tile.scalar f.srcA).toNat % 2 ^ 32
  let x := rd s.tile.sems f.obj.toNat
  .next (
    if 2 ^ 24 ≤ k ∨ 2 ^ 24 ≤ x.expect.toNat + k then s.raise causeSemOvf 0
    else
      (s.touchS [f.srcA]).onTile fun t =>
        { t with sems := wr t.sems f.obj.toNat { x with expect := BitVec.ofNat 24 (x.expect.toNat + k) } })

/-- SWAITE (R171). -/
def execSwaite (f : Sync) (s : State) : Out := .next (s.startWait (.semExpect f.obj.toNat))

/-- A result of the LS slot with latency 1: it feeds b2 (R35). -/
def State.putLs (s : State) (d : BitVec 6) (v : W64) : State :=
  s.issue 1 (.s d.toNat s.ctl.handler) (.word v) 0 false (some .b2)

/-- SREAD (R171): expect above count. -/
def execSread (f : Sync) (s : State) : Out :=
  let x := rd s.tile.sems f.obj.toNat
  .next (s.putLs f.dst (BitVec.ofNat 64 (x.count.toNat + 2 ^ 32 * x.expect.toNat)))

/-! ### Barriers (R173) -/

/-- An arrival; a pending phase is ILLEGAL_OPERAND. That of a BARARR is a prior operation of later
fences (R174), that of an MBAR (`mx`) is not. -/
def State.arrive (s : State) (bar : Nat) (mx : Bool) : State :=
  match rd s.tile.io.pending bar with
  | some _ => s.raise causeIllegalOperand 0
  | none =>
    s.pushWrite (fun id => .arrive id bar s.cycle mx) fun s id =>
      s.onIo fun p =>
        { p with pending := wr p.pending bar (some (rd p.lphase bar)), remotes := if mx then p.remotes else p.remotes ++ [id] }

/-- BARARR (R173). -/
def execBararr (f : Sync) (s : State) : Out := .next (s.arrive f.obj.toNat false)

/-- BARWAIT (R173). -/
def execBarwait (f : Sync) (s : State) : Out := .next (s.startWait (.barrier f.obj.toNat))

/-! ### Fences (R174-R177) -/

/-- Markers in the queues that a fence or a mark names; each takes an entry. -/
def State.pushMarkers (s : State) (w r : Bool) (mkW : Nat → OutKind) (mkR : Nat → ReqKind) (k : State → Nat → State) : State :=
  if (w && decide (writeQueueSize ≤ s.tile.io.writes.length)) || (r && decide (requestQueueSize ≤ s.tile.io.requests.length)) then
    s.raise causeQueueFull 0
  else
    let id := s.tile.nextId
    let s := s.onTile fun t =>
      { t with
        nextId := id + 1
        io :=
          { t.io with
            writes := if w then t.io.writes ++ [{ ready := s.cycle + 2, kind := mkW id }] else t.io.writes
            requests := if r then t.io.requests ++ [{ ready := s.cycle + 2, kind := mkR id, parked := false }] else t.io.requests } }
    k s id

/-- A fence on paths (bit 0 LOCAL, RPUT, COPY, MX, GATE, INBOUND) at a scope, and what follows it when its markers find room. -/
def State.fence (s : State) (paths : BitVec 6) (scope : Nat) (k : State → State) : State :=
  let w := paths.getLsbD 1
  let r := paths.getLsbD 2 || paths.getLsbD 4
  s.pushMarkers w r (.fence ·) (.fence ·) fun s id =>
    k (if w || r then s.onIo fun p => { p with fences := p.fences ++ [{ id := id, paths := paths, scope := scope, issued := s.cycle }] } else s)

/-- The scope SYSTEM. -/
def scopeSystem : Nat := 4
def scopePartition : Nat := 3

/-- FENCE (R174, R176): a guest's SYSTEM scope is clamped to PARTITION or traps. -/
def execFence (f : Sync) (s : State) : Out :=
  let paths := f.obj.setWidth 6
  .next (
    if f.scope.toNat = scopeSystem ∧ !s.tile.place.hvpriv then
      if s.effPolicy (s.ctxPath s.tile.place.ctx) = 1 then s.raise causeScopeClamp 0
      else
        s.fence paths scopePartition fun t =>
          (t.onTile (·.onCsr fun c => { c with clamp := BitVec.ofNat 32 (satInc c.clamp.toNat 1) })).issue 1 .tstat (.word 0)
            Flag.SCOPECLAMP false none
    else s.fence paths f.scope.toNat id)

/-- FENCEMARK (R177): a marker in both queues. -/
def execFencemark (_ : Sync) (s : State) : Out := .next (s.pushMarkers true true (.mark ·) (.mark ·) fun s _ => s)

/-! ### Gates (R178, R179) -/

/-- The checks of R178: the shadow on this massif, or the trap with the gate id. -/
def State.gateChecked (s : State) (w : W64) (target post : Bool) (k : Shadow → State) : State :=
  let id := w.toNat % 2 ^ 32
  if bitsOf id 21 11 ≠ 0 ∨ (!target && w.toNat / 2 ^ 32 != 0) ∨ !s.globals.present.contains (bitsOf id 12 9) then s.raise causeGateDenied id
  else
    match s.shadow (id % 2 ^ 21) (massifOf s.cur) with
    | none => s.raise causeGateDenied id
    | some h =>
      let r := h.rightsOf s.tile.place.ctx
      if !(if post then r.1 else r.2) || (post && h.state == .closed) then s.raise causeGateDenied id
      else if post && h.tokens == some 0 then s.raise causeGateRate id
      else k h

/-- GPOST (R179): one token, and an entry that leaves after the tile's prior local, remote and copy operations. -/
def execGpost (f : Sync) (s : State) : Out :=
  let w := s.tile.scalar f.srcA
  .next ((s.touchS [f.srcA]).gateChecked w false true fun h =>
    (s.touchS [f.srcA]).pushRequest (fun id => .post id (w.toNat % 2 ^ 21) s.cycle) fun s id =>
      (s.setShadow { h with tokens := h.tokens.map (· - 1) }).onIo fun p => { p with posts := p.posts ++ [id] })

/-- GWAIT (R179): a REVOKED gate is GATE_DENIED with a frame that re-enters the wait. -/
def execGwait (f : Sync) (s : State) : Out :=
  let w := s.tile.scalar f.srcA
  let s := s.touchS [f.srcA]
  .next (s.gateChecked w true false fun h =>
    if h.state = .revoked then
      s.takeTrap { cause := causeGateDenied, tval := BitVec.ofNat 64 (s.tile.slot + w.toNat % 2 ^ 32 * 2 ^ 32), epc := s.ctl.pc,
                   resume := s.ctl.pc, self := true, rewait := [.gate w] }
    else s.startWait (.gate w))

/-- GTRY (R179). -/
def execGtry (f : Sync) (s : State) : Out :=
  let w := s.tile.scalar f.srcA
  let s := s.touchS [f.srcA]
  .next (s.gateChecked w true false fun h =>
    s.putLs f.dst (if h.state = .revoked then 2 else if gateReached h.seq (w.toNat / 2 ^ 32) then 1 else 0))

/-- GREAD (R179). -/
def execGread (f : Sync) (s : State) : Out :=
  let w := s.tile.scalar f.srcA
  let s := s.touchS [f.srcA]
  .next (s.gateChecked w false false fun h => s.putLs f.dst (if h.state = .revoked then BitVec.allOnes 64 else h.seq))

end Sys2Proof.Machine
end

