-- ==== Sys2Proof/Machine/Vector.lean ====
section
/-! DEFINITION. The VA slot without the quires: format state, element-wise arithmetic, compares, logic, shifts and pivots
(spec/07_vector.md R180-R189, R198). -/

namespace Sys2Proof.Machine

/-! ### Formats and widths (R180, R95) -/

/-- The common element width of formats: 8, 16 or 32 bits; none is ILLEGAL_OPERAND. -/
def commonWidth : List (Option Fmt) → Option Nat
  | [] => none
  | [some f] => if 8 ≤ f.width then some f.width else none
  | some f :: r =>
    match commonWidth r with
    | some w => if f.width = w then some w else none
    | none => none
  | none :: _ => none

/-- A vector operand whose bits are taken raw: a broadcast takes its width from the format of its position. -/
def Tile.vecRaw (t : Tile) (c : BitVec 7) (fmt : Option Fmt) : Option VReg :=
  if isBroadcast c then fmt.map fun f => t.vector c f.width else some (t.vector c 8)

/-- ILLEGAL_OPERAND at execution. -/
def State.illegal (s : State) : State := s.raise causeIllegalOperand 0

/-- A vector result of the VA slot. -/
def State.putVa (s : State) (l : Nat) (f : RG) (m : PReg) (v : VReg) (fl : Flags) : State :=
  s.putV l f.dst.toNat m v fl f.nwb (some .vb0)
/-- A vector result of the VB slot. -/
def State.putVb (s : State) (l : Nat) (f : RG) (m : PReg) (v : VReg) (fl : Flags) : State :=
  s.putV l f.dst.toNat m v fl f.nwb (some .vb1)

/-! ### VSETF (R184) -/

/-- The VFMT bits of the fields that a mask selects. -/
def vsetfMask (m : Nat) : W32 :=
  BitVec.ofNat 32
    ((if m.testBit 0 then 0x1F else 0) + (if m.testBit 1 then 0x3E0 else 0) + (if m.testBit 2 then 0x7C00 else 0) +
      (if m.testBit 3 then 0x30000 else 0) + (if m.testBit 4 then 0x1FC0000 else 0))

/-- VSETF (R184): seen from the next cycle on, after a CSRW of the same bundle. It has no destination field, so NWB has nothing to
suppress (log 113). -/
def execVsetf (f : RG) (s : State) : Out :=
  .next (
    if s.tile.predOn f.pred then
      (s.touchS [f.srcA]).issue 1 (.vfmt (vsetfMask f.srcB.toNat)) (.word (s.tile.scalar f.srcA)) 0 false (some .vb0)
    else s)

/-! ### Element-wise arithmetic (R185, R186) -/

/-- An operation on the exact operands; `unary` reads A alone, `ternary` the destination too. `op` is told whether an operand is
IEEE. A NaR in the destination gives NaR with no flag (R186). -/
def State.elementwise (s : State) (f : RG) (unary ternary : Bool) (lat : Bool → Nat)
    (op : Bool → Fmt → Fmt → Val → Val → Val → OpRes) : State :=
  let t := s.tile
  match commonWidth (if unary then [t.aFmt, t.dFmt] else [t.aFmt, t.bFmt, t.dFmt]), t.aFmt, t.dFmt with
  | some w, some fa, some fd =>
    let fb := if unary then fa else t.bFmt.getD fa
    match t.rounding fd with
    | none => s.illegal
    | some r =>
      let a := t.vector f.srcA w
      let b := t.vector f.srcB w
      let d := t.vreg f.dst.toNat
      let m := t.preg f.pred.toNat
      let ieee := fa.isIeee || fb.isIeee || (ternary && fd.isIeee)
      let (v, fl) := mapElems w (activeEl m w) fun e =>
        let (x, f1) := fa.xval (elem a w e)
        let (y, f2) := if unary then (.zero, 0) else fb.xval (elem b w e)
        let (z, f3) := if ternary then fd.xval (elem d w e) else (.zero, 0)
        let q := if ternary && !fd.isIeee && z.isNan then OpRes.ofVal .nan else op ieee fa fb x y z
        let (u, f4) := q.deliver ieee fd (r.word e)
        (u, f1 ||| f2 ||| f3 ||| f4)
      let codes := if unary then [f.srcA] else [f.srcA, f.srcB]
      ((s.touchV codes).touchR r).putVa (lat (fa.isInt && fb.isInt && fd.isInt)) f (elemLanes m w) v fl
  | _, _, _ => s.illegal

/-- L is 2 when every format is an integer format and 4 otherwise. -/
def twoOrFour (ints : Bool) : Nat := if ints then 2 else 4

/-- VADD (R185). -/
def execVadd (f : RG) (s : State) : Out := .next (s.elementwise f false false twoOrFour fun _ _ _ a b _ => vadd a b)

/-- VSUB (R185). -/
def execVsub (f : RG) (s : State) : Out := .next (s.elementwise f false false twoOrFour fun _ _ _ a b _ => vadd a b.neg)

/-- VMUL (R185). -/
def execVmul (f : RG) (s : State) : Out := .next (s.elementwise f false false twoOrFour fun _ _ _ a b _ => vmul a b)

/-- VFMA (R185): a × b + d. -/
def execVfma (f : RG) (s : State) : Out := .next (s.elementwise f false true (fun _ => 4) fun _ _ _ a b d => vfma a b d)

/-- VFMS (R185): a × b - d. -/
def execVfms (f : RG) (s : State) : Out := .next (s.elementwise f false true (fun _ => 4) fun _ _ _ a b d => vfma a b d.neg)

/-- VFNMA (R185): d - a × b. -/
def execVfnma (f : RG) (s : State) : Out := .next (s.elementwise f false true (fun _ => 4) fun _ _ _ a b d => vfma a.neg b d)

/-- VDIV (R185, R186). -/
def execVdiv (f : RG) (s : State) : Out := .next (s.elementwise f false false (fun _ => 16) fun ieee _ _ a b _ => vdiv ieee a b)

/-- VMIN (R185, R186). -/
def execVmin (f : RG) (s : State) : Out :=
  .next (s.elementwise f false false twoOrFour fun _ fa fb a b _ => .ofVal (vminmax false fa.isTap fb.isTap a b))

/-- VMAX (R185, R186). -/
def execVmax (f : RG) (s : State) : Out :=
  .next (s.elementwise f false false twoOrFour fun _ fa fb a b _ => .ofVal (vminmax true fa.isTap fb.isTap a b))

/-- VABS (R185). -/
def execVabs (f : RG) (s : State) : Out := .next (s.elementwise f true false twoOrFour fun _ _ _ a _ _ => .ofVal a.abs)

/-- VNEG (R185). -/
def execVneg (f : RG) (s : State) : Out := .next (s.elementwise f true false twoOrFour fun _ _ _ a _ _ => .ofVal a.neg)

/-! ### Compares (R187) -/

/-- A relation on two elements: with no IEEE operand NaR equals NaR and lies below every real; otherwise a NaN makes it false. -/
def relation (ieee : Bool) (eq lt : Bool) (a b : Val) : Bool :=
  if ieee then (eq && a.eqv b) || (lt && a.lt b)
  else if a.isNan then (if b.isNan then eq else lt)
  else if b.isNan then false
  else (eq && a.eqv b) || (lt && a.lt b)

/-- The byte lanes of the elements for which `p` holds. -/
def lanesWhere (w : Nat) (p : Nat → Bool) : PReg :=
  BitVec.ofNat 256 (packGo (w / 8) (fun e => if p e then 2 ^ (w / 8) - 1 else 0) (2048 / w))

/-- A compare into a predicate: `eq` and `lt` say which cases hold, `ordered` whether any NaN sets NV. -/
def State.compare (s : State) (f : RG) (eq lt ordered : Bool) : State :=
  let t := s.tile
  match commonWidth [t.aFmt, t.bFmt], t.aFmt, t.bFmt with
  | some w, some fa, some fb =>
    let ieee := fa.isIeee || fb.isIeee
    let a := t.vector f.srcA w
    let b := t.vector f.srcB w
    let m := t.preg f.pred.toNat
    let act := activeEl m w
    let (_, fl) := mapElems w act fun e =>
      let (x, f1) := fa.xval (elem a w e)
      let (y, f2) := fb.xval (elem b w e)
      (0, f1 ||| f2 ||| (if ieee && ordered && (x.isNan || y.isNan) then Flag.NV else 0))
    let v := lanesWhere w fun e => act e && relation ieee eq lt (fa.xval (elem a w e)).1 (fb.xval (elem b w e)).1
    (s.touchV [f.srcA, f.srcB]).issue 2 (.p f.dst.toNat) (.bits (elemLanes m w) v) fl f.nwb (some .vb0)
  | _, _, _ => s.illegal

/-- VCMPEQ (R187). -/
def execVcmpeq (f : RG) (s : State) : Out := .next (s.compare f true false false)

/-- VCMPLT (R187). -/
def execVcmplt (f : RG) (s : State) : Out := .next (s.compare f false true true)

/-- VCMPLE (R187). -/
def execVcmple (f : RG) (s : State) : Out := .next (s.compare f true true true)

/-! ### Selection, logic and shifts (R188, R189) -/

/-- An operation on two raw operands. -/
def State.rawOp (s : State) (f : RG) (k : VReg → VReg → State → State) : State :=
  match s.tile.vecRaw f.srcA s.tile.aFmt, s.tile.vecRaw f.srcB s.tile.bFmt with
  | some a, some b => k a b (s.touchV [f.srcA, f.srcB])
  | _, _ => s.illegal

/-- VSEL (R188): the pred field names the selector. -/
def execVsel (f : RG) (s : State) : Out :=
  .next (s.rawOp f fun a b t => t.putVa 2 f (BitVec.allOnes 256) (merge (s.tile.preg f.pred.toNat) a b) 0)

/-- VAND (R188). -/
def execVand (f : RG) (s : State) : Out :=
  .next (s.rawOp f fun a b t => t.putVa 2 f (s.tile.preg f.pred.toNat) (a &&& b) 0)

/-- VOR (R188). -/
def execVor (f : RG) (s : State) : Out :=
  .next (s.rawOp f fun a b t => t.putVa 2 f (s.tile.preg f.pred.toNat) (a ||| b) 0)

/-- VXOR (R188). -/
def execVxor (f : RG) (s : State) : Out :=
  .next (s.rawOp f fun a b t => t.putVa 2 f (s.tile.preg f.pred.toNat) (a ^^^ b) 0)

/-- An element-wise shift of the width of DFMT; `op w a n` is given an amount that may pass the width. -/
def State.shift (s : State) (f : RG) (op : Nat → Nat → Nat → Nat) : State :=
  match commonWidth [s.tile.dFmt] with
  | none => s.illegal
  | some w =>
    s.rawOp f fun a b t =>
      let m := s.tile.preg f.pred.toNat
      let (v, _) := mapElems w (activeEl m w) fun e => (op w (elem a w e) (elem b w e), 0)
      t.putVa 2 f (elemLanes m w) v 0

/-- VSHL (R189). -/
def execVshl (f : RG) (s : State) : Out := .next (s.shift f fun w a n => if n < w then a * 2 ^ n % 2 ^ w else 0)

/-- VSHR (R189). -/
def execVshr (f : RG) (s : State) : Out := .next (s.shift f fun w a n => if n < w then a / 2 ^ n else 0)

/-- VSRA (R189). -/
def execVsra (f : RG) (s : State) : Out := .next (s.shift f fun w a n => intWord (signedOf a w / (2 ^ min n w : Nat)) w)

/-! ### Pivots (R198) -/

/-- One pivot: flag, result and flags raised. -/
def pivot (fa fb fd : Fmt) (z : Option Nat) (a b d : Nat) : Bool × Nat × Flags :=
  let (x, f1) := fa.xval a
  let (y, f2) := fb.xval b
  if x.isNan then
    let (w, f3) := fd.rnd .nan none
    (true, w, f1 ||| f2 ||| f3)
  else if !y.isNan && x.abs.lt y then
    let (r, f3) := fd.xval d
    let (w, f4) := fd.rnd (if x.isNeg then r.abs.neg else r.abs) z
    (true, w, f1 ||| f2 ||| f3 ||| f4)
  else
    let (w, f4) := fd.rnd x z
    (false, w, f1 ||| f2 ||| f4)

/-- VPIV (R198): results and flags land at t + 4; the pred field names the flags' register. -/
def execVpiv (f : RG) (s : State) : Out :=
  let t := s.tile
  .next (
    match commonWidth [t.aFmt, t.bFmt, t.dFmt], t.aFmt, t.bFmt, t.dFmt with
    | some w, some fa, some fb, some fd =>
      match t.rounding fd with
      | none => s.illegal
      | some r =>
        let a := t.vector f.srcA w
        let b := t.vector f.srcB w
        let d := t.vreg f.dst.toNat
        let one := fun e => pivot fa fb fd (r.word e) (elem a w e) (elem b w e) (elem d w e)
        let (v, fl) := mapElems w (fun _ => true) fun e => ((one e).2.1, (one e).2.2)
        let p := lanesWhere w fun e => (one e).1
        (((s.touchV [f.srcA, f.srcB]).touchR r).putVa 4 f (BitVec.allOnes 256) v fl).issue 4 (.p f.pred.toNat)
          (.bits (BitVec.allOnes 256) p) 0 false none
    | _, _, _, _ => s.illegal)

end Sys2Proof.Machine
end

