-- ==== Sys2Proof/Machine/Quire.lean ====
section
/-! DEFINITION. Quires and lane quires (spec/07_vector.md R190-R197, spec/03_numbers.md R68-R74). -/

namespace Sys2Proof.Machine

/-! ### The quires q0-q7 -/

/-- A result aimed at a quire; its latch is vb0. -/
def State.putQ (s : State) (l : Nat) (f : RG) (p : Payload) (fl : Flags) : State :=
  s.issue l (.q f.dst.toNat) p fl f.nwb (some .vb0)

/-- The quire that a field names. -/
def Tile.quire (t : Tile) (c : BitVec 7) : QReg := rd t.regs.q (c.toNat % 8)

/-- The sum of the elements 0 … n - 1 that are active, as LSBs of the F view, with its flags. -/
def sumTerms (act : Nat → Bool) (term : Nat → VF) : Nat → Option Int × Flags
  | 0 => (some 0, 0)
  | n + 1 =>
    let (x, fl) := sumTerms act term n
    if act n then
      let (v, g) := term n
      (optAdd x (v.toQuire 1024), fl ||| g)
    else (x, fl)

/-- VQDOT (R191): the exact sum of the products, added at landing. -/
def execVqdot (f : RG) (s : State) : Out :=
  let t := s.tile
  .next (
    match commonWidth [t.aFmt, t.bFmt], t.aFmt, t.bFmt with
    | some w, some fa, some fb =>
      let a := t.vector f.srcA w
      let b := t.vector f.srcB w
      let (q, fl) := sumTerms (activeEl (t.preg f.pred.toNat) w)
        (fun e =>
          let (x, f1) := fa.xval (elem a w e)
          let (y, f2) := fb.xval (elem b w e)
          let (p, f3) := quireProduct x y
          (p, f1 ||| f2 ||| f3)) (2048 / w)
      (s.touchV [f.srcA, f.srcB]).putQ 8 f (.quireAdd q) fl
    | _, _, _ => s.illegal)

/-- VQACC (R191): the exact sum of the elements. -/
def execVqacc (f : RG) (s : State) : Out :=
  let t := s.tile
  .next (
    match commonWidth [t.aFmt], t.aFmt with
    | some w, some fa =>
      let a := t.vector f.srcA w
      let (q, fl) := sumTerms (activeEl (t.preg f.pred.toNat) w)
        (fun e =>
          let (x, f1) := fa.xval (elem a w e)
          let (p, f3) := quireTerm x
          (p, f1 ||| f3)) (2048 / w)
      (s.touchV [f.srcA]).putQ 8 f (.quireAdd q) fl
    | _, _ => s.illegal)

/-- An instruction that bit 0 of its predicate governs whole. -/
def State.whole (s : State) (f : RG) (k : State) : State := if s.tile.predOn f.pred then k else s

/-- VQADD (R192). -/
def execVqadd (f : RG) (s : State) : Out :=
  .next (s.whole f (s.putQ 4 f (.quireAdd (quireInt 1024 (s.tile.quire f.srcA).toNat)) 0))

/-- VQSUB (R192). -/
def execVqsub (f : RG) (s : State) : Out :=
  .next (s.whole f (s.putQ 4 f (.quireAdd ((quireInt 1024 (s.tile.quire f.srcA).toNat).map (fun x => -x))) 0))

/-- A quire times 2^k (R192): a right shift drops bits, a result out of range is NaR with QOVF. -/
def scaleQuire (q : QReg) (k : Int) : QReg × Flags :=
  match quireInt 1024 q.toNat with
  | none => (q, 0)
  | some i =>
    let j : Int := if 0 ≤ k then i * (2 ^ k.toNat : Nat) else i.fdiv (2 ^ (-k).toNat : Nat)
    let (r, fl) := qadd 1024 (some 0) (some j)
    (BitVec.ofNat 1024 (quireWord 1024 r), fl)

/-- VQSCALE (R192). -/
def execVqscale (f : RG) (s : State) : Out :=
  let k := signedOf ((s.tile.scalar f.srcB).toNat % 2 ^ 16) 16
  .next (s.whole f (
    if 1023 < k ∨ k < -1023 then s.illegal
    else
      let (q, fl) := scaleQuire (s.tile.quire f.srcA) k
      (s.touchS [f.srcB]).putQ 4 f (.quire q) fl))

/-- VQCLR (R192). -/
def execVqclr (f : RG) (s : State) : Out := .next (s.whole f (s.putQ 2 f (.quire 0) 0))

/-- VQMOV mode 0 (R192): a quire to a quire. -/
def execVqmovQq (f : RG) (s : State) : Out := .next (s.whole f (s.putQ 2 f (.quire (s.tile.quire f.srcA)) 0))

/-- VQMOV mode 1 (R192): a quire to a vector register, the upper half zero. -/
def execVqmovVq (f : RG) (s : State) : Out :=
  .next (s.whole f (s.putVa 2 f (BitVec.allOnes 256) ((s.tile.quire f.srcA).setWidth 2048) 0))

/-- VQMOV mode 2 (R192): bytes 0-127 of a vector operand to a quire, bit for bit. -/
def execVqmovQv (f : RG) (s : State) : Out :=
  .next (s.whole f (
    match s.tile.vecRaw f.srcA s.tile.aFmt with
    | some a => (s.touchV [f.srcA]).putQ 2 f (.quire (a.setWidth 1024)) 0
    | none => s.illegal))

/-! ### Rounding a quire (R193, R194) -/

/-- The scale that srcB gives: none is ILLEGAL_OPERAND (R193). -/
def Tile.quireScale (t : Tile) (c : BitVec 7) : Option Val :=
  if c = 0 then some (.fin false 1 1)
  else
    let x := (t.scalar c).toNat
    match Fmt.ofCode (bitsOf x 32 5) with
    | some (.tap n es) => if n = 16 ∨ n = 32 then some (tdecode (x % 2 ^ n) n es) else none
    | _ => none

/-- The common part of VQRND and VLQRND: destination format, rounding and scale. -/
def State.rounder (s : State) (f : RG) (k : Fmt → Rounding → Val → State → State) : State :=
  match commonWidth [s.tile.dFmt], s.tile.dFmt with
  | some _, some d =>
    match s.tile.rounding d, s.tile.quireScale f.srcB with
    | some r, some z => k d r z ((if f.srcB = 0 then s else s.touchS [f.srcB]).touchR r)
    | _, _ => s.illegal
  | _, _ => s.illegal

/-- VQRND (R194): one rounding, written into every active element. -/
def execVqrnd (f : RG) (s : State) : Out :=
  .next (s.rounder f fun d r x t =>
    let (w, fl) := qround 1024 (quireInt 1024 (s.tile.quire f.srcA).toNat) x d (r.word 0)
    t.putVa 5 f (elemLanes (s.tile.preg f.pred.toNat) d.width) (repeated d.width w) fl)

/-! ### Lane quires in the accumulator (R195-R197) -/

/-- A lane-quire instruction or a modifying beat in a handler: MX_OWNED without ownership, and restored marks are cleared (R227). -/
def State.modifyMx (s : State) (k : State → State) : State :=
  if s.ctl.handler then
    if s.tile.mx.owned then k (s.onMx fun m => { m with restored := [] }) else s.raise causeMxOwned 0
  else k s

/-- The view of a lane of `w` bits. -/
def laneView (w : Nat) : Nat := if w = 8 then 0 else if w = 16 then 1 else 2

/-- A vector whose inactive elements are zero (R145). -/
def activeOnly (m : PReg) (w : Nat) (v : VReg) : VReg := merge (elemLanes m w) v 0

/-- A contribution to every active lane at t + 4. -/
def State.laneTerm (s : State) (f : RG) (product : Bool) : State :=
  s.modifyMx fun s =>
    let t := s.tile
    match commonWidth (if product then [t.aFmt, t.bFmt] else [t.aFmt]), t.aFmt with
    | some w, some fa =>
      let fb := if product then t.bFmt.getD fa else fa
      if product && decide (laneView w < max fa.view fb.view) then s.illegal
      else
        let m := t.preg f.pred.toNat
        let a := activeOnly m w (t.vector f.srcA w)
        let b := if product then activeOnly m w (t.vector f.srcB w) else 0
        (s.touchV (if product then [f.srcA, f.srcB] else [f.srcA])).issue 4 (.acc (f.dst.getLsbD 0))
          (.laneAdd product (t.csr.vfmt.toNat % 32) (t.csr.vfmt.toNat / 32 % 32) a b) 0 f.nwb none
    | _, _ => s.illegal

/-- VLQMAC (R196). -/
def execVlqmac (f : RG) (s : State) : Out := .next (s.laneTerm f true)

/-- VLQADD (R196). -/
def execVlqadd (f : RG) (s : State) : Out := .next (s.laneTerm f false)

/-- VLQRND (R197): reads the active lanes after the landings of t, and clears them when asked. -/
def execVlqrnd (f : RG) (s : State) : Out :=
  .next (s.modifyMx fun s =>
    s.rounder f fun d r x t =>
      let w := d.width
      let p := f.srcA.getLsbD 0
      let m := s.tile.preg f.pred.toNat
      let acc := s.tile.mx.plane p
      let (v, fl) := mapElems w (activeEl m w) fun e => qround (32 * w) (quireInt (32 * w) (slice acc.toNat (32 * w) e)) x d (r.word e)
      let t := t.putVa 5 f (elemLanes m w) v fl
      if f.srcA.getLsbD 1 then
        t.onMx fun mx => mx.setPlane p (mapPlane (32 * w) acc fun k c => (if activeEl m w k then 0 else c, 0)).1
      else t)

/-- VLQCLR (R197): the plane is cleared at t + 2, after the contributions that land then. -/
def execVlqclr (f : RG) (s : State) : Out :=
  .next (s.whole f (s.modifyMx fun s => s.issue 2 (.acc (f.dst.getLsbD 0)) (.word 0) 0 f.nwb none))

end Sys2Proof.Machine
end

