-- ==== Sys2Proof/Machine/Move.lean ====
section
/-! DEFINITION. The VB slot: conversions, T4 packing, data movement, random words, selection, digests, special functions and
predicate operations (spec/07_vector.md R199-R208). -/

namespace Sys2Proof.Machine

/-! ### Conversions (R199) -/

/-- VCVT (R199): srcB is the source format and the part. -/
def execVcvt (f : RG) (s : State) : Out :=
  let h := f.srcB.toNat / 32
  .next (
    match Fmt.ofCode (f.srcB.toNat % 32), commonWidth [s.tile.dFmt], s.tile.dFmt, s.tile.vecRaw f.srcA s.tile.aFmt with
    | some src, some wd, some d, some a =>
      let ws := src.width
      match s.tile.rounding d with
      | none => s.illegal
      | some r =>
        if max ws wd / min ws wd ≤ h then s.illegal
        else
          let m := s.tile.preg f.pred.toNat
          let base := if wd < ws then h * (2048 / ws) else 0
          let part := fun e => decide (base ≤ e) && (!decide (wd < ws) || decide (e < base + 2048 / ws))
          let act := fun e => part e && activeEl m wd e
          let (v, fl) := mapElems wd act fun e =>
            let (x, f1) := src.xval (elem a ws (if wd < ws then e - base else e + h * (if ws < wd then 2048 / wd else 0)))
            let (w, f2) := d.rnd x (r.word e)
            (w, f1 ||| f2)
          ((s.touchV [f.srcA]).touchR r).putVb 3 f (lanesWhere wd act) v fl
    | _, _, _, _ => s.illegal)

/-! ### T4 blocks (R200, R201) -/

/-- ceil(log2(n / d)). -/
def ceilLog2 (n d : Nat) : Int :=
  let l := floorLog2 n d
  let (p, q) := scale2 1 1 l
  if n * q = p * d then l else l + 1

/-- The greater magnitude of two finite values. -/
def maxMag (a b : Val) : Val := if a.abs.lt b.abs then b.abs else a.abs

/-- A block of eight values in T4 with exponent size `es`: its E8 byte, its nibbles and the flags raised (R200). -/
def packBlock (es : Nat) (xs : List Val) (z : Nat → Option Nat) : Nat × List Nat × Flags :=
  if xs.any (fun x => x.isNan || x.isInf) then
    (0xFF, xs.map (fun _ => 8), if xs.any Val.isInf then Flag.INV else 0)
  else
    let e8 : Nat :=
      match xs.foldl maxMag .zero with
      | .fin _ n d =>
        if n = 0 then 0x7F
        else
          let g : Int := if es = 0 then 2 else 4
          (max 0x20 (min 0xDF (ceilLog2 n d + 127 - g))).toNat
      | _ => 0x7F
    let ws := xs.zipIdx.map fun x =>
      match x.1 with
      | .fin s n d =>
        let (p, q) := scale2 n d (127 - (e8 : Int))
        tround (.fin s p q) 4 es (z x.2)
      | v => tround v 4 es (z x.2)
    (e8, ws.map (·.1), ws.foldl (fun fl w => fl ||| w.2) 0)

/-- VPACK4 (R200): the nibbles and E8 bytes of part h; vb1 receives vd. -/
def execVpack4 (f : RG) (s : State) : Out :=
  let h := f.srcB.toNat
  .next (
    match commonWidth [s.tile.aFmt], s.tile.aFmt, s.tile.dFmt with
    | some w, some fa, some (.tap 4 es) =>
      match s.tile.rounding (.tap 4 es) with
      | none => s.illegal
      | some r =>
        let n := 2048 / w
        if 512 / n ≤ h then s.illegal
        else
          let a := s.tile.vector f.srcA w
          let m := s.tile.preg f.pred.toNat
          let val := fun e => if activeEl m w e then fa.xval (elem a w e) else (.zero, 0)
          let block := fun b => packBlock es ((List.range 8).map fun k => (val (8 * b + k)).1) fun k => r.word (h * n + 8 * b + k)
          let bs := (List.range (n / 8)).map block
          let fl := (List.range n).foldl (fun x e => x ||| (val e).2) (bs.foldl (fun x b => x ||| b.2.2) 0)
          let nib := (bs.flatMap (·.2.1)).foldr (fun x y => x + 16 * y) 0
          let exps := (bs.map (·.1)).foldr (fun x y => x + 256 * y) 0
          let b0 := h * n / 8
          let s := ((s.touchV [f.srcA]).touchR r).putVb 3 f (BitVec.ofNat 256 ((2 ^ (n / 2) - 1) * 2 ^ (h * n / 2)))
            (BitVec.ofNat 2048 (nib * 2 ^ (4 * h * n))) fl
          s.putV 3 (f.dst.toNat + 1) (BitVec.ofNat 256 ((2 ^ (n / 8) - 1) * 2 ^ b0)) (BitVec.ofNat 2048 (exps * 2 ^ (8 * b0))) 0
            f.nwb none
    | _, _, _ => s.illegal)

/-- VUNPACK4 (R201). -/
def execVunpack4 (f : RG) (s : State) : Out :=
  let h := f.srcB.toNat
  .next (
    match s.tile.aFmt, commonWidth [s.tile.dFmt], s.tile.dFmt with
    | some (.tap 4 es), some w, some d =>
      match s.tile.rounding d with
      | none => s.illegal
      | some r =>
        let n := 2048 / w
        if 512 / n ≤ h then s.illegal
        else
          let a := s.tile.vreg f.srcA.toNat
          let x := s.tile.vreg (f.srcA.toNat + 1)
          let m := s.tile.preg f.pred.toNat
          let (v, fl) := mapElems w (activeEl m w) fun e =>
            let i := h * n + e
            let (u, f1) := bdecode (elem a 4 i) (elem x 8 (i / 8)) es
            let (y, f2) := d.rnd u (r.word e)
            (y, f1 ||| f2)
          (s.touchR r).putVb 3 f (elemLanes m w) v fl
    | _, _, _ => s.illegal)

/-! ### Data movement (R202, R203) -/

/-- VPERM (R202). -/
def execVperm (f : RG) (s : State) : Out :=
  .next (s.rawOp f fun a b t =>
    t.putVb 2 f (s.tile.preg f.pred.toNat) (pack 8 fun j => byteOf a (byteOf b j)) 0)

/-- An instruction on one raw vector operand. -/
def State.rawUnary (s : State) (f : RG) (k : VReg → State → State) : State :=
  match s.tile.vecRaw f.srcA s.tile.aFmt with
  | some a => k a (s.touchV [f.srcA])
  | none => s.illegal

/-- The byte count n = sb[7:0]. -/
def State.byteCount (s : State) (f : RG) : Nat := (s.tile.scalar f.srcB).toNat % 256

/-- VROTL (R202). -/
def execVrotl (f : RG) (s : State) : Out :=
  .next (s.rawUnary f fun a t => (t.touchS [f.srcB]).putVb 2 f (s.tile.preg f.pred.toNat) (a.rotateLeft (8 * s.byteCount f)) 0)

/-- VSLIDE (R202): vd above va, shifted down by n bytes. -/
def execVslide (f : RG) (s : State) : Out :=
  let n := s.byteCount f
  .next (s.rawUnary f fun a t =>
    (t.touchS [f.srcB]).putVb 2 f (s.tile.preg f.pred.toNat)
      ((a >>> (8 * n)) ||| (s.tile.vreg f.dst.toNat <<< (2048 - 8 * n))) 0)

/-- The byte lanes of active elements, for 4-bit elements too (R32). -/
def lanesOf (m : PReg) (w : Nat) : PReg := if w = 4 then m else elemLanes m w

/-- VBCAST (R202). -/
def execVbcast (f : RG) (s : State) : Out :=
  .next (s.rawUnary f fun a t =>
    match s.tile.dFmt with
    | none => s.illegal
    | some d =>
      let w := d.width
      (t.touchS [f.srcB]).putVb 2 f (lanesOf (s.tile.preg f.pred.toNat) w)
        (repeated w (elem a w ((s.tile.scalar f.srcB).toNat % (2048 / w)))) 0)

/-- VIOTA (R202). -/
def execViota (f : RG) (s : State) : Out :=
  .next (
    match commonWidth [s.tile.dFmt], s.tile.dFmt with
    | some w, some d =>
      match s.tile.rounding d with
      | none => s.illegal
      | some r =>
        let b := signedOf ((s.tile.scalar f.srcA).toNat % 2 ^ 32) 32
        let m := s.tile.preg f.pred.toNat
        let (v, fl) := mapElems w (activeEl m w) fun e => d.rnd (.ofInt (b + e)) (r.word e)
        ((s.touchS [f.srcA]).touchR r).putVb 2 f (elemLanes m w) v fl
    | _, _ => s.illegal)

/-- VMOV (R202). -/
def execVmov (f : RG) (s : State) : Out :=
  .next (s.rawUnary f fun a t => t.putVb 2 f (s.tile.preg f.pred.toNat) a 0)

/-- VEXT (R203): an element to a scalar register; vb1 receives it. -/
def execVext (f : RG) (s : State) : Out :=
  .next (s.whole f (s.rawUnary f fun a t =>
    match s.tile.dFmt with
    | none => s.illegal
    | some d =>
      let x := elem a d.width ((s.tile.scalar f.srcB).toNat % (2048 / d.width))
      (t.touchS [f.srcB]).issue 2 (.s f.dst.toNat s.ctl.handler) (.word (Fmt.toScalar d x)) 0 f.nwb (some .vb1)))

/-- VINS (R203): the other elements keep the values read at issue. -/
def execVins (f : RG) (s : State) : Out :=
  .next (s.whole f (
    match s.tile.dFmt with
    | none => s.illegal
    | some d =>
      let w := d.width
      let e := (s.tile.scalar f.srcB).toNat % (2048 / w)
      let k := BitVec.ofNat 2048 ((2 ^ w - 1) * 2 ^ (w * e))
      let x := BitVec.ofNat 2048 ((s.tile.scalar f.srcA).toNat % 2 ^ w * 2 ^ (w * e))
      (s.touchS [f.srcA, f.srcB]).putVb 2 f (BitVec.allOnes 256) ((s.tile.vreg f.dst.toNat &&& ~~~k) ||| x) 0))

/-! ### Random words, selection and digests (R204-R206) -/

/-- VRAND (R204). -/
def execVrand (f : RG) (s : State) : Out :=
  let t := (s.tile.scalar f.srcA).toNat % 2 ^ 32
  let c := (s.tile.scalar f.srcB).toNat
  let m := s.tile.preg f.pred.toNat
  let (v, _) := mapElems 32 (activeEl m 32) fun e => (vrand s.tile.csr.seed.toNat t ((c + e) % 2 ^ 64), 0)
  .next ((s.touchS [f.srcA, f.srcB]).putVb 4 f (elemLanes m 32) v 0)

/-- A candidate of VTOPK: value, raw word, index. -/
structure Candidate where
  val : Val
  word : Nat
  index : Nat
deriving DecidableEq, Repr

/-- The order of candidates: the greater value first, NaR and NaN last, equal values by index (R205). -/
def Candidate.before (x y : Candidate) : Bool :=
  if x.val.isNan then y.val.isNan && decide (x.index < y.index)
  else if y.val.isNan then true
  else y.val.lt x.val || (x.val.eqv y.val && decide (x.index < y.index))

/-- Insertion into a list in that order, after its equals. -/
def insertCandidate (x : Candidate) : List Candidate → List Candidate
  | [] => [x]
  | y :: r => if x.before y then x :: y :: r else y :: insertCandidate x r

/-- An empty entry. -/
def emptyIndex : Nat := 0xFFFFFFFF

/-- VTOPK (R205). -/
def execVtopk (f : RG) (s : State) : Out :=
  let sb := (s.tile.scalar f.srcB).toNat
  let k := bitsOf sb 32 6
  .next (
    match commonWidth [s.tile.aFmt], s.tile.aFmt with
    | some w, some fa =>
      if k = 0 ∨ 32 < k ∨ sb / 2 ^ 39 ≠ 0 then s.illegal
      else
        let a := s.tile.vector f.srcA w
        let m := s.tile.preg f.pred.toNat
        let d := s.tile.vreg f.dst.toNat
        let new := ((List.range (2048 / w)).filter (activeEl m w)).map fun e => (elem a w e, (sb + e) % 2 ^ 32)
        let old := if bitsOf sb 38 1 = 1 then [] else (List.range 32).map fun i => (elem d 64 i % 2 ^ 32, elem d 64 i / 2 ^ 32)
        let cs := (new ++ old).filter (fun c => c.2 != emptyIndex)
        let fl := cs.foldl (fun x c => x ||| (fa.xval c.1).2) 0
        let top := (cs.foldl (fun l c => insertCandidate ⟨(fa.xval c.1).1, c.1, c.2⟩ l) []).take k
        let v := packGo 64 (fun i => match top[i]? with
          | some c => c.word + c.index * 2 ^ 32
          | none => emptyIndex * 2 ^ 32) 32
        ((s.touchV [f.srcA]).touchS [f.srcB]).putVb 10 f (BitVec.allOnes 256) (BitVec.ofNat 2048 v) fl
    | _, _ => s.illegal)

/-- Bytes `lo … lo + n - 1` of a vector. -/
def vecBytes (v : VReg) (lo n : Nat) : List Nat := (List.range n).map fun j => byteOf v (lo + j)

/-- VDIGEST (R206): the SHA-256 compression of 1 to 4 blocks, with no padding. -/
def execVdigest (f : RG) (s : State) : Out :=
  let sb := (s.tile.scalar f.srcB).toNat
  let n := sb % 8
  .next (s.whole f (s.rawUnary f fun a t =>
    if n = 0 ∨ 4 < n ∨ sb / 16 ≠ 0 then s.illegal
    else
      let h := if bitsOf sb 3 1 = 1 then Sha.h0 else Sha.words 8 (vecBytes (s.tile.vreg f.dst.toNat) 0 32)
      let r := (Sha.blocks n h (vecBytes a 0 256)).flatMap Sha.toBe
      (t.touchS [f.srcB]).putVb 6 f (BitVec.allOnes 256) (BitVec.ofNat 2048 (r.foldr (fun x y => x + 256 * y) 0)) 0))

/-! ### Special functions (R207) -/

/-- A special function on the elements of va; AFMT decides which special cases apply. -/
def State.special (s : State) (f : RG) (op : Bool → Val → OpRes) : State :=
  let t := s.tile
  match commonWidth [t.aFmt, t.dFmt], t.aFmt, t.dFmt with
  | some w, some fa, some fd =>
    match t.rounding fd with
    | none => s.illegal
    | some r =>
      let a := t.vector f.srcA w
      let m := t.preg f.pred.toNat
      let (v, fl) := mapElems w (activeEl m w) fun e =>
        let (x, f1) := fa.xval (elem a w e)
        let (y, f2) := (op fa.isIeee x).deliver fa.isIeee fd (r.word e)
        (y, f1 ||| f2)
      ((s.touchV [f.srcA]).touchR r).putVb 6 f (elemLanes m w) v fl
  | _, _, _ => s.illegal

/-- VRECIP (R207). -/
def execVrecip (f : RG) (s : State) : Out := .next (s.special f vrecip)

/-- VRSQRT (R207). -/
def execVrsqrt (f : RG) (s : State) : Out := .next (s.special f vrsqrt)

/-- VSQRT (R207). -/
def execVsqrt (f : RG) (s : State) : Out := .next (s.special f vsqrt)

/-- VEXP2 (R207). -/
def execVexp2 (f : RG) (s : State) : Out := .next (s.special f fun _ => vexp2)

/-- VLOG2 (R207). -/
def execVlog2 (f : RG) (s : State) : Out := .next (s.special f vlog2)

/-- VTANH (R207). -/
def execVtanh (f : RG) (s : State) : Out := .next (s.special f fun _ => vtanh)

/-- VSIGM (R207). -/
def execVsigm (f : RG) (s : State) : Out := .next (s.special f fun _ => vsigm)

/-! ### Predicate operations (R208) -/

/-- A predicate of the VB slot. -/
def State.putP (s : State) (f : RG) (v : PReg) : State :=
  s.issue 2 (.p f.dst.toNat) (.bits (BitVec.allOnes 256) v) 0 f.nwb (some .vb1)

/-- PAND (R208). -/
def execPand (f : RG) (s : State) : Out :=
  .next (s.putP f (s.tile.preg f.srcA.toNat &&& s.tile.preg f.srcB.toNat))

/-- POR (R208). -/
def execPor (f : RG) (s : State) : Out :=
  .next (s.putP f (s.tile.preg f.srcA.toNat ||| s.tile.preg f.srcB.toNat))

/-- PXOR (R208). -/
def execPxor (f : RG) (s : State) : Out :=
  .next (s.putP f (s.tile.preg f.srcA.toNat ^^^ s.tile.preg f.srcB.toNat))

/-- PNOT (R208). -/
def execPnot (f : RG) (s : State) : Out := .next (s.putP f (~~~(s.tile.preg f.srcA.toNat)))

/-- PSET (R208): the bits of elements 0 to n - 1. -/
def execPset (f : RG) (s : State) : Out :=
  let n := (s.tile.scalar f.srcA).toNat % 2 ^ 32
  let c := f.srcB.toNat
  let k := if c = 1 then 2 * n else if c = 2 then 4 * n else if c = 3 then (n + 1) / 2 else n
  .next ((s.touchS [f.srcA]).putP f (BitVec.ofNat 256 (2 ^ min k 256 - 1)))

end Sys2Proof.Machine
end

