-- ==== Sys2Proof/Machine/Matrix.lean ====
section
/-! DEFINITION. The matrix beats of the MX slot (spec/08_matrix_copy.md R209-R228). -/

namespace Sys2Proof.Machine

/-! ### Operand loads and the feed port (R211-R213) -/

/-- The cells of the feed port that an earlier beat writes in a cycle. -/
def Tile.feedWrites (t : Tile) (c : Nat) : Bool := t.io.stores.any fun x => x.kind == .feed && x.due == c

/-- Two words of one bank among the bytes at offsets: the offset that shows it. -/
def feedClash (os : List Nat) : Option Nat :=
  (os.zipIdx.find? fun o => (os.take o.2).any fun p => p / 16 % 16 == o.1 / 16 % 16 && p / 16 != o.1 / 16).map (·.1)

/-- The checks of a beat that reads `z` bytes at each offset in its issue cycle (R213). -/
def State.feedRead (s : State) (os : List Nat) (z : Nat) (k : State → State) : State :=
  match os.find? (fun o => decide (spadBytes < o + z)), os.find? (fun o => o % z != 0), feedClash os, os with
  | some o, _, _, _ => s.raise causeSpadRange o
  | none, some o, _, _ => s.raise causeMisalignedAccess o
  | none, none, some o, _ => s.raise causeMxBank o
  | none, none, none, o :: _ => if s.tile.feedWrites s.cycle then s.raise causeMxBank o else (k s).touchSpad os
  | none, none, none, [] => k s

/-- The checks of a beat that moves `n` bytes at a 16-byte aligned base: `reads` in its issue cycle, or writes `n / 256` times from
`first` cycles on. -/
def State.feedBlock (s : State) (base n : Nat) (reads : Bool) (first : Nat) (k : State → State) : State :=
  if spadBytes < base + n then s.raise causeSpadRange base
  else if base % 16 ≠ 0 then s.raise causeMisalignedAccess base
  else if reads then (if s.tile.feedWrites s.cycle then s.raise causeMxBank base else (k s).touchSpad (span base n))
  else if (List.range (n / 256)).any (fun i => s.tile.feedWrites (s.after (first + i))) then s.raise causeMxBank base
  else k s

/-- The configured formats form a legal configuration (R215). -/
def Mx.configOk (m : Mx) : Bool := mxConfigOk m.mode m.aFmt m.bFmt m.dFmt

/-- The offsets of operand elements i0 … i0 + n - 1 of a source, none for a vector register. -/
def Tile.beatOffsets (t : Tile) (c : BitVec 7) (cursor i0 n : Nat) : List Nat :=
  if isDescr c then (List.range n).map fun i => (t.descriptor c).offset cursor (i0 + i) else []

/-- The operand word of a source: 16 bytes of a vector register, or the elements at offsets. -/
def Tile.beatWord (t : Tile) (c : BitVec 7) (row z : Nat) (os : List Nat) : BitVec 128 :=
  if isDescr c then BitVec.ofNat 128 (packGo (8 * z) (fun i => t.spad.nat (os.getD i 0) z) (16 / z))
  else (t.vreg c.toNat).extractLsb' (128 * row) 128

/-- Advance a cursor. -/
def bump (c : BitVec 19) (on : Bool) (n : Nat) : BitVec 19 := if on then c + BitVec.ofNat 19 n else c

/-- A pending effect of the accumulator. -/
def State.pendMx (s : State) (l : Nat) (k : MxKind) : State :=
  s.onMx fun m => { m with pending := m.pending ++ [{ due := s.after l, kind := k }] }

/-! ### Beats -/

/-- MCFG (R215): beats of the next cycle on use the new configuration. -/
def execMcfg (f : Beat) (s : State) : Out :=
  .next (s.modifyMx fun s => s.onMx fun m =>
    { m with mode := f.row.toNat, aFmt := f.srcA.setWidth 5, bFmt := f.srcB.setWidth 5, dFmt := f.flags })

/-- MACC (R216, R217): the loads, the contribution of the latches as they then stand, and the post-increments. -/
def execMacc (f : Beat) (s : State) : Out :=
  .next (s.modifyMx fun s =>
    let t := s.tile
    let m := t.mx
    if !m.configOk || (m.mode == 3 && f.plane) then s.illegal
    else
      let z := elemBytes m.mode
      let la := f.flags.getLsbD 0
      let lb := f.flags.getLsbD 1
      let oa := if la then t.beatOffsets f.srcA m.ca.toNat 0 (16 / z) else []
      let ob := if lb then t.beatOffsets f.srcB m.cb.toNat 0 (16 / z) else []
      s.feedRead (oa ++ ob) z fun s =>
        let a := if la then (m.aLatch >>> 128 <<< 128) ||| (t.beatWord f.srcA f.row.toNat z oa).setWidth 256 else m.aLatch
        let b := if lb then t.beatWord f.srcB f.row.toNat z ob else m.bLatch
        let s := s.onMx fun m =>
          { m with
            aLatch := a
            bLatch := b
            ca := bump m.ca (f.flags.getLsbD 2) (t.descriptor f.srcA).pinc
            cb := bump m.cb (f.flags.getLsbD 3) (t.descriptor f.srcB).pinc }
        s.pendMx 3 (.macc m.mode f.plane m.aFmt.toNat m.bFmt.toNat (a.setWidth 128) b))

/-- MSHIFT (R218): high-half load, shift, cursors. -/
def execMshift (f : Beat) (s : State) : Out :=
  .next (s.modifyMx fun s =>
    let t := s.tile
    let m := t.mx
    let z := elemBytes m.mode
    let lh := f.flags.getLsbD 1
    let tw := f.flags.getLsbD 4
    let oa := if lh then t.beatOffsets f.srcA m.ca.toNat (16 / z) (16 / z) else []
    let step := fun (d : Descriptor) => if tw then d.tpitch else d.pinc
    s.feedRead oa z fun s =>
      s.onMx fun m =>
        let a := if lh then (m.aLatch.setWidth 128).setWidth 256 ||| (t.beatWord f.srcA f.row.toNat z oa).setWidth 256 <<< 128 else m.aLatch
        { m with
          aLatch := if f.flags.getLsbD 0 then a >>> (8 * z) else a
          ca := bump m.ca (f.flags.getLsbD 2) (step (t.descriptor f.srcA))
          cb := bump m.cb (f.flags.getLsbD 3) (step (t.descriptor f.srcB)) })

/-- The value that a block-plane entry folds into its cell, in LSBs of the M view (R219). -/
def foldValue (entry ea eb : Nat) : Option Int :=
  if e8Reserved ea || e8Reserved eb || ea == 0xFF || eb == 0xFF then none
  else
    match quireInt 32 entry with
    | none => none
    | some v => some (v * (2 ^ (256 - 8 + ea + eb - 254) : Nat))

/-- MSCALE (R219): every entry of the block plane is folded into its cell, in the issue cycle. -/
def execMscale (f : Beat) (s : State) : Out :=
  .next (s.modifyMx fun s =>
    let t := s.tile
    let m := t.mx
    if m.mode ≠ 3 ∨ !m.configOk then s.illegal
    else
      let va := t.vreg f.srcA.toNat
      let vb := t.vreg f.srcB.toNat
      let ea := fun i => byteOf va (16 * f.row.toNat + i)
      let eb := fun j => byteOf vb (16 * (f.flags.toNat % 16) + j)
      let inv := (List.range 16).any fun i => e8Reserved (ea i) || e8Reserved (eb i)
      let cell := fun (base k c : Nat) =>
        let i := base + k / 16
        let j := k % 16
        let (q, fl) := qadd 512 (quireInt 512 c) (foldValue (slice m.blk.toNat 32 (16 * i + j)) (ea i) (eb j))
        (quireWord 512 q, fl)
      let (x, f1) := mapPlane 512 m.acc0 (cell 0)
      let (y, f2) := mapPlane 512 m.acc1 (cell 8)
      let fl := f1 ||| f2 ||| (if inv then Flag.INV else 0)
      let s := s.onTile fun t => (t.onMx fun m => { m with acc0 := x, acc1 := y, blk := 0 }).flag fl
      let hit := fl.setWidth 32 &&& s.tile.csr.ten &&& 0xFF
      if hit = 0 then s else s.noteLanding causeArith (hit.setWidth 64))

/-- A row of cells with its bits replaced by zero. -/
def Mx.clearRow (m : Mx) (p : Bool) (lo n : Nat) : Mx :=
  let x := m.plane p
  m.setPlane p (x &&& ~~~(BitVec.ofNat 65536 ((2 ^ n - 1) * 2 ^ lo)))

/-- The plane, first bit and bits of row `r` (R73, R209). -/
def rowSpan (mode : Nat) (p : Bool) (r : Nat) : Bool × Nat × Nat :=
  let n := cellsPerRow mode * cellBits mode
  if mode = 3 then (decide (8 ≤ r), n * (r % 8), n) else (p, n * r, n)

/-- MDRAIN (R221): each cell of the row is rounded once. -/
def execMdrain (f : Beat) (s : State) : Out :=
  .next (s.modifyMx fun s =>
    let t := s.tile
    let m := t.mx
    match m.configOk, Fmt.ofCode m.dFmt.toNat with
    | true, some d =>
      let n := cellsPerRow m.mode
      let g := f.flags.toNat % 16
      if rowsOf m.mode ≤ f.row.toNat ∨ (m.mode = 3 ∧ f.plane) ∨ 2048 / d.width < n * (g + 1) then s.illegal
      else
        match t.rounding d with
        | none => s.illegal
        | some r =>
          let (p, lo, len) := rowSpan m.mode f.plane f.row.toNat
          let w := cellBits m.mode
          let row := ((m.plane p).toNat / 2 ^ lo) % 2 ^ len
          let sv := t.vreg (f.srcB.toNat % 32)
          let one := fun j =>
            let x := if f.srcB.getLsbD 6 then tdecode (elem sv 32 j) 32 2 else .fin false 1 1
            qround w (quireInt w (slice row w j)) x d (r.word (16 * f.row.toNat + j))
          let part := fun e => decide (n * g ≤ e) && decide (e < n * (g + 1))
          let (v, fl) := mapElems d.width part fun e => one (e - n * g)
          let s := (s.touchR r).putV 5 f.srcA.toNat (lanesWhere d.width part) v fl false (some .vb3)
          if f.flags.getLsbD 4 then s.onMx fun m => m.clearRow p lo len else s
    | _, _ => s.illegal)

/-- Writes of 256 bytes through the feed port in successive cycles from `first` on. -/
def State.feedStores (s : State) (base first : Nat) : List (List Byte) → State
  | [] => s
  | bs :: r => (s.store first .feed (cellsAt base bs)).feedStores (base + 256) (first + 1) r

/-- A number of 256 · n bytes in pieces of 256 bytes. -/
def pieces (x n : Nat) : List (List Byte) := (List.range n).map fun i => natBytes (slice x 2048 i) 256

/-- MDRAINQ (R222): a row, exactly, to the scratchpad. -/
def execMdrainq (f : Beat) (s : State) : Out :=
  .next (s.modifyMx fun s =>
    let m := s.tile.mx
    if rowsOf m.mode ≤ f.row.toNat ∨ (m.mode = 3 ∧ f.plane) then s.illegal
    else
      let d := s.tile.descriptor f.srcA
      let (p, lo, len) := rowSpan m.mode f.plane f.row.toNat
      let base := (d.base + m.cd.toNat) % 2 ^ 19
      let first := if m.mode = 3 then 1 else 3
      s.feedBlock base (len / 8) false first fun s =>
        let s := s.feedStores base first (pieces (((m.plane p).toNat / 2 ^ lo) % 2 ^ len) (len / 2048))
        s.onMx fun m =>
          let m := if f.flags.getLsbD 0 then m.clearRow p lo len else m
          { m with cd := bump m.cd (f.flags.getLsbD 1) d.pinc })

/-- MCLR (R223): latches and cursors now, cells and block plane at t + 3. -/
def execMclr (f : Beat) (s : State) : Out :=
  .next (s.modifyMx fun s =>
    let s := s.onMx fun m =>
      { m with
        aLatch := if f.flags.getLsbD 3 then 0 else m.aLatch
        bLatch := if f.flags.getLsbD 3 then 0 else m.bLatch
        ca := if f.flags.getLsbD 4 then 0 else m.ca
        cb := if f.flags.getLsbD 4 then 0 else m.cb
        cd := if f.flags.getLsbD 4 then 0 else m.cd }
    if f.flags &&& 7 = 0 then s else s.pendMx 3 (.clear (f.flags &&& 7)))

/-- Chunks of the MX image. -/
def chunkCount : Nat := 69

/-- MSAVE (R225, R227): a chunk to the scratchpad; in a handler it is marked, and the last mark gives ownership. -/
def execMsave (f : Beat) (s : State) : Out :=
  let d := s.tile.descriptor f.srcA
  let c := f.srcB.toNat
  let base := (d.base + s.tile.mx.cd.toNat) % 2 ^ 19
  .next (s.feedBlock base 256 false 1 fun s =>
    let img := s.tile.mx.chunk s.cycle s.unit s.ctl.handler c
    let s := s.store 1 .feed (cellsAt base (natBytes img.toNat 256))
    s.onMx fun m =>
      let marks := if s.ctl.handler && !m.owned && !m.saved.contains c then c :: m.saved else m.saved
      { m with saved := marks, owned := m.owned || decide (chunkCount ≤ marks.length), cd := bump m.cd (f.flags.getLsbD 0) d.pinc })

/-- A pending MACC whose operand formats its mode cannot decode (R55, R215; log 85). -/
def MxKind.badFormats : MxKind → Bool
  | .macc mode _ af bf _ _ => !mxOperandFmt mode (BitVec.ofNat 5 af) || !mxOperandFmt mode (BitVec.ofNat 5 bf)
  | _ => false

/-- Chunk 68 brings a pending MACC whose formats are no formats of its mode. -/
def badRestore (c : Nat) (v : VReg) : Bool := c == 68 && (restoredPend 0 1 v 0 ++ restoredPend 0 1 v 1).any (·.kind.badFormats)

/-- MRESTORE (R225-R227): a chunk from the scratchpad, placed in the next cycle; without ownership a handler may not. -/
def execMrestore (f : Beat) (s : State) : Out :=
  let d := s.tile.descriptor f.srcA
  let c := f.srcB.toNat
  let base := (d.base + s.tile.mx.cd.toNat) % 2 ^ 19
  .next (
    if s.ctl.handler && !s.tile.mx.owned then s.raise causeMxOwned 0
    else if decide (base + 256 ≤ spadBytes) && base % 16 == 0 && badRestore c (BitVec.ofNat 2048 (s.tile.spadNat base 256)) then s.illegal
    else
      s.feedBlock base 256 true 0 fun s =>
        let v := BitVec.ofNat 2048 (s.tile.spadNat base 256)
        let s := s.onMx fun m =>
          { m with
            pending := if s.ctl.handler then m.pending.filter (fun p => !p.kind.recorded) else m.pending
            restored := if s.ctl.handler && !m.restored.contains c then c :: m.restored else m.restored
            cd := bump m.cd (f.flags.getLsbD 0) d.pinc }
        s.pendMx 1 (.chunk c v))

/-- MBAR (R228): as BARARR, after the tile's drains and saves too. -/
def execMbar (f : Beat) (s : State) : Out := .next (s.arrive f.flags.toNat true)

end Sys2Proof.Machine
end

