-- ==== Sys2Proof/Machine/CopySlot.lean ====
section
/-! DEFINITION. The CP slot (spec/08_matrix_copy.md R229-R232). -/

namespace Sys2Proof.Machine

/-- A result of the CP slot: latency 1, no latch (R230). -/
def State.putCp (s : State) (d : BitVec 6) (v : W64) : State :=
  s.issue 1 (.s d.toNat s.ctl.handler) (.word v) 0 false none

/-- The binding that a CP instruction names; an empty one, or a WATCH binding where it pushes, is ILLEGAL_OPERAND. -/
def State.withBinding (s : State) (f : Copy) (push : Bool) (k : Binding → State) : State :=
  if s.tile.predOn f.pred then
    match s.binding s.tile f.bnd.toNat with
    | none => s.illegal
    | some b => if push && b.kind == 3 then s.illegal else k b
  else s

/-- Packet kinds that a tile may push (R231). -/
def pushable (hvpriv : Bool) (k : Nat) : Bool :=
  [0x01, 0x02, 0x04, 0x05, 0x07, 0x08, 0x09, 0x0B].contains k || (hvpriv && k == 0x0A)

/-- The entry of a push in the request queue, the push outstanding at its queue and its tile, and what follows when there is room. -/
def State.pushPacket (s : State) (f : Copy) (b : Binding) (bs : List Byte) (k : State → State) : State :=
  let index := if b.kind = 1 then some b.wrsh.toNat else none
  s.pushRequest (fun id => .push id b.queue index bs) fun s id =>
    let s := s.onIo fun p =>
      { p with
        copies := p.copies ++ [(id, b.queue, index)]
        bindings := if b.kind = 1 then put p.bindings f.bnd.toNat { b with wrsh := b.wrsh + 1 } else p.bindings }
    k (match find s.queues b.queue with
      | some q => { s with queues := put s.queues b.queue { q with pushes := q.pushes + 1 } }
      | none => s)

/-- CQPUSH (R231): the packet is sampled in the issue cycle. -/
def execCqpush (f : Copy) (s : State) : Out :=
  let o := (s.tile.scalar f.srcB).toNat % 2 ^ 32
  .next (s.withBinding f true fun b =>
    (s.touchS [f.srcB]).checked o 64 64 spadBytes fun s =>
      let bs := s.tile.spad.bytes o 64
      let ver := fieldOf bs 1 1
      if !pushable s.tile.place.hvpriv (fieldOf bs 0 1) || (ver != 1 && ver != 2) then s.illegal
      else
        s.pushPacket f b bs fun t => (t.putCp f.reg (if b.kind = 1 then b.wrsh + 1 else 0)).touchSpad (span o 64))

/-- CWAIT (R230). -/
def execCwait (f : Copy) (s : State) : Out :=
  .next (s.withBinding f false fun _ => (s.touchS [f.srcB]).startWait (.copy f.bnd.toNat (s.tile.scalar f.srcB)))

/-- CDONE (R230). -/
def execCdone (f : Copy) (s : State) : Out := .next (s.withBinding f false fun b => s.putCp f.reg b.donesh)

/-- CKICK (R230). -/
def execCkick (f : Copy) (s : State) : Out :=
  .next (s.withBinding f true fun b => s.pushRequest (fun _ => .kick b.queue) fun s _ => s)

/-- CQRES (R230, R232): the status last published. -/
def execCqres (f : Copy) (s : State) : Out := .next (s.withBinding f false fun b => s.putCp f.reg b.status)

end Sys2Proof.Machine
end

