-- ==== Sys2Proof/Machine/TileEvents.lean ====
section
/-! DEFINITION. The events of one tile beside its bundles: trap entry, the end of a wait, the start of a task, the stop of a gang
and a pre-emption request (spec/05_scalar_control.md R136-R144; spec/06_memory_sync_ops.md R172; spec/13_group.md R310-R316). -/

namespace Sys2Proof.Machine

/-! ### Shared operations -/

/-- Run with another tile in focus, and come back. -/
def State.atTile (s : State) (t : Nat) (f : State → State) : State := (f (s.focus t)).focus s.cur

/-- Run at every tile of a list. -/
def State.forTiles (s : State) (ts : List Nat) (f : State → State) : State := ts.foldl (fun s t => s.atTile t f) s

/-- An event about a tile that the module does not have stops. -/
def State.needTile (s : State) (t : Nat) (k : State) : Out := if s.tileExists t then .next k else .fault (.noSuchObject t)

/-- An event about an object whose number is out of range stops. -/
def State.need (_ : State) (n bound : Nat) (k : State) : Out := if n < bound then .next k else .fault (.noSuchObject n)
/-- What the host sends comes through the CXL port, when it carries accesses (R365). -/
def State.needHost (s : State) (n bound : Nat) (k : State) : Out := s.need n bound (if s.hostPort then k else s)

/-- A group's record changed. -/
def State.onGroup (s : State) (g : Nat) (f : Group → Group) : State :=
  match find s.groups g with
  | some x => { s with groups := put s.groups g (f x) }
  | none => s

/-! ### Traps -/

/-- A gang's stop is reached: the tile takes its own condition, or the one whose signal fixed the index (R312). `stalled`: the index
is a wait bundle that has issued, and the return re-enters the wait. -/
def State.gangEntry (s : State) (i : TrapInfo) (stalled : Bool) : State :=
  let c := s.ctl
  let n := if stalled then c.lastPc else c.pc
  let re :=
    if !i.rewait.isEmpty then i.rewait
    else if stalled then (if c.waits.isEmpty then [Wait.cycle 0] else c.waits)
    else []
  s.enterTrap { i with epc := if i.self then i.epc else n, resume := n, rewait := re }

/-- TRAP_ENTRY (R141, R144, R312): the tile in focus takes the trap it holds: an after-kind one, a landing condition, or, with the
flag, the gang's stop (b = 1 when the gang is stalled in a wait). -/
def execTrapEntry (s : State) : Out :=
  let c := s.ctl
  .next (
    match c.entry with
    | some i =>
      if s.tile.ganged then (if s.args.flag then s.gangEntry i (s.args.b == 1) else s.takeTrap i)
      else s.takeTrap { i with resume := c.pc }
    | none =>
      match c.landing with
      | some i => (s.onCtl fun c => { c with landing := none }).takeTrap { i with epc := c.pc, resume := c.pc }
      | none => s)

/-- GANG_STOP_SIGNAL (R312): the signal of tile `a` reaches its lead and fixes the stop bundle; of the signals of one cycle the
lowest RANK decides what the other tiles report. A tile that has not yet reached a stop of a trap changes nothing: it is one of those
whose own condition arose before it. -/
def execGangStopSignal (s : State) : Out :=
  let k := s.getTile s.args.a
  let stopping := (s.getTile k.place.lead).place.feed.any fun f => f.stop.any (·.cause != 0) && decide (k.place.index ≤ f.index)
  s.needTile s.args.a (
    match k.ctl.entry, stopping with
    | none, _ => s
    | _, true => s
    | some i, false =>
      let g : GangStop := { index := 0, rank := k.place.rank, cycle := s.cycle, info := { i with self := false, rewait := [] } }
      s.atTile k.place.lead fun s => s.onPlace fun p =>
        { p with stop := some (match p.stop with
          | none => { g with index := p.index }
          | some h => if h.cycle = s.cycle ∧ g.rank < h.rank then { g with index := h.index } else h) })

/-! ### Waits -/

/-- Every wait tested once: those that are left, and one that is denied. -/
def State.testWaits (s : State) : List Wait → State × List Wait × Option Wait
  | [] => (s, [], none)
  | w :: r =>
    match s.testWait w with
    | .satisfied s => s.testWaits r
    | .waiting =>
      let (s, l, d) := s.testWaits r
      (s, w :: l, d)
    | .denied =>
      let (s, l, _) := s.testWaits r
      (s, w :: l, some w)

/-- The gate id of a gate wait, for TVAL. -/
def Wait.gateId : Wait → Nat
  | .gate x => x.toNat % 2 ^ 32
  | _ => 0

/-- The tile's status when its waits are over: it issues again, or, after a TEND bundle's wait, starts the next task no earlier than the next
tile cycle, or has ended (R53, R135). -/
def State.afterWaits (s : State) : State :=
  let last := decide (s.taskCount ≤ s.tile.place.task)
  s.onPlace fun p =>
    match p.status with
    | .waiting => { p with status := .issuing }
    | .starting => { p with status := if last then .ended else .starting, taskFrom := max p.taskFrom (s.after 1) }
    | _ => p

/-- WAIT_SATISFIED (R53, R172, R179): the tile in focus tests its waits; when none is left the next bundle issues one tile cycle
later. A gate that has been revoked is GATE_DENIED with a frame that re-enters the wait. -/
def execWaitSatisfied (s : State) : Out :=
  let (s', left, denied) := s.testWaits s.ctl.waits
  .next (
    match denied with
    | some w =>
      (s'.onCtl fun c => { c with waits := left }).takeTrap
        { cause := causeGateDenied, tval := BitVec.ofNat 64 (3 + w.gateId * 2 ^ 32), epc := s.ctl.lastPc, resume := s.ctl.lastPc,
          self := true, rewait := left }
    | none =>
      if left.isEmpty then
        s'.afterWaits.onCtl fun c =>
          { c with waits := [], waited := some s.cycle, nextIssue := s.after 1 }
      else s'.onCtl fun c => { c with waits := left })

/-! ### The task sequencer -/

/-- The first bundle of a task issues in this cycle. -/
def State.beginTask (s : State) (entry : Nat) : State :=
  (s.onPlace fun p => { p with status := .issuing }).onCtl fun c =>
    { c with pc := entry, source := entry, levels := [], transfer := none, skip := none, nextIssue := s.cycle, waits := [] }

/-- Whether every condition of a task holds at a tile. -/
def State.taskReady (s : State) (k : Task) (t : Nat) : Bool :=
  let s := s.focus t
  k.conds.all fun c => s.condHolds c

/-- The task that the tile in focus starts next. -/
def State.nextTask (s : State) : Option Task :=
  (s.tile.place.group.bind (find s.groups)).bind fun g => g.kernel.tasks[s.tile.place.task]?

/-- TASK_START (R313, R314): the tile in focus starts its task in the first cycle that its bounds and conditions allow; in lockstep
mode it starts at its fixed cycle and traps when that has passed or a condition does not hold. The arguments `parts` name, in elastic
mode, the other tiles of its gang at which a condition does not hold in their own cycle (R311). -/
def execTaskStart (s : State) : Out :=
  let p := s.tile.place
  .next (
    match p.group.bind (find s.groups) with
    | none => s
    | some g =>
      match g.kernel.tasks[p.task]?, decide (p.status = .starting) with
      | some k, true =>
        let bound := match k.notBefore with
          | some n => p.s0 + n
          | none => 0
        if s.cycle < max bound p.taskFrom then s
        else
          let ready := s.taskReady k s.cur
          if g.lockstep then
            if k.notBefore.isSome && decide (bound < p.taskFrom) then (s.beginTask k.entry).noteLanding causeLockstepSlip 0
            else if ready then s.beginTask k.entry
            else (s.beginTask k.entry).noteLanding causeTaskLate 0
          else if ready && s.args.parts.isEmpty then s.beginTask k.entry
          else s
      | _, _ => s)

/-! ### Pre-emption -/

/-- PREEMPT_REQUEST (R136, R316): the request reaches every tile of group `a` in this cycle; in a gang, the lead alone. -/
def execPreemptRequest (s : State) : Out :=
  .next (
    match find s.groups s.args.a with
    | none => s
    | some g =>
      s.forTiles g.tiles fun t =>
        if t.tile.place.lead = t.cur then t.onCtl fun c => Control.applyRequest { c with preempt := some s.cycle } else t)

end Sys2Proof.Machine
end

