-- ==== Sys2Proof/Machine/Device.lean ====
section
/-! DEFINITION. Device physical addresses and the memory they name (spec/01_stoub_module.md R18-R21; spec/17_faults_determinism_power.md
R377, R378). -/

namespace Sys2Proof.Machine

/-! ### Device memory (R377, R378) -/

/-- A byte in device memory: own, host or peer. -/
def State.dpaByte (s : State) (a : Nat) : Byte :=
  match s.dpa a with
  | .hbm _ x => BitVec.ofNat 8 (s.devNat x 1)
  | .lpddr _ x => BitVec.ofNat 8 (s.devNat x 1)
  | .host o => s.host.read (s.globals.hwBase + o)
  | .peer _ x => s.dev.read x
  | .bad => 0
def State.dpaBytes (s : State) (a : Nat) : Nat → List Byte
  | 0 => []
  | n + 1 => s.dpaByte a :: s.dpaBytes (a + 1) n
def State.dpaNat (s : State) (a n : Nat) : Nat := leNat (s.dpaBytes a n)

/-- The errors of device memory after `n` bytes at `x` have been written: a granule written whole has none; a narrower write is merged into
its granule, whose error stays until a read meets it (R377, log 16). -/
def State.eccAfter (s : State) (x n : Nat) : List (Nat × Bool) :=
  if s.devEcc.isEmpty then []
  else
    s.devEcc.filter fun e =>
      let g := 64 * e.1
      !(decide (x ≤ g) && decide (g + 64 ≤ x + n))

/-- Bytes written at a device physical address. -/
def State.dpaWrite (s : State) (a : Nat) (bs : List Byte) : State :=
  match s.dpa a with
  | .host o => { s with host := s.host.writeCells (cellsAt (s.globals.hwBase + o) bs) }
  | .bad => s
  | .hbm _ x => { s with dev := s.dev.writeCells (cellsAt x bs), devEcc := s.eccAfter x bs.length }
  | .lpddr _ x => { s with dev := s.dev.writeCells (cellsAt x bs), devEcc := s.eccAfter x bs.length }
  | .peer _ x => { s with dev := s.dev.writeCells (cellsAt x bs) }

/-- Bytes that an engine of another module writes in this module's map (R19, R21). -/
def State.engineWrite (s : State) (a : Nat) (bs : List Byte) : State :=
  match s.dpa a with
  | .host _ => s
  | _ => s.dpaWrite a bs

end Sys2Proof.Machine
end

