-- ==== Sys2Proof/Machine/Network.lean ====
section
/-! DEFINITION. The write queue, the routes of remote operations, their arrival, and barriers (spec/06_memory_sync_ops.md R168-R177;
spec/09_memory_model.md R245, R246; spec/14_barrier.md R324-R327; spec/16_link.md R361-R368). -/

namespace Sys2Proof.Machine

/-! ### Completion of a tile's operations (R174, R175) -/

/-- A copy is complete when DONE has passed its index; a queue that is gone holds no packet. -/
def State.copyComplete (s : State) (e : Nat × Nat × Option Nat) : Bool :=
  match find s.queues e.2.1, e.2.2 with
  | some q, some i => decide (i < q.doneReg)
  | some _, none => false
  | none, _ => true

/-- Entries of the two queues that are numbered below `id`. -/
def Ports.writesBelow (p : Ports) (id : Nat) : Bool :=
  p.writes.any fun e => match e.kind with
    | .remote o => decide (o.id < id)
    | .arrive n _ _ _ => decide (n < id)
    | _ => false
def Ports.requestsBelow (p : Ports) (post : Bool) (id : Nat) : Bool :=
  p.requests.any fun e => match e.kind with
    | .push n _ _ _ => !post && decide (n < id)
    | .post n _ _ => post && decide (n < id)
    | .posting n _ => post && decide (n < id)
    | _ => false

/-- A local write of the tile issued before a cycle, or an atomic numbered below `id`, is still to come (R173, R174, R179). -/
def Tile.localBelow (t : Tile) (issued id : Nat) : Bool :=
  (t.io.stores.any fun x => x.kind != .feed && decide (x.issued < issued)) || t.io.amos.any fun a => decide (a.flight < id)
/-- A matrix write issued before a cycle, or a drain numbered below `id`, is still to come (R174, R228). -/
def Tile.matrixBelow (t : Tile) (issued id : Nat) : Bool :=
  (t.io.stores.any fun x => x.kind == .feed && decide (x.issued < issued)) || t.drainsBefore id

/-- Every prior operation of a fence is complete at its scope (0 is TILE). -/
def State.fencePasses (s : State) (t : Tile) (f : FenceRec) : Bool :=
  let p := t.io
  let tile := decide (f.scope = 0)
  !(f.paths.getLsbD 0 && t.localBelow f.issued f.id) && !(f.paths.getLsbD 3 && t.matrixBelow f.issued f.id) &&
    (!f.paths.getLsbD 1 || (if tile then !p.writesBelow f.id else p.remotes.all (fun n => decide (f.id ≤ n)))) &&
    (!f.paths.getLsbD 2 ||
      (if tile then !p.requestsBelow false f.id else p.copies.all (fun e => decide (f.id ≤ e.1) || s.copyComplete e))) &&
    (!f.paths.getLsbD 4 || (if tile then !p.requestsBelow true f.id else p.posts.all (fun n => decide (f.id ≤ n))))

/-- Whether a marker of a fence with number `id` stands in either queue. -/
def Ports.hasFence (p : Ports) (id : Nat) : Bool :=
  p.writes.any (fun e => e.kind == .fence id) || p.requests.any (fun e => e.kind == .fence id)

/-- The record of a fence is dropped with its last marker. -/
def Ports.dropFence (p : Ports) (id : Nat) : Ports :=
  if p.hasFence id then p else { p with fences := p.fences.filter (fun f => f.id != id) }

/-- The head of the write queue is gone. -/
def Tile.popWrite (t : Tile) : Tile := t.onIo fun p => { p with writes := p.writes.drop 1 }
def Tile.popRequest (t : Tile) : Tile := t.onIo fun p => { p with requests := p.requests.drop 1 }

/-! ### Routes (R11, R361, R368) -/

/-- The site of a massif: column, row (R11). -/
def siteOf (m : Nat) : Nat × Nat := (2 * (m % 8) + (m / 8) % 2, m / 8)

/-- The on-die ports by physical tile position. -/
def portOf : Side → Nat × Nat
  | .east => (47, 27)
  | .west => (0, 27)
  | .north => (23, 55)
  | .south => (23, 0)

def Side.opp : Side → Side
  | .east => .west
  | .west => .east
  | .north => .south
  | .south => .north

/-- The site of the boundary col that carries port `p` of a side (R18, R24). -/
def portCol : Side → Nat → Nat × Nat
  | .north, p => (p - p % 2, 11)
  | .south, p => (p - p % 2 + 1, 0)
  | .west, p => if p = 15 then (0, 11) else (0, 2 * (p / 3) + 1)
  | .east, p => if p = 0 then (15, 0) else (15, 2 * ((p + 2) / 3))

/-- The side of a number of the link index (R361). -/
def Side.ofNumber (n : Nat) : Side :=
  match n with
  | 0 => .north
  | 1 => .east
  | 2 => .south
  | _ => .west

/-- The side and the port of a ridge link (R361). -/
def ridgeSide (l : Nat) : Side := Side.ofNumber ((l - 356) / 16)
def ridgePort (l : Nat) : Nat := (l - 356) % 16
def isRidge (l : Nat) : Bool := decide (356 ≤ l) && decide (l < 420)

/-- Manhattan distance. -/
def dist (a b : Nat × Nat) : Nat := (a.1 - b.1) + (b.1 - a.1) + (a.2 - b.2) + (b.2 - a.2)

/-- The link that leaves site (c, y) on a side. -/
def edgeLink (c y : Nat) : Side → Nat
  | .east => y * 15 + c
  | .west => y * 15 + c - 1
  | .north => 180 + y * 16 + c
  | .south => 180 + (y - 1) * 16 + c

def moveSite (c y : Nat) : Side → Nat × Nat
  | .east => (c + 1, y)
  | .west => (c - 1, y)
  | .north => (c, y + 1)
  | .south => (c, y - 1)

/-- The crossings from a site along a list of sides; `pos` is the destination's physical position in its massif. -/
def hopsFrom (pos : Nat × Nat) : Nat → Nat → List Side → List Hop
  | _, _, [] => []
  | c, y, d :: rest =>
    let massif := decide ((c + y) % 2 = 0)
    let n := moveSite c y d
    let next := match rest with
      | [] => pos
      | e :: _ => portOf e
    { link := edgeLink c y d, dir := if massif then 0 else 1, after := if massif then 16 else 12 + dist (portOf d.opp) next } ::
      hopsFrom pos n.1 n.2 rest

/-- A tile's physical position in its massif. -/
def State.physPos (s : State) (t : Nat) : Nat × Nat := (txOf t, s.physRow t)

/-- The sides of the one fixed route between two sites: east or west first. -/
def sidesOf (a b : Nat × Nat) : List Side :=
  List.replicate (b.1 - a.1) .east ++ List.replicate (a.1 - b.1) .west ++ List.replicate (b.2 - a.2) .north ++
    List.replicate (a.2 - b.2) .south

/-- The way of an operation from a site of this module: the sides it takes, and its crossings; to another module the last one is
that of a ridge port. -/
def State.legs (s : State) (a : Nat × Nat) (o : RemoteOp) : List Side × List Hop :=
  if o.destModule = s.globals.modIdx then
    let l := sidesOf a (siteOf (massifOf o.dest))
    (l, hopsFrom (s.physPos o.dest) a.1 a.2 l)
  else
    let r := s.ridgeTo (massifOf (o.src % 2 ^ 18)) o.destModule
    let l := sidesOf a (portCol (ridgeSide r) (ridgePort r))
    (l, hopsFrom (0, 0) a.1 a.2 l ++ [{ link := r, dir := 0, after := 96 }])

/-- The route of an operation of a tile: the cycles to its first port, or to its destination in the same massif, and its crossings. -/
def State.route (s : State) (src : Nat) (o : RemoteOp) : Nat × List Hop :=
  match s.legs (siteOf (massifOf src)) o with
  | ([], h) => (dist (s.physPos src) (s.physPos o.dest), h)
  | (d :: _, h) => (dist (s.physPos src) (portOf d), h)

/-- The module position that breaks ties: physical row, then column. -/
def State.physKey (s : State) (t : Nat) : Nat := ((massifOf t / 8) * 56 + s.physRow t) * 384 + t % 384

/-! ### Links in use -/

/-- The owner of a slot; none is unreserved. -/
def Link.owner (l : Link) (dir slot : Nat) : Option Nat := find (if dir = 0 then l.slots0 else l.slots1) slot
def Link.owns (l : Link) (dir part : Nat) : Bool := (if dir = 0 then l.slots0 else l.slots1).any (fun e => e.2 == part)
/-- Slots of a direction that no partition owns. -/
def Link.unreserved (l : Link) (dir : Nat) : Bool := decide ((if dir = 0 then l.slots0 else l.slots1).length < 64)

/-- The edges of a massif (R11, R361). -/
def massifEdges (m : Nat) : List Nat :=
  let (c, y) := siteOf m
  (if c < 15 then [edgeLink c y .east] else []) ++ (if 0 < c then [edgeLink c y .west] else []) ++
    (if y < 11 then [edgeLink c y .north] else []) ++ (if 0 < y then [edgeLink c y .south] else [])

/-- No edge of a massif carries traffic of a partition (none: best effort alone) out (dir = 0) or in (1): all slots of every edge belong to
others (R367). -/
def State.shutIn (s : State) (m dir : Nat) (part : Option Nat) : Bool :=
  (massifEdges m).all fun l => !(s.link_ l).unreserved dir && !part.any ((s.link_ l).owns dir)
/-- Best-effort traffic of massif `a` cannot reach massif `b`. -/
def State.shutBetween (s : State) (a b : Nat) : Bool := a != b && (s.shutIn a 0 none || s.shutIn b 1 none)

/-- Slot length of a link and its flits per slot at its width (R366). -/
def slotLength (link : Nat) : Nat := if link < 356 then 4 else 16
def Link.capacity (l : Link) (link : Nat) : Nat := (if link < 356 then 1875 else 275) * l.width / 16
/-- The flits that slot `n` of a direction can still take, and the link after it has taken some. -/
def Link.room (l : Link) (link dir n : Nat) : Nat :=
  let u := if dir = 0 then l.used0 else l.used1
  l.capacity link - if u.1 = n then u.2 else 0
def Link.charge (l : Link) (dir n k : Nat) : Link :=
  let more := fun (u : Nat × Nat) => (n, (if u.1 = n then u.2 else 0) + k)
  if dir = 0 then { l with used0 := more l.used0 } else { l with used1 := more l.used1 }
/-- The first cycle in which flits may enter a direction after a replay (R364). -/
def Link.busy (l : Link) (dir : Nat) : Nat := if dir = 0 then l.busy0 else l.busy1
/-- Best-effort traffic outbound on a port waits: it trains or retrains (R364), or every slot is reserved (R367). -/
def Link.waits (l : Link) : Bool := l.state == .training || l.state == .retraining || !l.unreserved 0

/-- The flits of an operation (R368). -/
def RemoteOp.flits (o : RemoteOp) : Nat :=
  match o.kind with
  | .put bs => if bs.length = 256 then 9 else 1
  | .atomic _ => 1

/-- The banks that an operation enters (R45, R167). -/
def RemoteOp.banks (o : RemoteOp) : List Nat :=
  match o.kind with
  | .put bs => spanBanks o.offset bs.length
  | .atomic k => spanBanks o.offset (k.bits / 8)

/-- One channel: source, destination and alias class (R246). -/
def RemoteOp.sameChannel (x y : RemoteOp) : Bool := x.src == y.src && x.destModule == y.destModule && x.dest == y.dest && x.cls == y.cls

/-- A tile number of this module, of one of its saved tiles (log 73), or of another module. -/
def isLocal (src : Nat) : Bool := decide (src < 384 * 660)
def savedBase : Nat := 2 ^ 40
def isSaved (src : Nat) : Bool := decide (savedBase ≤ src)

/-- The record of one piece in transit changed; every piece of an operation dropped. -/
def State.putTransit (s : State) (y : Transit) : State := { s with transit := s.transit.map fun z => if z.piece = y.piece then y else z }
def State.dropTransit (s : State) (n : Nat) : State := { s with transit := s.transit.filter fun z => z.seq != n }

/-- The flits of a piece enter a link; after its last crossing it is due at its destination, or at the next module. -/
def State.cross (s : State) (x : Transit) (h : Hop) (rest : List Hop) : State :=
  let y := { x with hops := rest, ready := s.cycle + h.after, last := some (h, s.cycle), late := 0 }
  let s := s.putTransit y
  if rest.isEmpty then s.at_ y.ready .remoteApply { Args.none with a := y.piece } else s

/-- A piece takes the room that the slot of this cycle has at its next link (R366); the flits that find none wait as a later piece. -/
def State.takeRoom (s : State) (x : Transit) (h : Hop) (rest : List Hop) : State :=
  let l := s.link_ h.link
  let n := s.cycle / slotLength h.link
  let take := min x.flits (l.room h.link h.dir n)
  if take = 0 then s
  else
    let s := { s with links := put s.links h.link (l.charge h.dir n take) }
    let s := if take = x.flits then s else
      { s with transit := s.transit ++ [{ x with piece := s.nextNum, flits := x.flits - take }], nextNum := s.nextNum + 1 }
    s.cross { x with flits := take } h rest

/-- The context of the tile, or of the saved tile, that issued an operation; none for another module's. -/
def State.sourceCtx (s : State) (src : Nat) : Option Nat :=
  if isLocal src then (s.getTile src).place.group.map fun _ => (s.getTile src).place.ctx
  else if isSaved src then (find s.groups ((src - savedBase) / 2 ^ 18)).map (·.ctx)
  else none

/-- The record of an operation that an unreachable port or massif discards (R365, R379), at its source's context; another module's source
is told. -/
def State.postLost (s : State) (src port : Nat) : State :=
  match s.sourceCtx src with
  | some c => s.post (.plain 0x0A c port)
  | none =>
    if isLocal src || isSaved src then s else { s with sent := s.sent ++ [.toModule (src / 2 ^ 18 - 1) "linkDown" (src % 2 ^ 18) port] }

/-- An operation is no longer outstanding at its tile. -/
def Tile.opDone (t : Tile) (id : Nat) : Tile := t.onIo fun p => { p with remotes := p.remotes.filter (· != id) }

/-- An operation of a tile is applied, or will never be: a later arrival of the tile counts from the next cycle on (R325). A saved tile's
is taken off its image, another module's source is told. -/
def State.remoteDone (s : State) (src id : Nat) : State :=
  if isLocal src then
    let t := s.getTile src
    let s := s.setTile src (t.opDone id)
    match t.place.group with
    | none => s
    | some g =>
      match find s.groups g with
      | none => s
      | some x =>
        let later := fun (e : Arrival) => if e.tile = src ∧ id < e.id then { e with ready := max e.ready (s.cycle + 1) } else e
        { s with groups := put s.groups g { x with arrivals := x.arrivals.map later } }
  else if isSaved src then
    let g := (src - savedBase) / 2 ^ 18
    match find s.groups g with
    | none => s
    | some x =>
      let saved := x.saved.zipIdx.map fun e => if e.2 = src % 2 ^ 18 then e.1.opDone id else e.1
      { s with groups := put s.groups g { x with saved := saved } }
  else { s with sent := s.sent ++ [.toModule (src / 2 ^ 18 - 1) "applied" (src % 2 ^ 18) id] }

/-- An operation that needs a ridge port which carries nothing is discarded, with the record of R365 at its source's context. -/
def State.discardAt (s : State) (x : Transit) (link : Nat) : State :=
  let s := s.dropTransit x.seq
  let s :=
    if isLocal x.op.src || isSaved x.op.src then s.post (.plain 0x0A x.ctx link) else s.postLost x.op.src link
  s.remoteDone x.op.src x.op.id

/-- One operation that waits at its next link takes the room that its partition's slot of this cycle has left; without a slot on the
link its traffic is best effort, whose crossings REMOTE_APPLY gives (R365, R367, R368). -/
def State.advanceOne (s : State) (x : Transit) : State :=
  match x.hops with
  | [] => s
  | h :: rest =>
    let l := s.link_ h.link
    let n := s.cycle / slotLength h.link
    if s.cycle < x.ready ∨ x.stalled = true then s
    else if !s.transit.any (fun z => z.piece == x.piece) then s
    else if isRidge h.link && l.shut then s.discardAt x h.link
    else if !l.up || decide (s.cycle < l.busy h.dir) || l.owner h.dir (n % 64) != some x.part then s
    else s.takeRoom x h rest

/-- Every waiting operation in the order of readiness, ties to the lower physical position of its source. -/
def State.advanceTransit (s : State) : State :=
  (sortBy (fun x => x.ready * 2 ^ 24 + x.key) s.transit).foldl State.advanceOne s

/-- Whether a waiting operation may cross its next link now as best-effort traffic: its partition owns no slot there, nobody owns the
slot of this cycle, which has room, and nothing earlier of its channel is still before the link (R246, R366, R367). -/
def State.mayCross (s : State) (x : Transit) : Bool :=
  match x.hops with
  | [] => false
  | h :: _ =>
    let l := s.link_ h.link
    decide (max x.ready (l.busy h.dir) ≤ s.cycle) && !x.stalled && l.up && !l.owns h.dir x.part &&
      l.owner h.dir (s.cycle / slotLength h.link % 64) == none &&
      !s.transit.any fun y => (decide (y.seq < x.seq) || (y.seq == x.seq && decide (y.piece < x.piece))) && y.op.sameChannel x.op &&
        decide (x.hops.length ≤ y.hops.length)

/-- An operation of a tile stands as best-effort traffic before a link without unreserved slots: those behind it stay in the tile's
queue, which may fill (R367). -/
def State.stuck (s : State) (tile : Nat) : Bool :=
  s.transit.any fun x => x.op.src == tile && match x.hops with
    | [] => false
    | h :: _ =>
      let l := s.link_ h.link
      decide (x.ready ≤ s.cycle) && !l.owns h.dir x.part && !l.unreserved h.dir

/-! ### Leaving the write queue (R245) -/

/-- An operation starts on its way: the cycles to its first link or to its destination, and its crossings. -/
def State.enterNetwork (s : State) (o : RemoteOp) (part ctx first : Nat) (hops : List Hop) : State :=
  let x : Transit :=
    { op := o, seq := s.nextNum, piece := s.nextNum, key := s.physKey (o.src % 2 ^ 18), part := part, ctx := ctx, ready := s.cycle + first,
      hops := hops, last := none, flits := o.flits }
  let s := { s with transit := s.transit ++ [x], nextNum := s.nextNum + 1 }
  if hops.isEmpty then s.at_ x.ready .remoteApply { Args.none with a := x.piece } else s

/-- An operation leaves the write queue. -/
def State.sendRemote (s : State) (tile : Nat) (o : RemoteOp) : State :=
  let p := (s.getTile tile).place
  let r := s.route tile o
  s.enterNetwork o p.partition p.ctx r.1 r.2

/-- WRITE_QUEUE_DEPART (R169, R174, R177, R245): the head of tile `a`'s write queue leaves when it may; one entry in a cycle. -/
def execWriteQueueDepart (s : State) : Out :=
  let n := s.args.a
  let t := s.getTile n
  s.needTile n (
    match t.io.writes with
    | [] => s
    | e :: _ =>
      if s.cycle < e.ready then s
      else
        match e.kind with
        | .remote o => if s.stuck n then s else (s.setTile n t.popWrite).sendRemote n o
        | .arrive id bar issued mx =>
          let s := s.setTile n t.popWrite
          match t.place.group with
          | some g => s.onGroup g fun x => { x with arrivals := x.arrivals ++ [{ tile := n, bar := bar, id := id, issued := issued, ready := s.cycle + 1, mx := mx }] }
          | none => s
        | .fence id =>
          match t.io.fences.find? (fun f => f.id == id) with
          | none => s.setTile n t.popWrite
          | some f => if s.fencePasses t f then s.setTile n (t.popWrite.onIo (·.dropFence id)) else s
        | .mark id =>
          match t.io.requests with
          | r :: _ => if r.kind = .mark id ∧ r.ready ≤ s.cycle then s.setTile n t.popWrite.popRequest else s
          | [] => s)

/-! ### Arrival (R168-R170, R379) -/

/-- A semaphore is incremented; a lost increment is counted (R168). -/
def State.increment (s : State) (tile n : Nat) : State :=
  let t := s.getTile tile
  let x := rd t.sems n
  if x.count.toNat = 0xFFFFFFFF then s.onMerr (massifOf tile) fun m => { m with semLost := satInc m.semLost 1 }
  else s.setTile tile { t with sems := wr t.sems n { x with count := x.count + 1 } }

/-- Whether the tile still serves its network port in this cycle. -/
def State.servesLater (s : State) (tile : Nat) : Bool := s.todo.contains (tile, .post)

/-- The data of an operation at its destination in this cycle, in the order of arrival, in which released timed operations come first
(R170), all after the tile's own ports (R46). -/
def State.applyAt (s : State) (o : RemoteOp) : State :=
  let s := s.setTile o.dest ((s.getTile o.dest).takePort s.cycle o.banks)
  let s :=
    if s.servesLater o.dest then
      s.setTile o.dest ((s.getTile o.dest).onIo fun p => { p with inbound := p.inbound ++ [o] })
    else s.atTile o.dest fun s => s.applyData o
  let s := match o.sem with
    | some n => s.increment o.dest n
    | none => s
  s.remoteDone o.src o.id

/-- Power state of a massif, and whether it changes. -/
def State.powerOf (s : State) (m : Nat) : Power := (find s.power m).getD { state := .full, pending := none, lastErr := 0 }
/-- A massif whose tiles cannot be reached now: in retention, or on its way in or out. -/
def Power.holds (p : Power) : Bool :=
  p.state == .retention || match p.pending with
    | some (.retention, _) => true
    | _ => false

/-- A timed operation that waits for its cycle, or that its cycle brings, whatever else the port serves (R170). -/
def RemoteOp.punctual (o : RemoteOp) (now : Nat) : Bool := o.deliver.any fun d => decide (now ≤ d)

/-- An operation reaches its destination's network port. A port that is busy holds it back, at the end of its way (R45). -/
def State.arriveOp (s : State) (o : RemoteOp) : State :=
  let m := massifOf o.dest
  let p := s.powerOf m
  if p.state = .off then (s.postLost o.src (m + 0x1000)).remoteDone o.src o.id
  else if p.holds then { s with parkedAtEdge := s.parkedAtEdge ++ [(m, .remote o)] }
  else
    let t := s.getTile o.dest
    let arrive := fun (s : State) =>
      if o.punctual s.cycle || t.portFree s.cycle o.banks then s.applyAt o
      else
        let x : Transit :=
          { op := o, seq := s.nextNum, piece := s.nextNum, key := 0, part := 0, ctx := 0, ready := s.cycle, hops := [], last := none, flits := 0 }
        { s with transit := s.transit ++ [x], nextNum := s.nextNum + 1 }.at_ (s.cycle + 1) .remoteApply { Args.none with a := x.piece }
    match o.deliver with
    | none => arrive s
    | some d =>
      if s.cycle < d ∧ t.io.timed.length < 64 then
        let h : Held := { deliver := d, seq := s.nextNum, op := o }
        ({ s.setTile o.dest (t.onIo fun p => { p with timed := p.timed ++ [h] }) with nextNum := s.nextNum + 1 }).at_ d .timedRelease
          { Args.none with a := o.dest, b := h.seq }
      else arrive s

/-- An operation of the same channel that left before (R246). -/
def State.channelBlocked (s : State) (x : Transit) : Bool := s.transit.any fun y => decide (y.seq < x.seq) && y.op.sameChannel x.op

/-- An operation stands at its destination's port: its last piece has come, and no earlier one of its channel is on its way. -/
def State.standsAt (s : State) (x : Transit) : Bool :=
  x.hops.isEmpty && !x.stalled && decide (x.ready ≤ s.cycle) && x.op.destModule == s.globals.modIdx &&
    !s.transit.any (fun z => z.seq == x.seq && z.piece != x.piece) && !s.channelBlocked x

/-- The port of a bank that an operation enters serves another one in this cycle, or one that came before (R45). -/
def State.portHolds (s : State) (x : Transit) : Bool :=
  x.op.destModule == s.globals.modIdx && !x.op.punctual s.cycle &&
    (!(s.getTile x.op.dest).portFree s.cycle x.op.banks ||
      s.transit.any fun z => z.op.dest == x.op.dest && (decide (z.ready < x.ready) || (z.ready == x.ready && decide (z.seq < x.seq))) &&
        s.standsAt z && !z.op.punctual s.cycle && z.op.banks.any x.op.banks.contains)

/-- The address under which the memory of a tile of another module is kept, as this module's operations leave it (log 37). -/
def peerTileAddr (p : PlaceAt) (imem : Bool) (off : Nat) : Nat :=
  2 ^ 56 + ((p.module * 2 ^ 18 + p.tile) * 2 + (if imem then 1 else 0)) * 2 ^ 19 + off

/-- An operation is applied at a tile of another module. -/
def State.applyAway (s : State) (o : RemoteOp) : State :=
  let a := peerTileAddr ⟨o.destModule, o.dest⟩ false o.offset
  let bs := match o.kind with
    | .put bs => bs
    | .atomic k => natBytes (aluResult k (s.dev.nat a (k.bits / 8))) (k.bits / 8)
  { s with dev := s.dev.writeCells (cellsAt a bs) }

/-- An operation leaves the module at its ridge port's far end: those of this module's tiles are followed until they are applied. -/
def State.leaveModule (s : State) (o : RemoteOp) : State :=
  if isLocal o.src || isSaved o.src then
    { s with
      sent := s.sent ++ [.remote { o with src := (s.globals.modIdx + 1) * 2 ^ 18 + o.src % 2 ^ 18 }]
      away := s.away ++ [{ seq := s.nextNum, op := o, held := false }]
      nextNum := s.nextNum + 1 }
  else { s with sent := s.sent ++ [.remote o] }

/-- An operation reaches this module at a ridge link that carries traffic; it goes on to its tile, or through the module (R365, R368). -/
def State.arriveRidge (s : State) (o : RemoteOp) (link part : Nat) : State :=
  if (s.link_ link).dead || (o.destModule = s.globals.modIdx && !s.tileExists o.dest) then s
  else s.enterNetwork o part 0 4 (s.legs (portCol (ridgeSide link) (ridgePort link)) o).2

/-- Piece `n` of those in transit crosses its next link as best-effort traffic, or is at the end of its way; an operation arrives with its
last piece. -/
def State.transitEvent (s : State) (n : Nat) : State :=
  match s.transit.find? (fun y => y.piece == n) with
  | none => s
  | some y =>
    match y.hops with
    | h :: rest => if s.mayCross y then s.takeRoom y h rest else s
    | [] =>
      if y.stalled then s
      else if s.cycle < y.ready then s.at_ y.ready .remoteApply { Args.none with a := n }
      else if s.transit.any fun z => z.seq == y.seq && z.piece != n then { s with transit := s.transit.filter fun z => z.piece != n }
      else if s.channelBlocked y || s.portHolds y then s.at_ (s.cycle + 1) .remoteApply { Args.none with a := n }
      else if y.op.destModule = s.globals.modIdx then (s.dropTransit y.seq).arriveOp y.op
      else (s.dropTransit y.seq).leaveModule y.op

/-- An earlier operation of the channel is in the other module and has not been applied or held there (R246). -/
def State.awayBlocked (s : State) (y : Away) : Bool :=
  !y.held && s.away.any fun z => decide (z.seq < y.seq) && !z.held && z.op.sameChannel y.op

/-- What becomes of operation `n` of those in other modules: it is applied there (how = 0), held there for its cycle (1), discarded at
a port or a massif that is `port` in its record (2), or applied there ahead of its cycle because the hold store is full (3). Those of one
channel come to this in order, and a timed one is applied no earlier than its cycle otherwise (R170, R246). -/
def State.awayEvent (s : State) (n how port : Nat) : State :=
  match s.away.find? (fun y => y.seq == n) with
  | none => s
  | some y =>
    let early := match y.op.deliver with
      | some d => decide (s.cycle < d)
      | none => false
    if s.awayBlocked y || (how == 0 && early) || (how == 1 && !early) || (how == 3 && y.held) then s
    else if how = 1 then { s with away := s.away.map fun z => if z.seq = n then { z with held := true } else z }
    else
      let s := { s with away := s.away.filter fun z => z.seq != n }
      (if how = 2 then s.postLost y.op.src port else s.applyAway y.op).remoteDone y.op.src y.op.id

/-- Bytes that an engine of module `m` writes in the memory of a tile, instruction memory in whole bundles (R19, R234, R235, R379). A port
that is busy holds them back (R45). -/
def State.placeWrite (s : State) (m t : Nat) (imem : Bool) (off : Nat) (bs : List Byte) : State :=
  let massif := massifOf t
  let fits := decide (off + bs.length ≤ if imem then 0x10000 else 0x60000) && (!imem || decide (off % 32 = 0 ∧ bs.length % 32 = 0))
  if !s.tileExists t || !fits then s
  else if (s.powerOf massif).state = .off then { s with sent := s.sent ++ [.toModule m "linkDown" t (massif + 0x1000)] }
  else if (s.powerOf massif).holds then { s with parkedAtEdge := s.parkedAtEdge ++ [(massif, .write t imem off bs)] }
  else
    let x := s.getTile t
    if imem then s.setTile t (x.writeImem s.cycle (cellsAt off bs))
    else if x.portFree s.cycle (spanBanks off bs.length) then
      s.setTile t ((x.writeSpad (cellsAt off bs)).takePort s.cycle (spanBanks off bs.length))
    else s.at_ (s.cycle + 1) .remoteApply s.args

/-- REMOTE_APPLY (R168-R170, R246, R368, R379): piece `a` of those in transit reaches its destination when it is due, or, as
best-effort traffic, crosses its next link. With `op` an operation of another module comes in at ridge link `b` from partition `d`, or,
with the flag, is applied in another module. With the flag alone operation `a` of those away is applied there, held (d = 1), or
discarded at port `b` (d = 2). With `bytes` an engine of another module `b` writes them at device physical address `d`, or at offset `d` of
the scratchpad (c = 1) or the instruction memory (c = 2) of tile `a`. -/
def execRemoteApply (s : State) : Out :=
  let x := s.args
  .next (
    match x.op, x.flag with
    | some o, false => if isRidge x.b then s.arriveRidge o x.b x.d else s
    | some o, true => s.applyAway o
    | none, true => s.awayEvent x.a x.d x.b
    | none, false =>
      if x.bytes.isEmpty then s.transitEvent x.a
      else if x.c = 0 then s.engineWrite x.d x.bytes
      else s.placeWrite x.b x.a (x.c == 2) x.d x.bytes)

/-- TIMED_RELEASE (R170, R379): the held operation `b` of tile `a` is applied in its cycle, or meets the massif's power state. -/
def execTimedRelease (s : State) : Out :=
  let t := s.getTile s.args.a
  s.needTile s.args.a (
    match t.io.timed.find? (fun h => h.seq == s.args.b) with
    | none => s
    | some h =>
      if s.cycle < h.deliver then s
      else (s.setTile s.args.a (t.onIo fun p => { p with timed := p.timed.filter (fun x => x.seq != h.seq) })).arriveOp h.op)

/-! ### Barriers (R324-R327) -/

/-- The cycle at which a release of cycle `c` reaches a tile (R326). -/
def releaseCycle (c win tile : Nat) : Nat := c + 96 + (massifOf tile % 16) * min win 4096 / 16

/-- Whether an arrival must still wait in this cycle (R173, R228, R325, R367). -/
def State.arrivalWaits (s : State) (e : Arrival) : Bool :=
  let t := s.getTile e.tile
  decide (s.cycle < e.ready) || t.io.remotes.any (fun n => decide (n < e.id)) || t.localBelow e.issued e.id ||
    (e.mx && t.matrixBelow e.issued e.id) || s.shutIn (massifOf e.tile) 0 (some t.place.partition)

/-- BARRIER_ARRIVAL (R173, R325): the arrival of tile `b` at barrier `c` of group `a` is counted once its conditions hold; the last
one closes the phase and releases every tile. -/
def execBarrierArrival (s : State) : Out :=
  let x := s.args
  .next (
    match find s.groups x.a with
    | none => s
    | some g =>
      match g.arrivals.find? (fun e => e.tile == x.b && e.bar == x.c) with
      | none => s
      | some e =>
        if s.arrivalWaits e then s
        else
          let s := s.setTile e.tile ((s.getTile e.tile).opDone e.id)
          let b := rd g.barriers e.bar
          let g := { g with arrivals := g.arrivals.filter (fun k => !(k.tile == e.tile && k.bar == e.bar)) }
          if b.count + 1 < b.target then
            { s with groups := put s.groups x.a { g with barriers := wr g.barriers e.bar { b with count := b.count + 1 } } }
          else
            let g :=
              { g with
                barriers := wr g.barriers e.bar { b with count := 0, phase := b.phase + 1 }
                releases := g.releases ++ g.tiles.map (·, e.bar) }
            g.tiles.foldl
              (fun s t => s.at_ (releaseCycle s.cycle s.globals.win t) .barrierRelease
                { Args.none with a := x.a, b := t, c := e.bar, d := (b.phase + 1).toNat })
              { s with groups := put s.groups x.a g })

/-- BARRIER_RELEASE (R326): a release of group `a` reaches tile `b` at barrier `c`, with phase `d`; it waits at a massif none of whose edges
carries best-effort traffic (R367). -/
def execBarrierRelease (s : State) : Out :=
  let x := s.args
  .next (
    match find s.groups x.a with
    | none => s
    | some g =>
      if s.shutIn (massifOf x.b) 1 none then s.at_ (s.cycle + 1) .barrierRelease x
      else if g.releases.contains (x.b, x.c) && (s.getTile x.b).place.group == some x.a then
        let s := s.onGroup x.a fun g => { g with releases := g.releases.erase (x.b, x.c) }
        s.setTile x.b ((s.getTile x.b).onIo fun p => { p with lphase := wr p.lphase x.c (BitVec.ofNat 32 x.d) })
      else s)

end Sys2Proof.Machine
end

