-- ==== Sys2Proof/Machine/Translate.lean ====
section
/-! DEFINITION. The two-stage walk with its faults, dirty bits and pulls, access counters, and the accesses
of copy engines (spec/01_stoub_module.md R18-R21; spec/15_page.md R340-R360; spec/17_faults_determinism_power.md R374, R377). -/

namespace Sys2Proof.Machine

/-! ### Faults of an access (R345, R349) -/

/-- What a fault record of an access holds beside the packet's own fields. -/
structure TFault where
  reason : Nat
  stage2 : Bool
  parked : Bool
  level : Nat
  gva : Nat
  gpa : Nat
  detail : Nat
deriving DecidableEq, Repr

/-- A result of an access: it is made, it faults, or it is held by a pull or a power state. -/
inductive Acc (α : Type) where
  | ok (s : State) (v : α)
  | fault (s : State) (f : TFault)
  | hold (s : State)

def Acc.bind {α β : Type} (x : Acc α) (f : State → α → Acc β) : Acc β :=
  match x with
  | .ok s v => f s v
  | .fault s e => .fault s e
  | .hold s => .hold s

/-- A teardown of a context's fault domain follows in this cycle (R374). -/
def State.fatalDomain (s : State) (ctx : Nat) : State := s.at_ s.cycle .fatalTeardown { Args.none with a := ctx }

/-- A fault without a walk. -/
def TFault.plain (reason gva gpa detail : Nat) : TFault :=
  { reason := reason, stage2 := false, parked := false, level := 0, gva := gva, gpa := gpa, detail := detail }

/-! ### Device memory (R357, R377, R378) -/

/-- Whether massif `m` is a neighbour of col `k` (R11, R12). -/
def neighbours (m k : Nat) : Bool :=
  let a := siteOf m
  let b := (2 * (k % 8) + 1 - (k / 8) % 2, k / 8)
  decide (dist a b = 1)

/-- One access of a copy engine is counted at its col (R357), as local where `near` says so of the col: the newest entry is the first. -/
def State.countAt (s : State) (ctx a : Nat) (near : Nat → Bool) : State :=
  let place := match s.dpa a with
    | .hbm c x => some (c, x)
    | .lpddr c x => some (c, x)
    | .host _ => some (7, a)
    | _ => none
  match place, find s.contexts ctx with
  | some (col, x), some c =>
    let l := (find s.access col).getD []
    let region := x / 2 ^ 21
    let old := (l.find? fun e => e.ctx == ctx && e.region == region).getD { ctx := ctx, region := region, near := 0, far := 0 }
    let new :=
      if near col then { old with near := min (old.near + 1) 0xFFFF } else { old with far := min (old.far + 1) 0xFFFF }
    let rest := l.filter fun e => !(e.ctx == ctx && e.region == region)
    let hot := decide (c.xlat.thresh ≠ 0) && decide (c.xlat.thresh ≤ new.far)
    let kept := if hot then { new with near := 0, far := 0 } else new
    let s := { s with access := put s.access col ((kept :: rest).take 8192) }
    if hot then
      let r := natBytes 0x70 1 ++ natBytes 0 3 ++ natBytes ctx 2 ++ natBytes col 2 ++ natBytes (region * 2 ^ 21) 8 ++
        natBytes new.near 2 ++ natBytes new.far 2 ++ natBytes 0 28 ++ natBytes s.cycle 8 ++ natBytes 0 7
      s.ring c.xlat.mqBase c.xlat.mqLog r
    else s
  | _, _ => s

/-- An access of an engine of massif `m`. -/
def State.countAccess (s : State) (ctx m a : Nat) : State := s.countAt ctx a (neighbours m)
/-- An access of a col's own engine to its stack or its LPDDR-6 (R279). -/
def State.countCol (s : State) (ctx a : Nat) : State :=
  match (s.dpa a).col with
  | some _ => s.countAt ctx a fun _ => true
  | none => s
/-- Accesses of col engines to every granule of a range. -/
def State.countCols (s : State) (ctx a n : Nat) : State := (List.range ((n + 63) / 64)).foldl (fun s i => s.countCol ctx (a + 64 * i)) s

/-- The port that an address outside the module's own memory is reached through (R365, R371). -/
def State.portOfDpa (s : State) (a : Nat) : Option Nat :=
  match s.dpa a with
  | .host _ => some cxlPort
  | .peer m _ => some (s.ridgeTo 96 m)
  | _ => none

/-- An access through a port: an error where the port carries nothing (R365), a wait where it carries nothing yet (R364, R367). -/
def State.through (s : State) (gva : Nat) (port : Option Nat) : Acc Unit :=
  match port with
  | none => .ok s ()
  | some l => if (s.link_ l).shut then .fault s (.plain 0x0A gva 0 l) else if (s.link_ l).waits then .hold s else .ok s ()
def State.reach (s : State) (gva a : Nat) : Acc Unit := s.through gva (s.portOfDpa a)
/-- Every byte of a range names memory that can be reached now: the ends are looked at, as no range of a command spans a hole (R20, R21). -/
def State.reachAll (s : State) (gva a n : Nat) : Acc Unit :=
  match s.dpa a, s.dpa (a + (n - 1)) with
  | .bad, _ => .fault s (.plain 0x07 gva 0 a)
  | _, .bad => .fault s (.plain 0x07 gva 0 (a + (n - 1)))
  | _, _ => s.reach gva a
/-- The port that an address needs, when it carries nothing: its link index. -/
def State.portDown (s : State) (a : Nat) : Option Nat := (s.portOfDpa a).filter fun l => (s.link_ l).shut

/-- An engine of massif `m` reaches the module's cols: its traffic is best effort and waits where no slot is left to it (R367). -/
def State.leaves (s : State) (m : Nat) (back : Bool) : Acc Unit := if s.shutIn m 0 none || (back && s.shutIn m 1 none) then .hold s else .ok s ()

/-- A read of bytes in one granule for a packet of `ctx` that an engine of massif `m` executes, counted once for the granule. -/
def State.readDpa (s : State) (ctx m gva : Nat) (a n : Nat) (again : Bool := false) : Acc (List Byte) :=
  ((s.leaves m true).bind fun s _ => s.reach gva a).bind fun s _ =>
    let s := if again then s else s.countAccess ctx m a
    let (s, e) := s.devEccAt a
    if e = 2 then .fault (s.fatalDomain ctx) (.plain 0x0B 0 0 (a / 64 * 64)) else .ok s (s.dpaBytes a n)

/-- A write of bytes in one granule. -/
def State.writeDpa (s : State) (ctx m gva : Nat) (a : Nat) (bs : List Byte) (again : Bool := false) : Acc Unit :=
  ((s.leaves m false).bind fun s _ => s.reach gva a).bind fun s _ => .ok ((if again then s else s.countAccess ctx m a).dpaWrite a bs) ()

/-! ### Table entries (R343, R346) -/

/-- A RES0 bit of an entry is set. -/
def entryRes (stage level v : Nat) : Bool :=
  decide (bitsOf v 56 8 ≠ 0) || (decide (stage = 1) && decide (bitsOf v 48 8 ≠ 0)) ||
    (v.testBit 5 && !(decide (level = 0) && decide (v % 4 = 3))) || (v.testBit 4 && (decide (stage = 1) || decide (v % 4 = 1)))

/-- Whether an entry of a stage and a level is malformed; `v` is not invalid. -/
def entryMalformed (stage level v : Nat) : Bool :=
  let t := v % 4
  (decide (t = 1) && decide (level = 0)) || ((decide (t = 3) || decide (t = 2)) && decide (3 ≤ level)) ||
    (decide (t = 2) && decide (stage = 1)) ||
    (decide (t ≠ 1) && decide (level = 1) && decide (bitsOf v 12 9 ≠ 0)) || (decide (t ≠ 1) && decide (level = 2) && decide (bitsOf v 12 18 ≠ 0)) ||
    entryRes stage level v || (decide (t = 1) && decide (bitsOf v 2 2 ≠ 3))

def entryAddr (v : Nat) : Nat := bitsOf v 12 44 * 2 ^ 12
/-- Bytes of a page of a level. -/
def pageSize (level : Nat) : Nat := 2 ^ (12 + 9 * level)
/-- The offset of the entry for an input address in its table. -/
def entryOffset (level a : Nat) : Nat := 8 * bitsOf a (12 + 9 * level) 9

/-- The entry that a walk sees: the one in memory, or one that a translation unit still holds for the address (R346). Valid entries may
be held from then on; D is not part of what is held. -/
def State.walkRead (s : State) (ctx stage level input addr : Nat) : State × Nat :=
  let v := s.dpaNat addr 8
  let noD := fun (x : Nat) => if x.testBit 4 then x - 16 else x
  let base := input / pageSize level * pageSize level
  let same := fun (c : Cached) => c.ctx == ctx && c.stage == stage && c.level == level && c.input == base && c.addr == addr
  let held := (s.tlb.filter fun c => same c && c.value != noD v).map (·.value)
  let s :=
    if (v % 4 = 1 ∨ v % 4 = 3) ∧ !entryMalformed stage level v ∧ !(s.tlb.any fun c => same c && c.value == noD v) then
      { s with tlb := s.tlb ++ [{ ctx := ctx, stage := stage, level := level, input := base, addr := addr, value := noD v }] }
    else s
  if held.isEmpty then (s, v)
  else
    let i := Config.freeWord s.freeCtr % (held.length + 1)
    ({ s with freeCtr := s.freeCtr + 1 }, (v :: held).getD i v)

/-- The 16 entries of an aligned block. -/
def State.blockEntries (s : State) (addr : Nat) : List Nat := (List.range 16).map fun i => s.dpaNat (addr / 128 * 128 + 8 * i) 8

/-- The leaf that an access goes through (R343): where it stands, its value and its page's size. In a block of 16 entries that form a
64 KiB page and differ beyond their addresses in it, any one of them. -/
def State.leafOf (s : State) (level addr v : Nat) : State × Nat × Nat × Nat :=
  let es := s.blockEntries addr
  if level ≠ 0 ∨ !v.testBit 5 ∨ !es.all (fun x => x.testBit 5 && x % 4 == 3) then (s, addr, v, pageSize level)
  else
    let key := fun (x : Nat) => (bitsOf x 16 40, bitsOf x 2 2)
    if es.all fun x => key x == key v then (s, addr, v, 2 ^ 16)
    else
      let i := Config.freeWord s.freeCtr % 16
      ({ s with freeCtr := s.freeCtr + 1 }, addr / 128 * 128 + 8 * i, es.getD i v, 2 ^ 16)

/-- The output of a leaf. -/
def leafOut (v size a : Nat) : Nat := entryAddr v / size * size + a % size

/-- R, and W for a write (R345). -/
def mayAccess (r w write : Bool) : Bool := r && (!write || w)

/-- The first valid range entry that holds an address, with its index (R342). -/
def rangeHit (l : List (Nat × RangeEntry)) (a : Nat) : Option (Nat × RangeEntry) :=
  l.find? fun e => e.2.ctl.testBit 0 && decide (e.2.base ≤ a) && decide (a ≤ e.2.last)

/-! ### The walk (R345) -/

/-- A pull begins, or is under way (R360): the source is asked once, and the access is held. -/
def State.startPull (s : State) (c : Nat) (x : Context) (gpa level entry : Nat) : State :=
  let base := gpa / pageSize level * pageSize level
  if s.pulling.any fun p => p.ctx == c && p.entryAddr == entry then s
  else
    let p : Pulling := { ctx := c, gpa := base, level := level, entryAddr := entry, since := s.cycle }
    let m : Message := .pull x.xlat.pullSrc x.lineage base (pageSize level)
    { s with pulling := s.pulling ++ [p], sent := s.sent ++ [m] }.at_ (s.cycle + 8000000) .pullTimeout { Args.none with a := c, b := base }

/-- A table entry is reached: its address names memory, its port carries traffic, and the read meets no uncorrectable error (R345, R365). -/
def State.walkAt (s : State) (ctx gva gpa addr : Nat) : Acc Unit :=
  match s.dpa addr with
  | .bad => .fault s (.plain 0x07 gva gpa addr)
  | _ =>
    (s.reach gva addr).bind fun s _ =>
      let (s, e) := s.devEccAt addr
      if e = 2 then .fault (s.fatalDomain ctx) (.plain 0x09 0 0 (addr / 4096 * 4096)) else .ok s ()

/-- The other granule of a block of 16 entries, when the one at `addr` may be a leaf of it, is read too (R343, R345). -/
def State.blockAt (s : State) (ctx gva gpa level addr v : Nat) : Acc Unit :=
  if level = 0 ∧ v.testBit 5 = true then s.walkAt ctx gva gpa (addr / 128 * 128 + 64 * (1 - addr / 64 % 2)) else .ok s ()

/-- The stage-2 table walk from a level down. `gva` is what a record names. -/
def State.walk2 (s : State) (c : Nat) (x : Context) (gva gpa : Nat) (write : Bool) : Nat → Nat → Acc Nat
  | table, level =>
    let addr := table + entryOffset level gpa
    (s.walkAt c gva gpa addr).bind fun s _ =>
      let (s, v) := s.walkRead c 2 level gpa addr
      let f := fun r v => { reason := r, stage2 := true, parked := true, level := level, gva := gva, gpa := gpa, detail := v : TFault }
      if v % 4 = 0 then .fault s (f 4 v)
      else if entryMalformed 2 level v then .fault s (f 6 v)
      else if v % 4 = 1 then
        match level with
        | 0 => .fault s (f 6 v)
        | l + 1 => s.walk2 c x gva gpa write (entryAddr v) l
      else
        (if v % 4 = 3 then s.blockAt c gva gpa level addr v else .ok s ()).bind fun s _ =>
        let (s, addr, v, size) := if v % 4 = 3 then s.leafOf level addr v else (s, addr, v, pageSize level)
        if entryMalformed 2 level v then .fault s (f 6 v)
        else if !mayAccess (v.testBit 2) (v.testBit 3) write then .fault s (f 5 v)
        else if v % 4 = 2 then .hold (s.startPull c x gpa level addr)
        else
          let m := s.dpaNat addr 8
          let s := if write ∧ m % 4 = 3 ∧ !m.testBit 4 then s.dpaWrite addr (natBytes (m + 16) 8) else s
          .ok s (leafOut v size gpa)
  termination_by structural _ level => level

/-- Stage 2: a range entry, or the tables. -/
def State.stage2 (s : State) (c : Nat) (gva gpa : Nat) (write : Bool) : Acc Nat :=
  match find s.contexts c with
  | none => .fault s (.plain 0x04 gva gpa 0)
  | some x =>
    let f := fun r l d => { reason := r, stage2 := true, parked := true, level := l, gva := gva, gpa := gpa, detail := d : TFault }
    let r : Acc Nat :=
      match rangeHit x.xlat.s2range gpa with
      | some (i, e) =>
        if mayAccess (e.ctl.testBit 1) (e.ctl.testBit 2) write then .ok s (e.out + (gpa - e.base)) else .fault s (f 5 0 i)
      | none => if x.xlat.s2root = 0 then .fault s (f 4 3 0) else s.walk2 c x gva gpa write x.xlat.s2root 3
    r.bind fun s a => match s.dpa a with
      | .bad => .fault s (.plain 0x07 gva gpa a)
      | _ => .ok s a

/-- A stage-2 fault met while walking stage 1 names the GPA of the stage-1 table (R345). -/
def Acc.atTable {α : Type} (x : Acc α) (table : Nat) : Acc α :=
  match x with
  | .fault s f => .fault s { f with gpa := table }
  | r => r

/-- The stage-1 table walk: each table is itself translated by stage 2, as a read. -/
def State.walk1 (s : State) (c : Nat) (gva : Nat) (write : Bool) : Nat → Nat → Acc Nat
  | table, level =>
    ((s.stage2 c gva (table + entryOffset level gva) false).atTable table).bind fun s addr =>
      (s.walkAt c gva 0 addr).bind fun s _ =>
        let (s, v) := s.walkRead c 1 level gva addr
        let f := fun r v => { reason := r, stage2 := false, parked := true, level := level, gva := gva, gpa := 0, detail := v : TFault }
        if v % 4 = 0 then .fault s (f 1 v)
        else if entryMalformed 1 level v then .fault s (f 3 v)
        else if v % 4 = 1 then
          match level with
          | 0 => .fault s (f 3 v)
          | l + 1 => s.walk1 c gva write (entryAddr v) l
        else
          (s.blockAt c gva 0 level addr v).bind fun s _ =>
          let (s, _, v, size) := s.leafOf level addr v
          let g := leafOut v size gva
          if entryMalformed 1 level v then .fault s (f 3 v)
          else if !mayAccess (v.testBit 2) (v.testBit 3) write then .fault s (f 2 v) else if 2 ^ 48 ≤ g then .fault s (f 3 v) else .ok s g
  termination_by structural _ level => level

/-- Stage 1. -/
def State.stage1 (s : State) (c : Nat) (gva : Nat) (write : Bool) : Acc Nat :=
  match find s.contexts c with
  | none => .fault s (.plain 0x01 gva 0 0)
  | some x =>
    let f := fun r l d => { reason := r, stage2 := false, parked := true, level := l, gva := gva, gpa := 0, detail := d : TFault }
    match rangeHit x.xlat.s1range gva with
    | some (i, e) =>
      let g := e.out + (gva - e.base)
      if !mayAccess (e.ctl.testBit 1) (e.ctl.testBit 2) write then .fault s (f 2 0 i)
      else if 2 ^ 48 ≤ g then .fault s (f 3 0 i) else .ok s g
    | none => if x.xlat.s1root = 0 then .fault s (f 1 4 0) else s.walk1 c gva write x.xlat.s1root 4

/-- A guest virtual address to a device physical one. -/
def State.translate (s : State) (c : Nat) (gva : Nat) (write : Bool) : Acc Nat :=
  (s.stage1 c gva write).bind fun s gpa => s.stage2 c gva gpa write

/-! ### Accesses -/

/-- Where a piece of a packet's data lies (R234). -/
inductive Loc where
  | gva (a : Nat)
  | place (rel : Bool) (x y off : Nat) (imem : Bool)
deriving DecidableEq, Repr

/-- The identity that a packet's accesses carry: context, massif of its engine, pushing group, and its queue and index. `again` marks a
further piece of a granule that is counted already (R357). -/
structure Engine where
  ctx : Nat
  massif : Nat
  group : Option Nat
  packet : Option (Nat × Nat) := none
  again : Bool := false

/-- A place at an access: the tile, a wait while the group is switched, or no place at all (R320). -/
inductive Resolved where
  | tile (p : PlaceAt)
  | wait
  | gone

def State.resolve (s : State) (e : Engine) (rel : Bool) (x y : Nat) : Resolved :=
  if rel then
    match s.partitionTile ((find s.contexts e.ctx).map (·.partition) |>.getD 0) x y with
    | some p => .tile p
    | none => .gone
  else
    match e.group.bind (find s.groups) with
    | none => .gone
    | some g =>
      match g.state with
      | .ended => .gone
      | .discarded => .gone
      | .running =>
        match groupTile g x y with
        | some t => .tile ⟨s.globals.modIdx, t⟩
        | none => .gone
      | _ => .wait

/-- A read of at most a granule. A lost word of a scratchpad ends the packet with error; the tile's FATAL record is the one posted (R47,
R374), so the fault has no reason of its own. -/
def State.readLoc (s : State) (e : Engine) (l : Loc) (n : Nat) : Acc (List Byte) :=
  match l with
  | .gva a => (s.translate e.ctx a false).bind fun s d => s.readDpa e.ctx e.massif a d n e.again
  | .place rel x y off imem =>
    match s.resolve e rel x y with
    | .gone => .fault s (.plain 0x40 0 0 0)
    | .wait => .hold s
    | .tile p =>
      if p.module ≠ s.globals.modIdx then
        (s.through 0 (some (s.ridgeTo 96 p.module))).bind fun s _ => .ok s (s.dev.bytes (peerTileAddr p imem off) n)
      else if (s.powerOf (massifOf p.tile)).holds || s.shutBetween e.massif (massifOf p.tile) || s.shutBetween (massifOf p.tile) e.massif then .hold s
      else
        let ws := bankWords (cellsAt off (List.replicate n 0))
        let lost := ws.any fun w => (s.getTile p.tile).lostWord (16 * w)
        let s := ws.foldl (fun s w => s.networkEcc p.tile (16 * w)) s
        if lost then .fault s (.plain 0 0 0 0) else .ok s ((s.getTile p.tile).spad.bytes off n)

/-- A write of at most a granule; instruction memory is written in whole bundles (R235). -/
def State.writeLoc (s : State) (e : Engine) (l : Loc) (bs : List Byte) : Acc Unit :=
  match l with
  | .gva a => (s.translate e.ctx a true).bind fun s d => s.writeDpa e.ctx e.massif a d bs e.again
  | .place rel x y off imem =>
    match s.resolve e rel x y with
    | .gone => .fault s (.plain 0x40 0 0 0)
    | .wait => .hold s
    | .tile p =>
      if p.module ≠ s.globals.modIdx then
        (s.through 0 (some (s.ridgeTo 96 p.module))).bind fun s _ =>
          .ok { s with dev := s.dev.writeCells (cellsAt (peerTileAddr p imem off) bs) } ()
      else
        let m := massifOf p.tile
        if (s.powerOf m).state = .off then .fault s (.plain 0x0A 0 0 (m + 0x1000))
        else if (s.powerOf m).holds || s.shutBetween e.massif m then .hold s
        else
          let t := s.getTile p.tile
          .ok (s.setTile p.tile (if imem then t.writeImem s.cycle (cellsAt off bs) else t.writeSpad (cellsAt off bs))) ()

/-- Bytes at a guest virtual address, for the loader: granule by granule; `n` bounds the granules. -/
def State.readGva (s : State) (c m : Nat) (a : Nat) : Nat → Nat → List Byte → Acc (List Byte)
  | 0, _, acc => .ok s acc
  | fuel + 1, len, acc =>
    if len = 0 then .ok s acc
    else
      let n := min len (64 - a % 64)
      (s.translate c (a % 2 ^ 57) false).bind fun s d => (s.readDpa c m a d n).bind fun s bs => s.readGva c m (a + n) fuel (len - n) (acc ++ bs)

end Sys2Proof.Machine
end

