-- ==== Sys2Proof/Machine/Queue.lean ====
section
/-! DEFINITION. Queues: notify pages, the consumer, the checks of packets, completion, and the request queue of a tile
(spec/08_matrix_copy.md R229-R236; spec/11_queue.md R278-R290). -/

namespace Sys2Proof.Machine

/-! ### Packet fields (R233, R234) -/

def pkKind (bs : List Byte) : Nat := fieldOf bs 0 1
def pkVer (bs : List Byte) : Nat := fieldOf bs 1 1
def pkHeader (bs : List Byte) : Nat := fieldOf bs 0 8
def pkClass (bs : List Byte) : Nat := if pkVer bs = 2 then bitsOf (pkHeader bs) 36 2 else 0
def pkSemen (bs : List Byte) : Bool := (pkHeader bs).testBit 38
def pkIrq (bs : List Byte) : Bool := (pkHeader bs).testBit 39
def pkSem (bs : List Byte) : Nat := bitsOf (pkHeader bs) 40 8
def pkPasid (bs : List Byte) : Nat := bitsOf (pkHeader bs) 16 20

/-- Bytes [lo, hi) are zero. -/
def zeroIn (bs : List Byte) (lo hi : Nat) : Bool := ((bs.drop lo).take (hi - lo)).all (· == 0)

/-- A decoded endpoint. -/
structure Endp where
  ty : Nat
  imem : Bool
  va : Nat
  x : Nat
  y : Nat
  off : Nat
deriving DecidableEq, Repr

/-- R234; none is TYPE 0b11 or a RES0 bit. -/
def endpoint (w : Nat) : Option Endp :=
  let ty := bitsOf w 62 2
  let e : Endp := { ty := ty, imem := w.testBit 61, va := w % 2 ^ 57, x := bitsOf w 34 14, y := bitsOf w 20 14, off := w % 2 ^ 19 }
  if ty = 3 ∨ bitsOf w 57 4 ≠ 0 then none
  else if ty = 0 then (if e.imem then none else some e)
  else if bitsOf w 48 9 ≠ 0 ∨ w.testBit 19 then none
  else some e

/-- The location `d` bytes from an endpoint. -/
def Endp.loc (e : Endp) (d : Int) : Loc :=
  if e.ty = 0 then .gva ((((e.va : Int) + d) % (2 ^ 57 : Nat)).toNat)
  else .place (e.ty == 2) e.x e.y (((e.off : Int) + d).toNat) e.imem

/-- Whether a place lies in its group or partition. -/
def State.placeIn (s : State) (e : Engine) (rel : Bool) (x y : Nat) : Bool :=
  if rel then (s.partitionTile ((find s.contexts e.ctx).map (·.partition) |>.getD 0) x y).isSome
  else
    match e.group.bind (find s.groups) with
    | some g => decide (x < g.gw) && decide (y * g.gw + x < g.size)
    | none => false

/-- An endpoint used for bytes [lo, hi) around it: a place must exist and hold the range, instruction memory only as a destination
that `imem` allows (R235, R236). -/
def State.endpOk (s : State) (e : Engine) (p : Endp) (lo hi : Int) (imem : Bool) : Bool :=
  p.ty == 0 ||
    (s.placeIn e (p.ty == 2) p.x p.y && (!p.imem || (imem && decide (p.off % 32 = 0))) &&
      (decide (hi ≤ lo) || (decide (0 ≤ (p.off : Int) + lo) && decide ((p.off : Int) + hi ≤ (if p.imem then 0x10000 else 0x60000 : Int)))))

/-! ### Data kinds (R237-R240) -/

/-- A dimension of a version-2 COPY: count and strides. -/
structure Dim where
  n : Nat
  ss : Int
  ds : Int
deriving DecidableEq, Repr

def copyDims (bs : List Byte) : List Dim :=
  [(28, 36, 40), (30, 44, 48), (32, 52, 56)].map fun (c, a, b) =>
    { n := max 1 (fieldOf bs c 2), ss := signedOf (fieldOf bs a 4) 32, ds := signedOf (fieldOf bs b 4) 32 }

/-- The lowest and highest start of the blocks of a strided copy. -/
def dimRange (l : List (Nat × Int)) : Int × Int :=
  l.foldl (fun (lo, hi) (n, st) => (lo + min 0 (((n : Int) - 1) * st), hi + max 0 (((n : Int) - 1) * st))) (0, 0)

/-- A clamped source coordinate of TILE2D (R238). -/
def clampTo (x : Int) (n : Nat) : Nat := (min (max x 0) ((n : Int) - 1)).toNat

/-- The fields of TILE2D. -/
structure Tile2d where
  es : Nat
  th : Nat
  tw : Nat
  h : Nat
  w : Nat
  row0 : Int
  col0 : Int
  sp : Nat
  dp : Nat
deriving DecidableEq, Repr

def tile2d (bs : List Byte) : Tile2d :=
  { es := 2 ^ (fieldOf bs 24 1 % 4), th := fieldOf bs 26 2, tw := fieldOf bs 28 2, h := fieldOf bs 32 4, w := fieldOf bs 36 4,
    row0 := signedOf (fieldOf bs 40 4) 32, col0 := signedOf (fieldOf bs 44 4) 32, sp := fieldOf bs 48 4, dp := fieldOf bs 52 4 }

/-- The tiles that an MCAST2D mask selects, by their offset from DST. -/
def mcastTiles (bs : List Byte) (d : Endp) : List (Nat × Nat) :=
  ((List.range 64).filter (fun b => (fieldOf bs 24 8).testBit b)).map fun b =>
    (d.x + b % 8 * fieldOf bs 36 1, d.y + b / 8 * fieldOf bs 37 1)

/-- Whether a packet's payload is well formed for its kind (R235-R240); `host`: no tile pushed it. -/
def State.payloadOk (s : State) (e : Engine) (bs : List Byte) : Bool :=
  let src := endpoint (fieldOf bs 8 8)
  let dst := endpoint (fieldOf bs 16 8)
  match pkKind bs with
  | 0x01 =>
    match src, dst with
    | some a, some d =>
      if pkVer bs = 1 then
        let n := fieldOf bs 24 8
        decide (n ≤ 2 ^ 40) && zeroIn bs 32 63 && s.endpOk e a 0 n false && s.endpOk e d 0 n true && (!d.imem || decide (n % 32 = 0))
      else
        let n := fieldOf bs 24 4
        let ds := copyDims bs
        let (sl, sh) := dimRange (ds.map fun x => (x.n, x.ss))
        let (dl, dh) := dimRange (ds.map fun x => (x.n, x.ds))
        let sh := if n = 0 then sl else sh + n
        let dh := if n = 0 then dl else dh + n
        zeroIn bs 34 36 && zeroIn bs 60 63 && s.endpOk e a sl sh false && s.endpOk e d dl dh true &&
          (!d.imem || (decide (n % 32 = 0) && ds.all fun x => decide (x.ds % 32 = 0)))
    | _, _ => false
  | 0x02 =>
    let t := tile2d bs
    let counts := t.th != 0 && t.tw != 0 && t.h != 0 && t.w != 0
    match src, dst with
    | some a, some d =>
      let r1 := clampTo (t.row0 + t.th - 1) t.h
      let c1 := clampTo (t.col0 + t.tw - 1) t.w
      let lo := clampTo t.row0 t.h * t.sp + clampTo t.col0 t.w * t.es
      counts && decide (fieldOf bs 24 1 < 4) && zeroIn bs 25 26 && zeroIn bs 30 32 && zeroIn bs 56 63 &&
        s.endpOk e a lo (r1 * t.sp + c1 * t.es + t.es : Nat) false && s.endpOk e d 0 ((t.th - 1) * t.dp + t.tw * t.es : Nat) false
    | _, _ => false
  | 0x04 =>
    let n := fieldOf bs 32 4
    match src, dst with
    | some a, some d =>
      decide (d.ty ≠ 0) && decide (1 ≤ n) && decide (n ≤ 0x60000) && fieldOf bs 36 1 != 0 && fieldOf bs 37 1 != 0 && zeroIn bs 38 63 &&
        s.endpOk e a 0 n false && (!d.imem || (decide (n % 32 = 0) && decide (d.off % 32 = 0))) &&
        (mcastTiles bs d).all (fun p => s.endpOk e { d with x := p.1, y := p.2 } 0 n true)
    | _, _ => false
  | 0x05 =>
    let n := fieldOf bs 24 8
    match dst with
    | some d => zeroIn bs 32 63 && s.endpOk e d 0 n true && (!d.imem || decide (n % 32 = 0))
    | none => false
  | 0x07 => zeroIn bs 8 63
  | 0x08 => zeroIn bs 8 63
  | 0x09 =>
    match dst with
    | some d => zeroIn bs 24 63 && s.endpOk e d 0 8 false && decide ((if d.ty = 0 then d.va else d.off) % 8 = 0)
    | none => false
  | 0x0A => zeroIn bs 19 24 && zeroIn bs 32 63
  | 0x0B =>
    match src with
    | some a => a.ty == 0 && zeroIn bs 24 63
    | none => false
  | 0x10 => true
  | k => decide (0x20 ≤ k) && decide (k ≤ 0x2F) && decide (fieldOf bs 8 8 % 8 = 0)

/-- The destination that SEMEN follows is a place. -/
def placeDest (bs : List Byte) : Bool :=
  [0x01, 0x02, 0x04, 0x05, 0x09].contains (pkKind bs) && (match endpoint (fieldOf bs 16 8) with
    | some d => d.ty != 0
    | none => false)

/-- Kinds that a host may push (R236, R264, R296, R359). -/
def hostMay (hv : Bool) (k : Nat) : Bool :=
  [0x01, 0x02, 0x04, 0x05, 0x07, 0x08, 0x09, 0x0B, 0x10].contains k || (hv && (k == 0x0A || (decide (0x20 ≤ k) && decide (k ≤ 0x2F))))

def Queue.hvpriv (q : Queue) : Bool := q.qflags.testBit 0
def Queue.irqen (q : Queue) : Bool := q.qflags.testBit 1
def Queue.irqidx (q : Queue) : Nat := bitsOf q.qflags 2 3
def Queue.hostq (q : Queue) : Bool := q.intf.testBit 15
def Queue.iface (q : Queue) : Nat := q.intf % 2 ^ 12
def Queue.slots (q : Queue) : Nat := 2 ^ q.logSize

/-- The group and rank that pushed an index. -/
def Queue.pusherOf (q : Queue) (i : Nat) : Option (Nat × Nat) := find q.owners i

/-- The command kinds (R264), whose header PASID is ignored (R265). -/
def isCommand (k : Nat) : Bool := decide (0x20 ≤ k) && decide (k ≤ 0x2F)

/-- The reason for which a packet that begins fails, if any (R236, R287). -/
def State.packetReason (s : State) (qn : Nat) (q : Queue) (i : Nat) (bs : List Byte) : Option Nat :=
  let pusher := q.pusherOf i
  let e : Engine := { ctx := q.ctx, massif := qn / 1024, group := pusher.map (·.1) }
  let may := match pusher with
    | some _ => pushable (s.ctxHvpriv q.ctx) (pkKind bs)
    | none => hostMay q.hvpriv (pkKind bs)
  let header := (pkVer bs == 1 || pkVer bs == 2) && bitsOf (pkHeader bs) 48 16 == 0 && (pkVer bs == 2 || bitsOf (pkHeader bs) 36 2 == 0)
  let sem := !(pkSemen bs && pusher.isNone && !placeDest bs && decide (pkKind bs < 0x20))
  if !(may && header && sem && s.payloadOk e bs) then some 0x40
  else if q.hostq && !isCommand (pkKind bs) && (match find s.interfaces q.iface with
    | some x => x.bound.2.1 != pkPasid bs
    | none => true) then some 0x41
  else none

/-! ### Queue records -/

def State.onCtx (s : State) (c : Nat) (f : Context → Context) : State :=
  match find s.contexts c with
  | some x => { s with contexts := put s.contexts c (f x) }
  | none => s

def State.onQueue (s : State) (qn : Nat) (f : Queue → Queue) : State :=
  match find s.queues qn with
  | some q => { s with queues := put s.queues qn (f q) }
  | none => s

/-- The record of a packet. -/
def Record.ofPacket (qn : Nat) (q : Queue) (i cls reason : Nat) : Record :=
  { reason := reason, flags := 0, level := 0, alias_ := cls, ctx := q.ctx, queue := qn, index := i, gva := 0, gpa := 0, detail := 0 }
def Record.ofFault (r : Record) (f : TFault) (write : Bool) : Record :=
  { r with reason := f.reason, flags := (if f.parked then 1 else 0) + (if write then 2 else 0) + (if f.stage2 then 4 else 0),
           level := f.level, gva := f.gva, gpa := f.gpa, detail := f.detail }

/-- The status word of R232. -/
def QueueState.code : QueueState → Nat
  | .waitingContent => 1
  | .faultParked => 2
  | .error => 3
  | _ => 0
def Queue.statusWord (q : Queue) : W64 := BitVec.ofNat 64 (q.state.code * 2 ^ 32 + q.errReg)
/-- The status that is published with an advance of DONE. -/
def Queue.pubStatus (q : Queue) : W64 := BitVec.ofNat 64 (q.state.code * 2 ^ 32 + q.errCount)

/-- A byte of the MSI-X table: the mask bit of every vector control word is set at reset, as PCIe has it (log 74). -/
def State.msixByte (s : State) (o : Nat) : Byte := let b := s.msix.read o; if o % 16 = 12 then b ^^^ 1 else b
/-- Whether a vector is masked. -/
def State.vectorMasked (s : State) (v : Nat) : Bool := (s.msixByte (16 * v + 12)).getLsbD 0

/-- A vector's message is sent, where the CXL port carries it, or pends while the vector is masked; signals that pend merge (R289, R365, log 108). -/
def State.sendVector (s : State) (v : Nat) : State :=
  if s.vectorMasked v then { s with pba := s.pba ||| 2 ^ v } else if s.hostPort then { s with sent := s.sent ++ [.msix v] } else s

/-- A signal on the interrupt entry of a queue (R288, R289). -/
def State.signal (s : State) (q : Queue) : State :=
  if !q.irqen || !q.hostq then s
  else
    match find s.interfaces q.iface with
    | none => s
    | some x =>
      let e := (rd x.irq q.irqidx).toNat
      if e.testBit 31 then s.sendVector (e % 2 ^ 11) else s

/-- DONE moves over every complete index (R288): the queue and the interrupts due. -/
def advanceDone : Nat → Queue → Nat → Queue × Nat
  | 0, q, n => (q, n)
  | fuel + 1, q, n =>
    match q.finished.find? (fun e => e.1 == q.done) with
    | none => (q, n)
    | some e =>
      advanceDone fuel { q with done := q.done + 1, finished := q.finished.filter (fun x => x.1 != e.1) } (if e.2 then n + 1 else n)

/-- The copies of every tile that DONE has passed are complete (R174). -/
def Ports.dropCopies (p : Ports) (qn done : Nat) : Ports :=
  { p with copies := p.copies.filter fun e => !(e.2.1 == qn && (match e.2.2 with
    | some i => decide (i < done)
    | none => false)) }
def State.mapTiles (s : State) (f : Tile → Tile) : State :=
  { s with
    tile := f s.tile
    tiles := s.tiles.map fun e => (e.1, f e.2)
    groups := s.groups.map fun e => (e.1, { e.2 with saved := e.2.saved.map f }) }

/-- After an advance over complete indices: its publication, with the signals due after it, and the claims that are left. -/
def Queue.trimmed (q : Queue) (signals : Nat) : Queue :=
  { q with
    owners := q.owners.filter (fun e => decide (q.done ≤ e.1))
    pubs := if (q.pubs.getLast?.map (·.1)).getD 0 < q.done then q.pubs ++ [(q.done, q.pubStatus, signals)] else q.pubs }

/-- An advance to `d` has reached every binding of the queue. -/
def State.reached (s : State) (qn : Nat) (q : Queue) (d : Nat) : Bool :=
  (s.tile :: s.tiles.map (·.2)).all fun t => t.io.bindings.all fun b => b.2.queue != qn || b.2.life != q.life || decide (d ≤ b.2.donesh.toNat)

/-- The advances that have reached every binding show in DONE and STATUS, and their signals follow (R288). -/
def State.settle (s : State) (qn : Nat) : State :=
  match find s.queues qn with
  | none => s
  | some q =>
    let due := q.pubs.filter fun e => decide (q.doneReg < e.1) && s.reached qn q e.1
    match due.getLast? with
    | none => s
    | some e =>
      let s := (s.onQueue qn fun q => { q with doneReg := e.1, errReg := e.2.1.toNat % 2 ^ 32 }).mapTiles (·.onIo (·.dropCopies qn e.1))
      (List.replicate (due.map (·.2.2)).sum ()).foldl (fun s _ => s.signal q) s

/-- An index is complete; `failed` is counted. -/
def State.finish (s : State) (qn i : Nat) (failed irq : Bool) : State :=
  match find s.queues qn with
  | none => s
  | some q =>
    let q :=
      { q with
        packets := q.packets.filter (fun p => p.index != i)
        finished := q.finished ++ [(i, irq)]
        errCount := if failed then satInc q.errCount 1 else q.errCount }
    let (q, n) := advanceDone q.finished.length q 0
    { s with queues := put s.queues qn (q.trimmed n) }.settle qn

/-- In ERROR every claimed index that has not begun completes with error (R282, R287). -/
def State.errorSweep (s : State) (qn : Nat) : State :=
  match find s.queues qn with
  | none => s
  | some q =>
    if q.state ≠ .error then s
    else
      let held := (q.packets.filter (·.waiting)).map fun p => (p.index, p.cls)
      let late := (List.range (q.wridx - q.rdidx)).map fun k => (q.rdidx + k, 0)
      let s := s.onQueue qn fun q => { q with rdidx := max q.rdidx q.wridx, packets := q.packets.filter (fun p => !p.waiting) }
      (held ++ late).foldl
        (fun s i => (s.post (.ofPacket qn q i.1 i.2 (if q.revoked then 0x42 else 0x43))).finish qn i.1 true false) s

/-- A launch that is not complete. -/
def Launch.live (l : Launch) : Bool := l.state != .done && l.state != .failed

/-- The launch of a packet. -/
def State.launchOf (s : State) (qn i : Nat) : Option (Nat × Launch) :=
  s.launches.find? fun e => e.2.queue == qn && e.2.index == i && e.2.live

/-- An earlier launch of the context with the same KSEQ is not complete (R299). -/
def State.launchDup (s : State) (l : Launch) (n : Nat) : Bool :=
  s.launches.any fun e => decide (e.1 < n) && e.2.ctx == l.ctx && e.2.kseq == l.kseq && e.2.live

/-- Every launch of a context that waits for its predecessors looks again. -/
def State.pokeLaunches (s : State) (c : Nat) : State :=
  (s.launches.filter fun e => e.2.ctx == c && e.2.state == .waitDep).foldl
    (fun s e => s.at_ s.cycle .launchDepsMet { Args.none with a := e.1 }) s

/-- A launch becomes DONE or FAILED and records itself; a duplicate KSEQ records nothing (R298, R299). -/
def State.recordLaunch (s : State) (l : Launch) (n : Nat) (done : Bool) : State :=
  let dup := s.launchDup l n
  let s := { s with launches := put s.launches n { l with state := if done then .done else .failed } }
  if dup then s else s.onCtx l.ctx fun x => { x with completions := put x.completions (l.kseq % 4096) (l.kseq, done) }

/-- The launch of a parked packet of a queue that enters ERROR has failed (R282, R298). -/
def State.endParked (s : State) (qn : Nat) (q : Queue) (p : Packet) : State :=
  match s.launchOf qn p.index with
  | some (n, l) => ((s.post (.ofPacket qn q p.index p.cls 0x43)).recordLaunch l n false).pokeLaunches l.ctx
  | none => s

/-- A queue enters ERROR (R282): parked packets fail at once; begun ones go on. -/
def State.enterError (s : State) (qn : Nat) (revoked : Bool) : State :=
  match find s.queues qn with
  | none => s
  | some q =>
    if q.state = .free ∨ q.state = .error then s
    else
      let s := (q.packets.filter (·.parked)).foldl (fun s p => s.endParked qn q p) s
      let s := s.onQueue qn fun q =>
        { q with
          state := .error, revoked := revoked, windowFrom := none
          packets := q.packets.map fun p => if p.parked then { p with parked := false, complete := true, failed := true } else p }
      let s := s.errorSweep qn
      match find s.queues qn with
      | some q => s.signal q
      | none => s

/-! ### Ring slots (R282, R285) -/

/-- What reading a ring slot gives. -/
inductive SlotRead where
  | bytes (s : State) (bs : List Byte)
  | fault (s : State) (f : TFault)
  | lost (s : State)
  | hold (s : State)

/-- The slot of an index, read as one granule by an engine of the queue's massif. -/
def State.readSlot (s : State) (qn : Nat) (q : Queue) (i : Nat) : SlotRead :=
  match s.translate q.ctx (q.base + 64 * (i % q.slots)) false with
  | .hold s => .hold s
  | .fault s f => .fault s f
  | .ok s a =>
    match (s.leaves (qn / 1024) true).bind fun s _ => s.reach 0 a with
    | .hold s => .hold s
    | .fault s f => .fault s f
    | .ok s _ =>
      let (s, e) := (s.countAccess q.ctx (qn / 1024) a).devEccAt a
      if e = 2 then .lost s else .bytes s (s.dpaBytes a 64)

/-- The stamp of an index's lap (R283). -/
def Queue.stamp (q : Queue) (i : Nat) : Nat := i / q.slots % 256

/-- A ring access that faults parks the queue, or ends it where a replay cannot help (R282). -/
def State.ringFault (s : State) (qn : Nat) (q : Queue) (i : Nat) (f : TFault) (write : Bool) : State :=
  let s := s.post ((Record.ofPacket qn q i 0 0).ofFault f write)
  if f.parked then s.onQueue qn fun q => { q with state := .faultParked } else s.enterError qn false

/-- The one read of the slot of a queue in WAITING_CONTENT: after a kick, or where the stamp matches, the queue is ACTIVE again (R285). A read
that a pull holds is made when the pull is over: it is tried again in the next cycle (R360). -/
def State.slotAgain (s : State) (qn : Nat) (kick : Bool) : State :=
  match find s.queues qn with
  | none => s
  | some q =>
    if q.state ≠ .waitingContent then s
    else
      match s.readSlot qn q q.rdidx with
      | .hold s => s.at_ (s.cycle + 1) .consumerSweep { Args.none with a := qn, b := if kick then 1 else 0, flag := true }
      | .lost s => s.enterError qn false
      | .fault s f => s.ringFault qn q q.rdidx f false
      | .bytes s bs => if kick || fieldOf bs 63 1 == q.stamp q.rdidx then s.onQueue qn fun q => { q with state := .active } else s

/-- A kick (R285): a queue in WAITING_CONTENT reads its slot once and is ACTIVE again. -/
def State.kickQueue (s : State) (qn : Nat) : State := (s.onQueue qn fun q => { q with kickPend := true, windowFrom := none }).slotAgain qn true

/-! ### The notify page (R286) -/

/-- The queue behind a register block. -/
def State.notifyQueue (s : State) (intf block : Nat) : Option (Nat × Queue) :=
  match find s.interfaces intf with
  | some x => if x.state = 1 then s.queues.find? fun e => e.2.state != .free && e.2.hostq && e.2.iface == intf && e.2.qsel == block else none
  | none => none

/-- KICK (R286): a write of `c` bytes to the KICK register of block `b` of interface `a`. -/
def execKick (s : State) : Out :=
  let x := s.args
  s.needHost x.a 4096 (
    match s.notifyQueue x.a x.b with
    | some (qn, _) => if x.c = 4 ∨ x.c = 8 then s.kickQueue qn else s
    | none => s)

/-- CLAIM (R286): a read of `c` bytes of the CLAIM register of block `b` of interface `a`. -/
def execClaim (s : State) : Out :=
  let x := s.args
  s.needHost x.a 4096 (
    match s.notifyQueue x.a x.b with
    | none => { s with sent := s.sent ++ [.readData (List.replicate x.c 0xFF)] }
    | some (qn, q) =>
      if x.c = 8 then
        let m : Message := .readData (natBytes q.wridx 8)
        ({ s with sent := s.sent ++ [m] }.onQueue qn fun q => { q with wridx := q.wridx + 1 }).errorSweep qn
      else { s with sent := s.sent ++ [.readData (List.replicate x.c 0)] })

/-! ### The consumer (R285, R287) -/

/-- A packet begins: it fails a check, or its effect follows (R287). -/
def State.beginPacket (s : State) (qn : Nat) (i : Nat) (bs : List Byte) : State :=
  match find s.queues qn with
  | none => s
  | some q =>
    let p : Packet :=
      { index := i, bytes := bs, cls := pkClass bs, pusher := q.pusherOf i, next := 0, parked := false, complete := false,
        failed := false, waiting := false, held := false, data := [], deadline := s.cycle + 8000000 }
    let rest := q.packets.filter (fun p => p.index != i)
    match s.packetReason qn q i bs with
    | some r => (s.post (.ofPacket qn q i p.cls r)).onQueue qn fun q => { q with packets := rest ++ [{ p with complete := true, failed := true }] }
    | none =>
      let s := s.onQueue qn fun q => { q with packets := rest ++ [p] }
      if pkKind bs = 0x10 then s.at_ s.cycle .launch { Args.none with a := qn, b := i } else s

/-- Whether an index of a class may begin: no FENCE before it, and nothing that holds its class (R233, R240, R298, R350). -/
def Queue.mayBegin (q : Queue) (i cls : Nat) : Bool :=
  q.packets.all fun p => p.complete || decide (i ≤ p.index) ||
    !(pkKind p.bytes == 0x07 || (p.cls == cls && (p.parked || p.held || p.waiting || pkKind p.bytes == 0x10)))

/-- Contexts whose queues are consumed (R254, R282, R285). -/
def CtxState.consumes : CtxState → Bool
  | .running => true
  | .created => true
  | _ => false

/-- PACKET_BEGIN (R285, R287): the consumer of queue `a` takes one step. -/
def execPacketBegin (s : State) : Out :=
  let qn := s.args.a
  s.need qn 98304 (
    match find s.queues qn with
    | none => s
    | some q =>
      if q.state != .active || !((find s.contexts q.ctx).map (·.state.consumes)).getD false then s
      else
        match q.packets.find? (fun p => p.waiting && q.mayBegin p.index p.cls) with
        | some p => s.beginPacket qn p.index p.bytes
        | none =>
          if !q.kickPend || q.packets.any (fun p => !p.complete && pkKind p.bytes == 0x07) then s
          else if q.rdidx = q.wridx then s.onQueue qn fun q => { q with kickPend := false }
          else
            match s.readSlot qn q q.rdidx with
            | .hold s => s
            | .lost s => s.enterError qn false
            | .fault s f => s.ringFault qn q q.rdidx f false
            | .bytes s bs =>
              if fieldOf bs 63 1 = q.stamp q.rdidx then
                let s := s.onQueue qn fun q => { q with rdidx := q.rdidx + 1, windowFrom := none }
                if q.mayBegin q.rdidx (pkClass bs) then s.beginPacket qn q.rdidx bs
                else
                  s.onQueue qn fun r =>
                    { r with packets := r.packets ++
                        [{ index := q.rdidx, bytes := bs, cls := pkClass bs, pusher := q.pusherOf q.rdidx, next := 0, parked := false,
                           complete := false, failed := false, waiting := true, held := false, data := [], deadline := 0 }] }
              else s.onQueue qn fun q => { q with windowFrom := some (q.windowFrom.getD s.cycle) })

/-- CONTENT_WINDOW_EXPIRY (R285): 1,024 cycles of stamp mismatch at queue `a`. -/
def execContentWindowExpiry (s : State) : Out :=
  let qn := s.args.a
  s.need qn 98304 (
    match find s.queues qn with
    | none => s
    | some q =>
      match q.windowFrom with
      | none => s
      | some c =>
        if q.state ≠ .active ∨ !q.kickPend ∨ s.cycle < c + 1024 ∨ !((find s.contexts q.ctx).map (·.state.consumes)).getD false then s
        else
          match s.readSlot qn q q.rdidx with
          | .hold s => s
          | .lost s => s.enterError qn false
          | .fault s f => s.ringFault qn q q.rdidx f false
          | .bytes s bs =>
            if fieldOf bs 63 1 = q.stamp q.rdidx then s
            else s.onQueue qn fun q => { q with state := .waitingContent, windowFrom := none })

/-- CONSUMER_SWEEP (R285): every queue in WAITING_CONTENT reads its slot again; with the flag, queue `a` alone, whose read a pull held (b = 1:
that of a kick). -/
def execConsumerSweep (s : State) : Out :=
  .next (if s.args.flag then s.slotAgain s.args.a (s.args.b == 1) else (s.queues.map (·.1)).foldl (fun s n => s.slotAgain n false) s)

/-! ### Completion (R233, R288) -/

/-- Where a completion increments semaphore SEM. -/
inductive SemTarget where
  | tiles (l : List PlaceAt)
  | wait

/-- The tiles that a packet's completion increments (R233). -/
def State.semTargets (s : State) (e : Engine) (p : Packet) : SemTarget :=
  let at_ := fun (rel : Bool) (l : List (Nat × Nat)) =>
    l.foldl (fun acc q => match acc, s.resolve e rel q.1 q.2 with
      | .tiles ts, .tile t => .tiles (ts ++ [t])
      | _, .wait => .wait
      | .wait, _ => .wait
      | .tiles ts, .gone => .tiles ts) (SemTarget.tiles [])
  match placeDest p.bytes, endpoint (fieldOf p.bytes 16 8) with
  | true, some d => at_ (d.ty == 2) (if pkKind p.bytes = 0x04 then mcastTiles p.bytes d else [(d.x, d.y)])
  | _, _ =>
    match p.pusher with
    | none => .tiles []
    | some (g, rank) =>
      match find s.groups g with
      | none => .tiles []
      | some x =>
        match x.state with
        | .running => .tiles ((x.tiles[rank]?).toList.map fun t => ⟨s.globals.modIdx, t⟩)
        | .ended => .tiles []
        | .discarded => .tiles []
        | _ => .wait

/-- PACKET_COMPLETION (R233, R288): packet `b` of queue `a`, whose effect is done, increments its semaphore and completes. -/
def execPacketCompletion (s : State) : Out :=
  let qn := s.args.a
  s.need qn 98304 (
    match find s.queues qn with
    | none => s
    | some q =>
      match q.packets.find? (fun p => p.index == s.args.b && p.complete) with
      | none => s
      | some p =>
        let go := fun (s : State) => s.finish qn p.index p.failed (pkIrq p.bytes)
        if !pkSemen p.bytes || p.failed then go s
        else
          match s.semTargets { ctx := q.ctx, massif := qn / 1024, group := p.pusher.map (·.1) } p with
          | .wait => s
          | .tiles ts =>
            go (ts.foldl (fun s t =>
              if t.module = s.globals.modIdx then s.increment t.tile (pkSem p.bytes)
              else { s with sent := s.sent ++ [.toModule t.module "increment" t.tile (pkSem p.bytes)] }) s))

/-- A published value between the last one and the current one: publications keep their order (R332). -/
def published (old new chosen : W64) : W64 := if old ≤ chosen ∧ chosen ≤ new then chosen else new

/-- The publication that arrives: the advance to `d`, or the newest one. -/
def Queue.publication (q : Queue) (d : Nat) : Option (Nat × W64 × Nat) :=
  match q.pubs.find? (fun e => e.1 == d) with
  | some e => some e
  | none => q.pubs.getLast?

/-- A publication at a tile's bindings of a queue; they keep their order. -/
def Binding.publish (b : Binding) (qn : Nat) (e : Nat × W64) : Binding :=
  if b.queue = qn ∧ b.donesh.toNat ≤ e.1 then { b with donesh := BitVec.ofNat 64 e.1, status := e.2 } else b

/-- DONESH_PUBLICATION (R229, R232, R288): a publication of queue `b`, that of DONE = `c`, reaches the bindings of tile `a`; DONE and STATUS
show it when it has reached the last one. -/
def execDoneshPublication (s : State) : Out :=
  let x := s.args
  s.needTile x.a (
    match (find s.queues x.b).bind (·.publication x.c) with
    | none => s
    | some e =>
      (s.setTile x.a ((s.getTile x.a).onIo fun p => { p with bindings := p.bindings.map fun b => (b.1, b.2.publish x.b (e.1, e.2.1)) })).settle x.b)

/-! ### The request queue (R174, R177, R179, R231, R245) -/

/-- Set the index that a push has claimed. -/
def Ports.claimed (p : Ports) (id i : Nat) : Ports :=
  { p with
    requests := p.requests.map fun e => match e.kind with
      | .push n q _ bs => if n = id then { e with kind := .push n q (some i) bs } else e
      | _ => e
    copies := p.copies.map fun e => if e.1 = id then (e.1, e.2.1, some i) else e }

/-- The bytes 0-62 that hardware writes for a tile: the PASID is the context's (R231). -/
def tilePacket (bs : List Byte) (pasid stamp : Nat) : List Byte :=
  let h := pkHeader bs
  let h := h - pkPasid bs * 2 ^ 16 + pasid % 2 ^ 20 * 2 ^ 16
  natBytes h 8 ++ (bs.drop 8).take 55 ++ [BitVec.ofNat 8 stamp]

/-- A push at the head of a tile's request queue. An EXCL push is held while its slot is unconsumed, and WRIDX counts it when it leaves. -/
def State.departPush (s : State) (n : Nat) (t : Tile) (id qn : Nat) (index : Option Nat) (bs : List Byte) : State :=
  match find s.queues qn with
  | none => s.setTile n t.popRequest
  | some q =>
    let i := index.getD q.wridx
    let own := if (q.pusherOf i).isSome then q.owners else put q.owners i (t.place.group.getD 0, t.place.rank)
    let claim := { q with wridx := max q.wridx (i + 1), owners := own }
    let t := t.onIo (·.claimed id i)
    let leave := fun (s : State) => (s.setTile n ((s.getTile n).popRequest)).onQueue qn fun q => { q with pushes := q.pushes - 1 }
    if q.state = .free then s.setTile n t.popRequest
    else if q.state = .error then leave ({ s with queues := put s.queues qn claim }.setTile n t |>.errorSweep qn)
    else if q.state = .faultParked ∨ (index.isSome ∧ q.rdidx + q.slots ≤ i) then s
    else
      let s := { s with queues := put s.queues qn claim }.setTile n t
      if q.rdidx + q.slots ≤ i then s
      else
        match (s.translate q.ctx (q.base + 64 * (i % q.slots)) true).bind fun s a => (s.reach 0 a).bind fun s _ => .ok s a with
        | .hold s => s
        | .fault s f =>
          (s.ringFault qn q i f true).setTile n ((s.getTile n).onIo fun p =>
            { p with requests := match p.requests with
              | e :: r => { e with parked := f.parked } :: r
              | [] => [] })
        | .ok s a =>
          let pasid := ((find s.contexts q.ctx).map (·.pasid)).getD 0
          leave (s.dpaWrite a (tilePacket bs pasid (q.stamp i)))

/-- The id and the record that a gate id comes to over forwarding records of this module (R336); no record: its home is another module. -/
def State.followGate (s : State) : Nat → Nat → Nat × Option (Nat × Option Gate)
  | 0, id => (id, none)
  | fuel + 1, id =>
    if id / 2 ^ 12 ≠ s.globals.modIdx then (id, none)
    else
      match find s.gates (id % 2 ^ 12) with
      | some g => if g.state = .forward then s.followGate fuel g.fwd else (id, some (id % 2 ^ 12, some g))
      | none => (id, some (id % 2 ^ 12, none))
def State.localGate (s : State) (id : Nat) : Option (Nat × Option Gate) := (s.followGate 4096 id).2

/-- The gate id at the home, as this module knows it. -/
def State.homeId (s : State) (id : Nat) : Nat := (s.followGate 4096 id).1

/-- Posts of a replica that its home holds, counted and not matched, or held while the gate moves (R336, R337). -/
def Gate.unmatched (g : Gate) (module ctx : Nat) : Nat :=
  (match g.digests.find? (fun e => e.1.module == module && e.1.ctx == ctx) with
    | some e => e.2.length
    | none => 0) + g.held.countP fun p => p.module == module && p.ctx == ctx

/-- A record takes no further post of a replica: it holds four that are not matched, `more` counted with them (R337). A record that takes no
post at all discards it instead (R179). -/
def Gate.full (g : Gate) (module ctx more : Nat) : Bool :=
  g.digest && g.kept.isEmpty && [GateState.closed, .opened, .migrating].contains g.state && decide (4 ≤ g.unmatched module ctx + more)

/-- The 32 bytes of a digest as the network port reads them: none when an error there cannot be corrected (R47, R377). -/
def State.readDigest (s : State) (n off : Nat) : State × Option (List Byte) :=
  let t := s.getTile n
  ((s.networkEcc n off).networkEcc n (off + 16), if t.lostWord off || t.lostWord (off + 16) then none else some (t.spad.bytes off 32))

/-- A post leaves for its gate's home (R179, R334, R337), not before an earlier one of its tile that is still on its way (R251). A digest
gate on another module may turn it back, so its entry stays until that module answers. -/
def State.departPost (s : State) (n : Nat) (t : Tile) (id gate issued : Nat) : State :=
  let p := t.io
  let ready := !t.localBelow issued id && p.remotes.all (fun k => decide (id ≤ k)) &&
    p.copies.all (fun e => decide (id ≤ e.1) || s.copyComplete e)
  if !ready then s
  else
    let c := t.place.ctx
    let sh := s.shadow gate (massifOf n)
    let digest := (sh.map (·.digest)).getD false
    let read := fun (s : State) => match sh with
      | some h => if h.digest then s.readDigest n ((find h.doffs c).getD 0) else (s, some [])
      | none => (s, some [])
    let post := fun (bs : List Byte) => ({ id := id, gate := gate, module := s.globals.modIdx, ctx := c, tile := n, digest := bs } : Post)
    let same := fun (y : Post) => s.homeId y.gate == s.homeId gate
    match s.localGate gate with
    | some (_, g) =>
      let waiting := s.posts.countP fun y => same y && y.ctx == c && y.module == s.globals.modIdx
      if g.any fun g => g.full s.globals.modIdx c waiting then s
      else
        match read s with
        | (s, none) => s
        | (s, some bs) => { s.setTile n (s.getTile n).popRequest with posts := s.posts ++ [post bs] }
    | none =>
      if s.posts.any fun y => same y && y.tile == n && y.module == s.globals.modIdx then s
      else
        match read s with
        | (s, none) => s
        | (s, some bs) =>
          let t := if digest then (s.getTile n).onIo fun k => { k with requests := match k.requests with
              | e :: r => { e with kind := .posting id gate } :: r
              | [] => [] }
            else (s.getTile n).popRequest
          { s.setTile n t with sent := s.sent ++ [.post { post bs with gate := s.homeId gate }] }

/-- REQUEST_QUEUE_DEPART (R174, R177, R179, R231, R245): the head of tile `a`'s request queue leaves when it may. -/
def execRequestQueueDepart (s : State) : Out :=
  let n := s.args.a
  let t := s.getTile n
  s.needTile n (
    match t.io.requests with
    | [] => s
    | e :: _ =>
      if s.cycle < e.ready then s
      else
        match e.kind with
        | .push id qn i bs => s.departPush n t id qn i bs
        | .kick qn => (s.setTile n t.popRequest).kickQueue qn
        | .post id g issued => s.departPost n t id g issued
        | .posting _ _ => s
        | .fence id =>
          match t.io.fences.find? (fun f => f.id == id) with
          | none => s.setTile n t.popRequest
          | some f => if s.fencePasses t f then s.setTile n (t.popRequest.onIo (·.dropFence id)) else s
        | .mark id =>
          match t.io.writes with
          | w :: _ => if w.kind = .mark id ∧ w.ready ≤ s.cycle then s.setTile n t.popWrite.popRequest else s
          | [] => s)

end Sys2Proof.Machine
end

