-- ==== Sys2Proof/Machine/QueueControl.lean ====
section
/-! DEFINITION. The queue commands and the Ibpaist interfaces (spec/11_queue.md R280, R281, R289, R290). -/

namespace Sys2Proof.Machine

/-- QRES and IRES codes. -/
def resOk : Nat := 0
def resBadstate : Nat := 1
def resNoresource : Nat := 2
def resMalformed : Nat := 3
def resBadbind : Nat := 4

/-- A queue record that nothing has written. -/
def Queue.zero : Queue :=
  { state := .free, base := 0, logSize := 0, qflags := 0, ctx := 0, intf := 0, qsel := 0, wridx := 0, rdidx := 0, done := 0,
    errCount := 0, qres := 0, kickPend := false, windowFrom := none, revoked := false, pushes := 0, packets := [], finished := [],
    owners := [], pubs := [], doneReg := 0, errReg := 0, charged := false, regCtx := 0, life := 0 }
def State.queue (s : State) (n : Nat) : Queue := (find s.queues n).getD .zero

/-- An interface that nothing has written. -/
def Interface.zero : Interface :=
  { state := 0, iflags := 0, ctx := 0, pasid := 0, ires := 0, bound := (0, 0, false), irq := Vector.replicate 8 0 }
def State.interface (s : State) (n : Nat) : Interface := (find s.interfaces n).getD .zero

/-- The result of a queue command. -/
def State.queueResult (s : State) (n : Nat) (q : Queue) (r : Nat) : State := { s with queues := put s.queues n { q with qres := r } }

/-- BUSY of QRES. -/
def busyBit : Nat := 2 ^ 8
def Queue.busy (q : Queue) : Bool := q.qres.testBit 8

/-- A QCMD write `w` of command `code` (R280): ignored while BUSY is set; a RES0 bit set is MALFORMED; 0 and the code of another command
do nothing here. -/
def State.qcmd (s : State) (n w code : Nat) (k : Queue → State) : Out :=
  let q := s.queue n
  s.needHost n 98304 (if q.busy then s else if 4 ≤ w then s.queueResult n q resMalformed else if w = code then k q else s)

/-- The context exists. -/
def State.ctxLive (s : State) (c : Nat) : Bool :=
  match find s.contexts c with
  | some x => x.state != .free
  | none => false

/-- Check 2 of CREATE. -/
def State.descriptorOk (s : State) (q : Queue) : Bool :=
  decide (6 ≤ q.logSize) && decide (q.logSize ≤ 16) && decide (q.base < 2 ^ 57) && decide (q.base % min (64 * 2 ^ q.logSize) (2 ^ 21) = 0) &&
    decide (q.qflags < 32) && decide (q.ctx < 1024) && s.ctxLive q.ctx && decide (bitsOf q.intf 12 3 = 0) && decide (q.qsel < 16)

/-- Check 3 of CREATE. -/
def State.bindOk (s : State) (n : Nat) (q : Queue) : Bool :=
  !q.hostq ||
    (let x := s.interface q.iface
     x.state == 1 && x.bound.1 == q.ctx && (!q.hvpriv || x.bound.2.2) &&
       !(s.queues.any fun e => e.1 != n && (e.2.state != .free || e.2.busy) && e.2.hostq && e.2.iface == q.iface && e.2.qsel == q.qsel))

/-- 0xFF into byte 63 of slots from `k` on, as many as the first number says: the slot it has come to, and whether a fault met it. A slot in
the stack of a col is that col's own access (R279, R357). -/
def State.stampSlots (s : State) (q : Queue) : Nat → Nat → State × Nat × Bool
  | 0, k => (s, k, false)
  | n + 1, k =>
    match (s.translate q.ctx (q.base + 64 * k + 63) true).bind fun s a => (s.reach 0 a).bind fun s _ => .ok s a with
    | .ok s a => ((s.countCol q.ctx a).dpaWrite a [0xFF]).stampSlots q n (k + 1)
    | .fault s _ => (s, k, true)
    | .hold s => (s, k, false)

/-- The stamps of an accepted CREATE from slot `k` on. A stamp that a pull holds leaves BUSY set, and the command goes on in the next cycle; one
that meets a translation fault gives the slots back (R281). -/
def State.stampQueue (s : State) (n : Nat) (q : Queue) (k : Nat) : State :=
  match s.stampSlots q (q.slots - k) k with
  | (s, _, true) => (s.addQslots q.ctx (-(q.slots : Int))).queueResult n q resMalformed
  | (s, k, false) =>
    if k < q.slots then (s.queueResult n q busyBit).at_ (s.cycle + 1) .queueCreate { Args.none with a := n, b := k, flag := true }
    else
      s.queueResult n
        { Queue.zero with
          state := .active, base := q.base, logSize := q.logSize, qflags := q.qflags, ctx := q.ctx, intf := q.intf, qsel := q.qsel,
          charged := true, life := q.life + 1 } resOk

/-- The checks of CREATE in their order; QSLOTSUSED rises on acceptance, and the stamps follow. -/
def State.createQueue (s : State) (n : Nat) (q : Queue) : State :=
  if q.state ≠ .free then s.queueResult n q resBadstate
  else if !s.descriptorOk q then s.queueResult n q resMalformed
  else if !s.bindOk n q then s.queueResult n q resBadbind
  else if !s.fits 0x2C 4 s.effQslots q.slots (s.ctxPath q.ctx) then s.queueResult n q resNoresource
  else (s.addQslots q.ctx q.slots).stampQueue n q 0

/-- QUEUE_CREATE (R281): a QCMD write `c` of queue `a`; with the flag, a CREATE that BUSY holds goes on from slot `b`. -/
def execQueueCreate (s : State) : Out :=
  let n := s.args.a
  if s.args.flag then s.need n 98304 (if (s.queue n).busy then s.stampQueue n (s.queue n) s.args.b else s)
  else s.qcmd n s.args.c 1 fun q => s.createQueue n q

/-- What stands in `ctx` of a queue whose context is destroyed: no value of the 16-bit field. -/
def noCtx : Nat := 2 ^ 16

/-- CTX of the descriptor. -/
def Queue.ctxField (q : Queue) : Nat := if q.ctx = noCtx then q.regCtx else q.ctx

/-- A queue descriptor (R280); its RES0 bits read as zero (R6). -/
def Queue.descriptor (q : Queue) : List Byte :=
  natBytes (q.base % 2 ^ 57) 8 ++ natBytes q.logSize 1 ++ natBytes (q.qflags % 2 ^ 5) 1 ++ natBytes q.ctxField 2 ++
    natBytes (q.intf % 2 ^ 12 + bitsOf q.intf 15 1 * 2 ^ 15) 2 ++ natBytes q.qsel 1 ++ natBytes 0 1 ++
    natBytes q.wridx 8 ++ natBytes q.rdidx 8 ++ natBytes q.doneReg 8 ++ natBytes q.statusWord.toNat 8 ++ natBytes 0 8 ++ natBytes q.qres 8

/-- The slots of a queue return to their budgets. -/
def State.returnSlots (s : State) (q : Queue) : State := if q.charged then s.addQslots q.ctx (-(q.slots : Int)) else s

/-- A queue record becomes FREE and its slots return. -/
def State.freeQueue (s : State) (n : Nat) (q : Queue) : State :=
  (s.returnSlots q).queueResult n
    { Queue.zero with base := q.base, logSize := q.logSize, qflags := q.qflags, ctx := q.ctxField, intf := q.intf, qsel := q.qsel, life := q.life } resOk

/-- QUEUE_DESTROY (R281). -/
def execQueueDestroy (s : State) : Out :=
  let n := s.args.a
  s.qcmd n s.args.c 2 fun q =>
    if (q.state = .active ∨ q.state = .error) ∧ q.doneReg = q.wridx ∧ q.pushes = 0 then s.freeQueue n q
    else s.queueResult n q resBadstate

/-- QUEUE_RESET (R281). -/
def execQueueReset (s : State) : Out :=
  let n := s.args.a
  s.qcmd n s.args.c 3 fun q =>
    if q.state = .error then s.queueResult n { q with state := .active, revoked := false } resOk else s.queueResult n q resBadstate

/-! ### Interfaces -/

def State.setInterface (s : State) (n : Nat) (x : Interface) : State := { s with interfaces := put s.interfaces n x }

/-- INTERFACE_BIND (R290): interface `a`. -/
def execInterfaceBind (s : State) : Out :=
  let n := s.args.a
  let x := s.interface n
  s.needHost n 4096 (
    if x.state ≠ 0 then s.setInterface n { x with ires := resBadstate }
    else if !s.ctxLive x.ctx || ((find s.contexts x.ctx).map (·.pasid)) != some x.pasid then s.setInterface n { x with ires := resMalformed }
    else if x.iflags.testBit 0 && !s.ctxHvpriv x.ctx then s.setInterface n { x with ires := resBadbind }
    else s.setInterface n { x with state := 1, ires := resOk, bound := (x.ctx, x.pasid, x.iflags.testBit 0) })

/-- An interface is cut off: no interrupt entry is valid, its host queues enter ERROR. -/
def State.revokeInterface (s : State) (n : Nat) (x : Interface) : State :=
  let s := s.setInterface n { x with state := 2, irq := x.irq.map (· &&& 0x7FFFFFFF) }
  let qs := (s.queues.filter fun e => e.2.state != .free && e.2.hostq && e.2.iface == n).map (·.1)
  (qs.foldl (fun s q => s.enterError q true) s).at_ s.cycle .interfaceRevoked { Args.none with a := n }

/-- INTERFACE_REVOKE (R290). -/
def execInterfaceRevoke (s : State) : Out :=
  let n := s.args.a
  let x := s.interface n
  s.needHost n 4096 (if x.state = 1 then s.revokeInterface n { x with ires := resOk } else s.setInterface n { x with ires := resBadstate })

/-- INTERFACE_RELEASE (R290). -/
def execInterfaceRelease (s : State) : Out :=
  let n := s.args.a
  let x := s.interface n
  let used := s.queues.any fun e => e.2.state != .free && e.2.iface == n
  s.needHost n 4096 (
    if x.state = 3 ∧ !used then s.setInterface n { x with state := 0, ires := resOk, bound := (0, 0, false) }
    else s.setInterface n { x with ires := resBadstate })

/-- INTERFACE_REVOKED (R290): no packet that had begun is left at the interface's host queues. -/
def execInterfaceRevoked (s : State) : Out :=
  let n := s.args.a
  let x := s.interface n
  let busy := s.queues.any fun e => e.2.state != .free && e.2.hostq && e.2.iface == n && e.2.packets.any fun p => !p.waiting
  s.need n 4096 (if x.state = 2 ∧ !busy then s.setInterface n { x with state := 3 } else s)

end Sys2Proof.Machine
end

