-- ==== Sys2Proof/Machine/Packets.lean ====
section
/-! DEFINITION. The effects of data packets and of the ordering kinds (spec/08_matrix_copy.md R233-R240; spec/15_page.md R350, R359). -/

namespace Sys2Proof.Machine

/-! ### Moving data -/

/-- What a packet's accesses come to: all made, a fault at a byte, or a wait there, with what has been read and not yet written; or
nothing, as the packet waits for earlier ones; or, as a network port is busy, the rest later (R45). -/
inductive Moved where
  | done (s : State)
  | fault (s : State) (at_ : Nat) (f : TFault) (write : Bool) (data : List Byte)
  | hold (s : State) (at_ : Nat) (data : List Byte)
  | later (s : State) (at_ : Nat) (data : List Byte)
  | idle (s : State)

/-- Bytes to the end of the 64-byte granule that a location lies in. -/
def Loc.room : Loc → Nat
  | .gva a => 64 - a % 64
  | .place _ _ _ o _ => 64 - o % 64
def Loc.imem : Loc → Bool
  | .gva _ => false
  | .place _ _ _ _ i => i

/-- The granule of device memory that a location lies in. -/
def Loc.granule : Loc → Option Nat
  | .gva a => some (a / 64)
  | .place _ _ _ _ _ => none

/-- An access at a location, in the granule of the one before it or not. -/
def Engine.at_ (e : Engine) (l : Loc) (last : Option Nat) : Engine := { e with again := l.granule.isSome && l.granule == last }

/-- The location `k` bytes on. -/
def Loc.plus : Loc → Nat → Loc
  | .gva a, k => .gva ((a + k) % 2 ^ 57)
  | .place rel x y o i, k => .place rel x y (o + k) i

/-- Whether a write would wait at a place now: its group is switched, or `edge`, its massif's edge port holds it (R320, R379). -/
def State.edgeHolds (s : State) (e : Engine) : Loc → Option Nat
  | .gva _ => none
  | .place rel x y _ _ =>
    match s.resolve e rel x y with
    | .tile p => if p.module == s.globals.modIdx && (s.powerOf (massifOf p.tile)).holds then some (massifOf p.tile) else none
    | _ => none
def State.wouldHold (s : State) (e : Engine) (l : Loc) : Bool :=
  (s.edgeHolds e l).isSome || match l with
    | .gva _ => false
    | .place rel x y _ _ => match s.resolve e rel x y with
      | .wait => true
      | _ => false

/-- The tile of this module and the banks that an access of at most a granule enters at a network port (R45). -/
def State.portOf (s : State) (e : Engine) (l : Loc) (n : Nat) : Option (Nat × List Nat) :=
  match l with
  | .place rel x y o false =>
    match s.resolve e rel x y with
    | .tile p => if p.module = s.globals.modIdx then some (p.tile, spanBanks o n) else none
    | _ => none
  | _ => none
def State.portBusy (s : State) (e : Engine) (n : Nat) (l : Loc) : Bool :=
  (s.portOf e l n).any fun x => !(s.getTile x.1).portFree s.cycle x.2
def State.usePort (e : Engine) (n : Nat) (s : State) (l : Loc) : State :=
  match s.portOf e l n with
  | some (t, bs) => s.setTile t ((s.getTile t).takePort s.cycle bs)
  | none => s

/-- A packet's write takes its place among those held at the edge ports of massifs (R379). -/
def State.parkWrite (s : State) (e : Engine) (ds : List Loc) : State :=
  match e.packet with
  | none => s
  | some (q, i) =>
    let park := fun (l : List (Nat × EdgeItem)) (m : Nat) => if l.contains (m, .packet q i) then l else l ++ [(m, .packet q i)]
    { s with parkedAtEdge := (ds.filterMap (s.edgeHolds e)).foldl park s.parkedAtEdge }

def State.writeAll (s : State) (e : Engine) (bs : List Byte) : List Loc → Acc Unit
  | [] => .ok s ()
  | l :: r => (s.writeLoc e l bs).bind fun s _ => s.writeAll e bs r

/-- A transfer of `total` bytes in runs of `unit`: source and destinations of byte `b` of run `i`. -/
structure Transferring where
  total : Nat
  unit : Nat
  src : Option (Nat → Nat → Loc)
  pattern : Nat → Byte
  dst : Nat → Nat → List Loc

/-- The places of the transfer's byte `p`. -/
def Transferring.dstAt (x : Transferring) (p : Nat) : List Loc := x.dst (p / x.unit) (p % x.unit)
def Transferring.srcAt (x : Transferring) (p : Nat) : Loc :=
  match x.src with
  | some f => f (p / x.unit) (p % x.unit)
  | none => .gva 0

/-- The first number from `k` on, of at most `n` tried, that fails a test. -/
def stretch (ok : Nat → Bool) (k : Nat) : Nat → Nat
  | 0 => k
  | n + 1 => if ok k then stretch ok (k + 1) n else k

/-- How many bytes from `p` on the source holds one after the other in one granule. -/
def Transferring.sourcePiece (x : Transferring) (p : Nat) : Nat :=
  let l := x.srcAt p
  stretch (fun k => decide (x.srcAt (p + k) = l.plus k)) 1 (min l.room (x.total - p) - 1)

/-- How many bytes from `p` on every destination takes one after the other in one granule; an instruction memory takes whole bundles (R235). -/
def Transferring.piece (x : Transferring) (p : Nat) : Nat :=
  let ds := x.dstAt p
  let room := ds.foldl (fun n l => min n l.room) (if ds.any Loc.imem then 32 else 64)
  stretch (fun k => decide (x.dstAt (p + k) = ds.map (·.plus k))) 1 (min room (x.total - p) - 1)

/-- The transfer from byte `p` on. A granule of a stretch of the source is read once and whole, one of a destination is written once and
whole, after all of its data has been read (R242, R252, R350). `buf` is what has been read from byte `p` on and is not yet written, which
a packet that stops keeps (R351); `rd` and `wr` are the granules of the accesses before. -/
def State.transferFrom (s : State) (e : Engine) (x : Transferring) : Nat → Nat → List Byte → Option Nat → Option Nat → Moved
  | 0, _, _, _, _ => .done s
  | fuel + 1, p, buf, rd, wr =>
    if x.total ≤ p then .done s
    else
      let n := x.piece p
      if x.src.isSome && decide (buf.length < n) then
        let q := p + buf.length
        let l := x.srcAt q
        if s.portBusy e (x.sourcePiece q) l then .later s p buf else
        match s.readLoc (e.at_ l rd) l (x.sourcePiece q) with
        | .hold s => .hold s p buf
        | .fault s f => .fault s p f false buf
        | .ok s bs => (State.usePort e (x.sourcePiece q) s l).transferFrom e x fuel p (buf ++ bs) l.granule wr
      else
        let ds := x.dstAt p
        let bs := if x.src.isSome then buf.take n else (List.range n).map fun k => x.pattern (p + k)
        if ds.any (s.wouldHold e) then .hold (s.parkWrite e ds) p buf
        else if ds.any (s.portBusy e n) then .later s p buf
        else
          match s.writeAll (e.at_ (ds.headD (.gva 0)) wr) bs ds with
          | .hold s => .hold s p buf
          | .fault s f => .fault s p f true buf
          | .ok s _ => (ds.foldl (State.usePort e n) s).transferFrom e x fuel (p + n) (buf.drop n) rd (ds.head?.bind Loc.granule)

def State.transfer (s : State) (e : Engine) (x : Transferring) (p : Packet) : Moved :=
  s.transferFrom e x (2 * (x.total - p.next) + 1) p.next p.data none none

/-! ### Executing a packet -/

def State.onPacket (s : State) (qn i : Nat) (f : Packet → Packet) : State :=
  s.onQueue qn fun q => { q with packets := q.packets.map fun p => if p.index = i then f p else p }

/-- The launches of a queue whose check may have been held by an earlier packet are looked at again (R233, R298). -/
def State.pokeChecks (s : State) (qn : Nat) : State :=
  (s.launches.filter fun e => e.2.queue == qn && e.2.state == .check).foldl
    (fun s e => s.at_ s.cycle .launchCheck { Args.none with a := e.1 }) s

/-- A packet's effect is done: its completion follows. -/
def State.packetDone (s : State) (qn i : Nat) (failed : Bool) : State :=
  (s.onPacket qn i fun p => { p with complete := true, failed := failed, parked := false, held := false, data := [] }).pokeChecks qn

/-- Later packets of a parked packet's class wait; none of them has made an access, since effects follow index order (R233, R350). A LAUNCH that
has begun goes on as a launch, whose check waits for the packets before it (R298). -/
def Packet.behind (p r : Packet) : Packet :=
  if p.index < r.index ∧ r.cls = p.cls ∧ !r.complete ∧ pkKind r.bytes ≠ 0x10 then { r with waiting := true } else r

/-- A packet stops at a byte, with what it has read, and its class waits (R320, R350). -/
def State.packetStops (s : State) (qn : Nat) (p : Packet) (at_ : Nat) (data : List Byte) (parked : Bool) : State :=
  (s.onPacket qn p.index fun p => { p with parked := parked, held := !parked, next := at_, data := data }).onQueue qn fun q =>
    { q with packets := q.packets.map p.behind }

/-- A packet meets a fault: it parks, and its class waits; or it completes with error, with a record (R350, R349). -/
def State.packetFault (s : State) (qn : Nat) (q : Queue) (p : Packet) (at_ : Nat) (f : TFault) (write : Bool) (data : List Byte) : State :=
  let s := if f.reason = 0 then s else s.post ((Record.ofPacket qn q p.index p.cls 0).ofFault f write)
  if f.parked then s.packetStops qn p at_ data true else s.packetDone qn p.index true

/-- Every earlier packet of its class is complete (R233); a MARK holds nothing back (R240). -/
def Queue.turn (q : Queue) (p : Packet) : Bool :=
  q.packets.all fun r => decide (p.index ≤ r.index) || r.complete || r.cls != p.cls || pkKind r.bytes == 0x08

/-- A packet that has begun, is not parked and is next in its class: queue, record, packet. -/
def State.running (s : State) (kind : Nat → Bool) : Option (Nat × Queue × Packet) :=
  let qn := s.args.a
  match find s.queues qn with
  | none => none
  | some q =>
    match q.packets.find? (fun p => p.index == s.args.b) with
    | none => none
    | some p =>
      if kind (pkKind p.bytes) && !p.waiting && !p.parked && !p.complete && q.turn p then some (qn, q, p) else none

def engineOf (qn : Nat) (q : Queue) (p : Packet) : Engine :=
  { ctx := q.ctx, massif := qn / 1024, group := p.pusher.map (·.1), packet := some (qn, p.index) }

/-- The event of a data packet's effect. -/
def dataInstr (bs : List Byte) : Instr :=
  match pkKind bs with
  | 0x01 => if pkVer bs = 2 then .copyV2 else .copyV1
  | 0x02 => .tile2d
  | 0x04 => .mcast2d
  | 0x05 => .fill
  | _ => .signal

/-- A packet goes on in the next cycle, with what it has read. -/
def State.packetLater (s : State) (qn : Nat) (p : Packet) (at_ : Nat) (data : List Byte) : State :=
  (s.onPacket qn p.index fun p => { p with next := at_, data := data }).at_ (s.cycle + 1) (dataInstr p.bytes)
    { Args.none with a := qn, b := p.index }

/-- The data event of a kind: packet `b` of queue `a` makes its accesses. -/
def State.dataEvent (s : State) (kind : Nat) (ver : Option Nat) (run : State → Engine → Packet → Moved) : Out :=
  s.need s.args.a 98304 (
    match s.running (· == kind) with
    | none => s
    | some (qn, q, p) =>
      if ver.isSome && ver != some (pkVer p.bytes) then s
      else
        match run s (engineOf qn q p) p with
        | .done s => s.packetDone qn p.index false
        | .hold s n d => s.packetStops qn p n d false
        | .later s n d => s.packetLater qn p n d
        | .idle s => s
        | .fault s n f w d => s.packetFault qn q p n f w d)

/-- The endpoints of a packet, checked when it began. -/
def pkSrc (p : Packet) : Endp := (endpoint (fieldOf p.bytes 8 8)).getD ⟨0, false, 0, 0, 0, 0⟩
def pkDst (p : Packet) : Endp := (endpoint (fieldOf p.bytes 16 8)).getD ⟨0, false, 0, 0, 0, 0⟩

/-- COPY_V1 (R237). -/
def execCopyV1 (s : State) : Out :=
  s.dataEvent 0x01 (some 1) fun s e p =>
    let n := fieldOf p.bytes 24 8
    s.transfer e
      { total := n, unit := n, src := some fun _ b => (pkSrc p).loc b, pattern := fun _ => 0, dst := fun _ b => [(pkDst p).loc b] } p

/-- COPY_V2 (R237): runs of LEN0 bytes over three indices, the first the fastest. -/
def execCopyV2 (s : State) : Out :=
  s.dataEvent 0x01 (some 2) fun s e p =>
    let n := fieldOf p.bytes 24 4
    let ds := copyDims p.bytes
    let index := fun (i : Nat) => (ds.foldl (fun (acc : List (Dim × Nat) × Nat) d => (acc.1 ++ [(d, acc.2 % d.n)], acc.2 / d.n)) ([], i)).1
    let off := fun (f : Dim → Int) i => ((index i).map fun x => f x.1 * x.2).foldl (· + ·) 0
    s.transfer e
      { total := n * (ds.map (·.n)).foldl (· * ·) 1, unit := n, src := some fun i b => (pkSrc p).loc (off Dim.ss i + b),
        pattern := fun _ => 0, dst := fun i b => [(pkDst p).loc (off Dim.ds i + b)] } p

/-- TILE2D (R238). -/
def execTile2d (s : State) : Out :=
  s.dataEvent 0x02 none fun s e p =>
    let t := tile2d p.bytes
    s.transfer e
      { total := t.th * t.tw * t.es, unit := t.es
        src := some fun k b => (pkSrc p).loc ((clampTo (t.row0 + k / t.tw) t.h * t.sp + clampTo (t.col0 + (k % t.tw : Nat)) t.w * t.es + b : Nat))
        pattern := fun _ => 0
        dst := fun k b => [(pkDst p).loc ((k / t.tw * t.dp + k % t.tw * t.es + b : Nat))] } p

/-- MCAST2D (R239): each source granule is read once. -/
def execMcast2d (s : State) : Out :=
  s.dataEvent 0x04 none fun s e p =>
    let n := fieldOf p.bytes 32 4
    let d := pkDst p
    let ts := mcastTiles p.bytes d
    s.transfer e
      { total := if ts.isEmpty then 0 else n, unit := n, src := some fun _ b => (pkSrc p).loc b, pattern := fun _ => 0,
        dst := fun _ b => ts.map fun t => Endp.loc { d with x := t.1, y := t.2 } b } p

/-- FILL (R237). -/
def execFill (s : State) : Out :=
  s.dataEvent 0x05 none fun s e p =>
    let n := fieldOf p.bytes 24 8
    s.transfer e
      { total := n, unit := n, src := none, pattern := fun k => (p.bytes.drop (8 + k % 8)).headD 0, dst := fun _ b => [(pkDst p).loc b] } p

/-- Every earlier packet of the queue is complete (R240). -/
def Queue.earlierDone (q : Queue) (i : Nat) : Bool := q.packets.all fun p => decide (i ≤ p.index) || p.complete

/-- The event of an ordering kind: it waits for every earlier packet of its queue. -/
def State.orderEvent (s : State) (kind : Nat) (run : State → Engine → Packet → Moved) : Out :=
  s.dataEvent kind none fun s' e p =>
    match find s.queues s.args.a with
    | some q => if q.earlierDone p.index then run s' e p else .idle s'
    | none => .idle s'

/-- PACKET_FENCE (R240). -/
def execPacketFence (s : State) : Out := s.orderEvent 0x07 fun s _ _ => .done s

/-- MARK (R240). -/
def execMark (s : State) : Out := s.orderEvent 0x08 fun s _ _ => .done s

/-- SIGNAL (R240). -/
def execSignal (s : State) : Out :=
  s.orderEvent 0x09 fun s e p =>
    s.transfer e { total := 8, unit := 8, src := none, pattern := fun k => (p.bytes.drop (8 + k)).headD 0,
                   dst := fun _ b => [(pkDst p).loc b] } p

/-- A packet whose write was held goes on (R379). -/
def State.goOn (s : State) (qn i : Nat) : State :=
  let bs := (((find s.queues qn).bind fun q => q.packets.find? fun p => p.index == i).map (·.bytes)).getD []
  let u := { s with args := { Args.none with a := qn, b := i } }
  let r : Out := match pkKind bs with
    | 0x01 => if pkVer bs = 1 then execCopyV1 u else execCopyV2 u
    | 0x02 => execTile2d u
    | 0x04 => execMcast2d u
    | 0x05 => execFill u
    | 0x09 => execSignal u
    | _ => .next u
  match r with
  | .next t => { t with args := s.args }
  | _ => s

/-- The pages of a PREFETCH from byte `p` on are translated. -/
def State.prefetchFrom (s : State) (e : Engine) (va total : Nat) : Nat → Nat → Moved
  | 0, _ => .done s
  | fuel + 1, p =>
    if total ≤ p then .done s
    else
      let a := (va + p) % 2 ^ 57
      match s.translate e.ctx a false with
      | .hold s => .hold s p []
      | .fault s f => .fault s p f false []
      | .ok s _ => s.prefetchFrom e va total fuel (p + (4096 - a % 4096))

/-- PREFETCH (R240): translates its range and moves nothing. -/
def execPrefetch (s : State) : Out :=
  s.dataEvent 0x0B none fun s e p =>
    let n := fieldOf p.bytes 16 8
    s.prefetchFrom e (pkSrc p).va n (n / 4096 + 2 - p.next / 4096) p.next

/-! ### Table entries by path (R352, R359) -/

/-- The address of the entry at a level for an input address, following tables in memory. A missing table, or a leaf above, is its
level with the entry there; a table address that names no memory, or an error in a table read, is a fault (R21, R345). -/
inductive Path where
  | entry (s : State) (addr : Nat)
  | missing (level v : Nat)
  | fault (s : State) (f : TFault)
  | hold (s : State)

/-- A fault that no repair of the tables removes. -/
def TFault.hard (f : TFault) : Bool := f.reason == 0x07 || f.reason == 0x09 || f.reason == 0x0A

def State.pathFrom (s : State) (c stage a target : Nat) : Nat → Nat → Path
  | table, level =>
    let at_ : Acc Nat :=
      if stage = 1 then s.stage2 c a (table + entryOffset level a) false else .ok s (table + entryOffset level a)
    match at_ with
    | .hold s => .hold s
    | .fault s f => if f.hard then .fault s f else .missing level 0
    | .ok s addr =>
      match s.walkAt c 0 a addr with
      | .hold s => .hold s
      | .fault s f => .fault s f
      | .ok s _ =>
        if level = target then .entry s addr
        else
          let v := s.dpaNat addr 8
          if v % 4 ≠ 1 ∨ entryMalformed stage level v then .missing level v
          else
            match level with
            | 0 => .missing 0 v
            | l + 1 => s.pathFrom c stage a target (entryAddr v) l
  termination_by structural _ level => level

def State.path (s : State) (c : Nat) (x : Context) (stage a target : Nat) : Path :=
  if stage = 1 then (if x.xlat.s1root = 0 then .missing 4 0 else s.pathFrom c 1 a target x.xlat.s1root 4)
  else if x.xlat.s2root = 0 then .missing 3 0
  else s.pathFrom c 2 a target x.xlat.s2root 3

/-- Cached copies of an entry that changes are gone, and those of the entries below it (R346). -/
def State.dropCached (s : State) (c stage level input addr : Nat) : State :=
  let base := input / pageSize level * pageSize level
  let below := fun (e : Cached) =>
    e.ctx == c && e.stage == stage && decide (e.level ≤ level) && decide (base ≤ e.input) && decide (e.input < base + pageSize level)
  { s with tlb := s.tlb.filter fun e => e.addr != addr && !below e }

/-- HBM4E bytes that an entry of stage 2 maps (R352). -/
def State.entryHbm (s : State) (stage level v : Nat) : Nat :=
  if stage = 2 ∧ (v % 4 = 3 ∨ v % 4 = 2) then
    match s.dpa (entryAddr v) with
    | .hbm _ _ => pageSize level
    | _ => 0
  else 0

/-- The granules of a range of own memory that hold an error are read (R377): the first of them that is lost. -/
def State.readErrors (s : State) (a n : Nat) : State × Option Nat :=
  let o := s.ownBase a
  let hit := (s.devEcc.map (·.1)).filter fun g => decide (o / 64 ≤ g) && decide (64 * g < o + n)
  (hit.foldl (fun (s, lost) g => let (s, e) := s.devEccAt (64 * g); (s, if e == 2 then lost ++ [a - o + 64 * g] else lost))
    (s, ([] : List Nat))).map id (·.head?)

/-- The leaves of a page: 16 in a block that forms a 64 KiB page (R343), and the size of the page. -/
def State.pageLeaves (s : State) (level addr v : Nat) : List Nat × Nat :=
  if level = 0 ∧ v.testBit 5 = true ∧ (s.blockEntries addr).all (fun x => x.testBit 5 && x % 4 == 3) = true then
    ((List.range 16).map fun i => addr / 128 * 128 + 8 * i, 2 ^ 16)
  else ([addr], pageSize level)

/-- A page is copied, and its leaves name the new frame (R359); a frame that cannot be reached, or is lost, is a fault, fatal to the packet's
domain (R374). -/
def State.movePage (s : State) (pkCtx c gpa level addr v frame : Nat) : Acc Unit :=
  (s.blockAt c 0 gpa level addr v).bind fun s _ =>
  let (leaves, size) := s.pageLeaves level addr v
  let from_ := entryAddr v / size * size
  ((s.reachAll 0 from_ size).bind fun s _ => s.reachAll 0 frame size).bind fun s _ =>
    match s.readErrors from_ size with
    | (s, some g) => .fault (s.fatalDomain pkCtx) (.plain 0x0B 0 0 g)
    | (s, none) =>
      let s := s.dpaWrite frame (s.dpaBytes from_ size)
      .ok (leaves.foldl (fun s a =>
        let v := s.dpaNat a 8
        (s.dpaWrite a (natBytes (v - entryAddr v + frame + entryAddr v % size) 8)).dropCached c 2 level gpa a) s) ()

/-- MIGRATE (R359): packet `b` of queue `a` moves a PRESENT page. -/
def execMigrate (s : State) : Out :=
  s.need s.args.a 98304 (
    match s.running (· == 0x0A) with
    | none => s
    | some (qn, q, p) =>
      let gpa := fieldOf p.bytes 8 8
      let c := fieldOf p.bytes 16 2
      let level := fieldOf p.bytes 18 1
      let frame := fieldOf p.bytes 24 8
      let fail := fun (s : State) (f : TFault) => s.packetFault qn q p 0 { f with parked := false } false []
      let absent := fun (s : State) (l v : Nat) =>
        fail s { reason := if v % 4 = 0 ∨ !entryMalformed 2 l v then 0x04 else 0x06, stage2 := true, parked := false, level := l, gva := 0,
                 gpa := gpa, detail := v }
      if 1024 ≤ c ∨ 2 < level ∨ gpa % pageSize level ≠ 0 ∨ frame % pageSize level ≠ 0 ∨ 2 ^ 48 ≤ gpa then fail s (.plain 0x40 0 gpa 0)
      else
        match find s.contexts c with
        | none => absent s 3 0
        | some x =>
          match s.path c x 2 gpa level with
          | .hold s => s
          | .missing l v => absent s l v
          | .fault s f => fail s f
          | .entry s addr =>
            let v := s.dpaNat addr 8
            let (leaves, size) := s.pageLeaves level addr v
            if v % 4 ≠ 3 ∨ entryMalformed 2 level v then absent s level v
            else if gpa % size ≠ 0 ∨ frame % size ≠ 0 then fail s (.plain 0x40 0 gpa 0)
            else
              match s.dpa frame with
              | .bad => fail s (.plain 0x07 0 gpa frame)
              | _ =>
                let old := leaves.length * s.entryHbm 2 level v
                let new := leaves.length * s.entryHbm 2 level (frame + 3)
                if old < new ∧ !s.fits 0x30 8 s.effHbm new (s.ctxPath c) then s.packetDone qn p.index true
                else
                  match s.movePage q.ctx c gpa level addr v frame with
                  | .ok t _ => (t.addHbm c ((new : Int) - old)).packetDone qn p.index false
                  | .fault t f => fail t f
                  | .hold t => t)

end Sys2Proof.Machine
end

