-- ==== Sys2Proof/Machine/Page.lean ====
section
/-! DEFINITION. Command packets, and the commands and pulls of the translation tables (spec/10_context.md R264-R266;
spec/15_page.md R341-R360). -/

namespace Sys2Proof.Machine

/-! ### Commands (R264-R266) -/

def stOk : Nat := 0x00
def stBadstate : Nat := 0x01
def stNoresource : Nat := 0x02
def stStale : Nat := 0x03
def stUnattested : Nat := 0x04
def stAuth : Nat := 0x05
def stHomeunreach : Nat := 0x06
def stBadextent : Nat := 0x07
def stExhausted : Nat := 0x08
def stToosmall : Nat := 0x09
def stMalformed : Nat := 0x0A

/-- What a command comes to: done with a status, still at work, or ended by an access that fails (R21, R349). -/
inductive Cmd where
  | done (s : State) (code detail : Nat)
  | later (s : State)
  | fault (s : State) (f : TFault)

/-- A command goes on in a later event, at step `n`. -/
def State.steps (s : State) (p : Packet) (n : Nat) : Cmd := .later (s.onPacket s.args.a p.index fun r => { r with next := n })

/-- A command asks other modules and goes on at step `n` with their answer, for which it waits 8,000,000 cycles (R266, R401), and with what it
has read before. -/
def State.asks (s : State) (p : Packet) (n : Nat) (ms : List Message) (data : List Byte := []) : Cmd :=
  let d := s.cycle + 8000000
  let s := { s with sent := s.sent ++ ms }.onPacket s.args.a p.index fun r => { r with next := n, deadline := d, data := data }
  .later (s.at_ d .homeunreach { Args.none with a := s.args.a, b := p.index })

/-- The answer of another module is OK, or one of the refusals that the command may give, which `undo` follows; nothing else is one. -/
def State.answered (s : State) (codes : List Nat) (undo : State → State) (ok : Cmd) : Cmd :=
  let k := s.args.peer.status.toNat
  if k = 0 then ok else if codes.contains k then .done (undo s) k 0 else .later s

/-- Data that a command reads (R21, R365, R377): an address without memory, a port that carries nothing, or an uncorrectable error, which is
fatal to the domain of the packet's context (R374), ends it. -/
def State.commandReads (s : State) : List (Nat × Nat) → Acc Unit
  | [] => .ok s ()
  | (a, n) :: r =>
    (s.reachAll 0 a n).bind fun s _ =>
      match s.readErrors a n with
      | (s, some g) => .fault (s.fatalDomain (((find s.queues s.args.a).map (·.ctx)).getD 0)) (.plain 0x0B 0 0 g)
      | (s, none) => s.commandReads r

/-- A command goes on with what it has read. -/
def State.reading (s : State) (l : List (Nat × Nat)) (k : State → Cmd) : Cmd :=
  match s.commandReads l with
  | .ok s _ => k s
  | .fault s f => .fault s f
  | .hold s => .later s

def cmdCtx (bs : List Byte) : Nat := fieldOf bs 16 2
def cmdFlags (bs : List Byte) : Nat := fieldOf bs 18 1

/-- The command packet that may execute: commands of one queue go one at a time in index order (R265). -/
def State.commandPacket (s : State) (kind : Nat → Bool) : Option (Nat × Queue × Packet) :=
  match s.running kind with
  | none => none
  | some (qn, q, p) =>
    if q.packets.all (fun r => decide (p.index ≤ r.index) || r.complete || decide (pkKind r.bytes < 0x20)) then some (qn, q, p) else none

/-- The step of a command that has taken effect and whose status word waits for its port, in the packet's data. -/
def statusHeld : Nat := 2 ^ 32

/-- A command completes: its status word is written, and DONE may pass it. A status address that names no memory, or that needs a port which
carries nothing, is an access that fails (R21, R365); one whose port carries nothing yet waits (R364, R367). -/
def State.finishCommand (s : State) (qn : Nat) (p : Packet) (code detail : Nat) : State :=
  let a := fieldOf p.bytes 8 8
  let fails := fun (s : State) (reason detail : Nat) =>
    let s := match find s.queues qn with
      | some q => s.post { Record.ofPacket qn q p.index p.cls reason with detail := detail }
      | none => s
    s.packetDone qn p.index true
  if a = 0 then s.packetDone qn p.index false
  else if s.dpa a = .bad then fails s 0x07 a
  else
    match s.reach 0 a with
    | .fault s f => fails s f.reason f.detail
    | .hold s => s.onPacket qn p.index fun r => { r with next := statusHeld, data := natBytes (code + detail * 256) 8 }
    | .ok s _ => (s.dpaWrite a (natBytes (code + detail * 256) 8)).packetDone qn p.index false

/-- A command's event: packet `b` of queue `a` with a kind and a selection of its FLAGS. Commands are accepted from READY on (R384). -/
def State.command (s : State) (kind : Nat) (sel : List Byte → Bool) (run : State → Packet → Cmd) : Out :=
  s.need s.args.a 98304 (
    match s.globals.boot, s.commandPacket (· == kind) with
    | 7, some (qn, q, p) =>
      if !sel p.bytes then s
      else if p.next = statusHeld then s.finishCommand qn p (fieldOf p.data 0 1) (fieldOf p.data 1 7)
      else if pkSemen p.bytes || fieldOf p.bytes 19 1 != 0 then s.finishCommand qn p stMalformed 0
      else
        match run s p with
        | .later s => s
        | .done s code detail => s.finishCommand qn p code detail
        | .fault s f => s.packetFault qn q p 0 f false []
    | _, _ => s)

/-- The context of a command that needs one: out of range MALFORMED, FREE BADSTATE. -/
def State.withCtx (s : State) (bs : List Byte) (ok : Bool) (k : Nat → Context → Cmd) : Cmd :=
  let c := cmdCtx bs
  if !ok || decide (1024 ≤ c) then .done s stMalformed 0
  else
    match find s.contexts c with
    | none => .done s stBadstate 0
    | some x => if x.state = .free then .done s stBadstate 0 else k c x

/-! ### MAP (R352) -/

/-- PULLCOUNT changes; at zero the source is told (R360). -/
def State.addPull (s : State) (c : Nat) (n : Int) : State :=
  match find s.contexts c with
  | none => s
  | some x =>
    let k := ((x.xlat.pullCount : Int) + n).toNat
    let s := s.onCtx c fun x => { x with xlat := { x.xlat with pullCount := k } }
    if k = 0 ∧ x.xlat.pullCount ≠ 0 then { s with sent := s.sent ++ [.toModule x.xlat.pullSrc "pulled" x.lineage 0] } else s

def isPull (stage v : Nat) : Nat := if stage = 2 ∧ v % 4 = 2 then 1 else 0

/-- One 8-byte entry write with its budget (R352, R347): the old page is given back first. -/
def State.setEntry (s : State) (c stage level input addr v : Nat) : Option State :=
  let old := s.dpaNat addr 8
  let s' := s.addHbm c (-(s.entryHbm stage level old : Int))
  let need := s.entryHbm stage level v
  if need ≠ 0 ∧ !s'.fits 0x30 8 s'.effHbm need (s'.ctxPath c) then none
  else
    let s' := ((s'.addHbm c need).dpaWrite addr (natBytes v 8)).dropCached c stage level input addr
    let d := (isPull stage v : Int) - isPull stage old
    some (if d = 0 then s' else s'.addPull c d)

/-- MAP_ENTRY (R352); the reserved operations are MALFORMED. -/
def execMapEntry (s : State) : Out :=
  s.command 0x20 (fun bs => decide (cmdFlags bs % 8 = 0) || decide (4 ≤ cmdFlags bs % 8)) fun s p =>
    let bs := p.bytes
    let f := cmdFlags bs
    let stage := if f.testBit 3 then 2 else 1
    let level := fieldOf bs 20 1
    let a := fieldOf bs 24 8
    let v := fieldOf bs 32 8
    let ok := decide (f % 8 = 0) && decide (f < 16) && zeroIn bs 21 24 && zeroIn bs 40 63 && decide (level ≤ (if stage = 1 then 4 else 3)) &&
      decide (a < (if stage = 1 then 2 ^ 57 else 2 ^ 48))
    s.withCtx bs ok fun c x =>
      if (if v % 4 = 0 then entryRes stage level v else entryMalformed stage level v) then .done s stMalformed level
      else
        match s.path c x stage a level with
        | .hold s => .later s
        | .missing l _ => .done s stMalformed l
        | .fault s f => .fault s f
        | .entry s addr =>
          if s.pulling.any (fun y => y.ctx == c && y.entryAddr == addr) then .later s
          else
            match s.setEntry c stage level a addr v with
            | none => .done s stNoresource 0
            | some s => .done s stOk 0

/-- MAP_RANGE (R352, R342). -/
def execMapRange (s : State) : Out :=
  s.command 0x20 (fun bs => decide (cmdFlags bs % 8 = 1)) fun s p =>
    let bs := p.bytes
    let f := cmdFlags bs
    let e : RangeEntry := { base := fieldOf bs 24 8, last := fieldOf bs 32 8, out := fieldOf bs 40 8, ctl := fieldOf bs 48 8 }
    let form := decide (e.base % 4096 = 0) && decide (e.last % 4096 = 0xFFF) && decide (e.base ≤ e.last) && decide (e.out % 4096 = 0) &&
      decide (e.last < (if f.testBit 3 then 2 ^ 48 else 2 ^ 57))
    let ok := decide (f < 16) && zeroIn bs 21 24 && zeroIn bs 56 63 && decide (e.ctl < 8) && (!e.ctl.testBit 0 || form)
    s.withCtx bs ok fun c _ =>
      let i := fieldOf bs 20 1
      .done (s.onCtx c fun x =>
        { x with xlat :=
            if f.testBit 3 then { x.xlat with s2range := put x.xlat.s2range i e } else { x.xlat with s1range := put x.xlat.s1range i e } }) stOk 0

/-- MAP_ROOTS (R352). -/
def execMapRoots (s : State) : Out :=
  s.command 0x20 (fun bs => decide (cmdFlags bs % 8 = 2)) fun s p =>
    let bs := p.bytes
    let r1 := fieldOf bs 24 8
    let r2 := fieldOf bs 32 8
    let src := fieldOf bs 40 2
    let ok := decide (cmdFlags bs = 2) && zeroIn bs 20 24 && zeroIn bs 42 63 && decide (r1 % 4096 = 0) && decide (r2 % 4096 = 0) &&
      decide (r1 < 2 ^ 48) && decide (r2 < 2 ^ 56) && (decide (src < 432) || src == 0xFFFF)
    s.withCtx bs ok fun c _ =>
      let s := s.onCtx c fun x => { x with xlat := { x.xlat with s1root := r1, s2root := r2, pullSrc := src } }
      .done { s with tlb := s.tlb.filter fun e => e.ctx != c } stOk 0

/-- A ring is initialised (R348): the header zero, 0xFF in byte 63 of every record. In the stack of a col its own engine does it, and each
granule is counted (R279, R357). -/
def State.initRing (s : State) (c base log : Nat) : State :=
  if base = 0 then s
  else
    (List.range (2 ^ log)).foldl (fun s i => (s.countCol c (base + 64 + 64 * i)).dpaWrite (base + 64 + 64 * i + 63) [0xFF])
      ((s.countCol c base).dpaWrite base (natBytes 0 64))

/-- MAP_RINGS (R352). -/
def execMapRings (s : State) : Out :=
  s.command 0x20 (fun bs => decide (cmdFlags bs % 8 = 3)) fun s p =>
    let bs := p.bytes
    let fb := fieldOf bs 24 8
    let fl := fieldOf bs 32 1
    let mb := fieldOf bs 40 8
    let ml := fieldOf bs 48 1
    let ringOk := fun (b l : Nat) => b == 0 || (decide (b % 4096 = 0) && decide (b < 2 ^ 56) && decide (6 ≤ l) && decide (l ≤ 16))
    let there := fun (s : State) (b l : Nat) => if b = 0 then Acc.ok s () else s.reachAll 0 b (64 + 64 * 2 ^ l)
    let ok := decide (cmdFlags bs = 3) && zeroIn bs 20 24 && zeroIn bs 33 40 && zeroIn bs 49 52 && zeroIn bs 54 63 && ringOk fb fl && ringOk mb ml
    s.withCtx bs ok fun c _ =>
      match (there s fb fl).bind fun s _ => there s mb ml with
      | .hold s => .later s
      | .fault s f => .fault s f
      | .ok s _ =>
      let s := s.onCtx c fun x =>
        { x with xlat := { x.xlat with fqBase := fb, fqLog := if fb = 0 then 0 else fl, mqBase := mb, mqLog := if mb = 0 then 0 else ml,
                                       thresh := fieldOf bs 52 2 } }
      .done ((s.initRing c fb fl).initRing c mb ml) stOk 0

/-! ### UNMAP, INVALIDATE, HARVEST (R353-R355) -/

/-- UNMAP (R353). -/
def execUnmap (s : State) : Out :=
  s.command 0x21 (fun _ => true) fun s p =>
    let bs := p.bytes
    let f := cmdFlags bs
    let stage := if f.testBit 3 then 2 else 1
    let level := fieldOf bs 20 1
    let a := fieldOf bs 24 8
    let ok := decide (f % 8 = 0) && decide (f < 16) && zeroIn bs 21 24 && zeroIn bs 32 63 && decide (level ≤ (if stage = 1 then 4 else 3)) &&
      decide (a < (if stage = 1 then 2 ^ 57 else 2 ^ 48))
    s.withCtx bs ok fun c x =>
      match s.path c x stage a level with
      | .hold s => .later s
      | .missing l _ => .done s stMalformed l
      | .fault s f => .fault s f
      | .entry s addr =>
        if s.pulling.any (fun y => y.ctx == c && y.entryAddr == addr) then .later s
        else .done ((s.setEntry c stage level a addr 0).getD s) stOk 0

/-- The input addresses that a held entry covers: a leaf of a 64 KiB page stands for the block (R343). -/
def Cached.covers (e : Cached) : Nat := if e.level = 0 ∧ e.value.testBit 5 then 2 ^ 16 else pageSize e.level
def Cached.first (e : Cached) : Nat := e.input / e.covers * e.covers

/-- INVALIDATE (R354): every copy that a translation unit holds over the scope is gone. -/
def execInvalidate (s : State) : Out :=
  s.command 0x22 (fun _ => true) fun s p =>
    let bs := p.bytes
    let f := cmdFlags bs
    let scope := f % 4
    let stage := if f.testBit 3 then 2 else 1
    let a := fieldOf bs 24 8
    let n := fieldOf bs 32 8
    let ok := decide (scope < 3) && !f.testBit 2 && decide (f < 16) && zeroIn bs 20 24 && zeroIn bs 40 63 &&
      (scope != 0 || (decide (n % 4096 = 0) && decide (4096 ≤ n) && decide (n ≤ 2 ^ 48)))
    s.withCtx bs ok fun c _ =>
      let hit := fun (e : Cached) =>
        e.ctx == c && (scope == 2 || (e.stage == stage && (scope == 1 || (decide (e.first < a + n) && decide (a < e.first + e.covers)))))
      .done { s with tlb := s.tlb.filter fun e => !hit e } stOk 0

/-- What HARVEST finds for a page (R355): its bit, and the leaves whose D it clears, all 16 of a 64 KiB page. -/
structure Dirty where
  bit : Bool
  leaves : List Nat

/-- The leaves of a page with D set. -/
def State.dirtyLeaves (s : State) (level addr v : Nat) : List Nat :=
  (s.pageLeaves level addr v).1.filter fun a => (s.dpaNat a 8).testBit 4

def State.harvestFrom (s : State) (c gpa : Nat) : Nat → Nat → Acc Dirty
  | table, level =>
    let addr := table + entryOffset level gpa
    (s.walkAt c 0 gpa addr).bind fun s _ =>
      let v := s.dpaNat addr 8
      if v % 4 = 0 ∨ entryMalformed 2 level v then .ok s ⟨false, []⟩
      else if v % 4 = 1 then
        match level with
        | 0 => .ok s ⟨false, []⟩
        | l + 1 => s.harvestFrom c gpa (entryAddr v) l
      else if v % 4 = 2 then .ok s ⟨false, []⟩
      else (s.blockAt c 0 gpa level addr v).bind fun s _ => let l := s.dirtyLeaves level addr v; .ok s ⟨!l.isEmpty, l⟩
  termination_by structural _ level => level

def State.harvestPage (s : State) (c : Nat) (x : Context) (gpa : Nat) : Acc Dirty :=
  if (rangeHit x.xlat.s2range gpa).isSome then .ok s ⟨true, []⟩
  else if x.xlat.s2root = 0 then .ok s ⟨false, []⟩
  else s.harvestFrom c gpa x.xlat.s2root 3

/-- The pages of a list of GPAs. -/
def State.harvestPages (s : State) (c : Nat) (x : Context) : List Nat → Acc (List Dirty)
  | [] => .ok s []
  | g :: r => (s.harvestPage c x g).bind fun s d => (s.harvestPages c x r).bind fun s l => .ok s (d :: l)

/-- D cleared in a list of leaves, and the bits written into a bitmap. -/
def State.clearDirty (s : State) (leaves : List Nat) : State :=
  leaves.foldl (fun s addr => s.dpaWrite addr (natBytes (s.dpaNat addr 8 &&& (2 ^ 64 - 17)) 8)) s
def State.writeBits (s : State) (bm : Nat) (bits : List Bool) : State :=
  (bits.zipIdx).foldl (fun s (e, k) =>
    let b := s.dpaByte (bm + k / 8)
    let m := BitVec.ofNat 8 (2 ^ (k % 8))
    s.dpaWrite (bm + k / 8) [if e then b ||| m else b &&& ~~~m]) s

/-- HARVEST (R355): the dirty bits of a range, read and cleared. -/
def execHarvest (s : State) : Out :=
  s.command 0x23 (fun _ => true) fun s p =>
    let bs := p.bytes
    let a := fieldOf bs 24 8
    let n := fieldOf bs 32 8
    let bm := fieldOf bs 40 8
    let ok := decide (cmdFlags bs = 0) && zeroIn bs 20 24 && zeroIn bs 48 63 && decide (a % 4096 = 0) && decide (a < 2 ^ 48) &&
      decide (n % 4096 = 0) && decide (4096 ≤ n) && decide (n ≤ 2 ^ 36) && decide (bm % 8 = 0) && decide (bm < 2 ^ 56)
    s.withCtx bs ok fun c x =>
      match (s.harvestPages c x ((List.range (n / 4096)).map fun k => a + 4096 * k)).bind fun s r =>
          (s.reachAll 0 bm ((n / 4096 + 7) / 8)).bind fun s _ => .ok s r with
      | .hold s => .later s
      | .fault s f => .fault s f
      | .ok s r =>
        let bits := r.map (·.bit)
        .done ((s.clearDirty ((r.map (·.leaves)).flatten.eraseDups)).writeBits bm bits) stOk (bits.filter id).length

/-! ### FAULT_RESUME (R351) -/

/-- A launch ends with its packet (R298). -/
def State.launchEnds (s : State) (l : Launch) (n : Nat) (done : Bool) : State :=
  (s.recordLaunch l n done).packetDone l.queue l.index (!done)

/-- One parked packet resumes, or completes with error. -/
def State.resumePacket (s : State) (qn : Nat) (p : Packet) (abort : Bool) : State :=
  match s.launchOf qn p.index, abort with
  | none, false => s.onPacket qn p.index fun p => { p with parked := false }
  | some (n, _), false =>
    (s.onPacket qn p.index fun p => { p with parked := false }).at_ s.cycle .launchCheck { Args.none with a := n }
  | some (n, l), true => (s.launchEnds l n false).pokeLaunches l.ctx
  | none, true => s.packetDone qn p.index true

/-- One queue of FAULT_RESUME: the packets that `sel` names, and the queue itself when it is parked. -/
def State.resumeQueue (s : State) (qn : Nat) (abort : Bool) (sel : Packet → Bool) : State × Nat :=
  match find s.queues qn with
  | none => (s, 0)
  | some q =>
    let ps := q.packets.filter fun p => p.parked && sel p
    let s := ps.foldl (fun s p => s.resumePacket qn p abort) s
    if q.state = .faultParked then
      (if abort then s.enterError qn false else s.onQueue qn fun q => { q with state := .active }, ps.length + 1)
    else (s, ps.length)

/-- FAULT_RESUME (R351). -/
def execFaultResume (s : State) : Out :=
  s.command 0x2A (fun _ => true) fun s p =>
    let bs := p.bytes
    let f := cmdFlags bs
    let all := f.testBit 0
    let qn := fieldOf bs 24 4
    let i := fieldOf bs 32 8
    let ok := decide (f < 4) && zeroIn bs 20 24 && zeroIn bs 28 32 && zeroIn bs 40 63 && (if all then qn == 0 && i == 0 else decide (qn < 98304))
    s.withCtx bs ok fun c _ =>
      let qs := (s.queues.filter fun e => e.2.ctx == c && e.2.state != .free && (all || e.1 == qn)).map (·.1)
      let (s, n) := qs.foldl (fun (s, n) q =>
        let (s, k) := s.resumeQueue q (f.testBit 1) fun p => all || p.index == i
        (s, n + k)) (s, 0)
      .done s stOk n

/-! ### Pulls (R360) -/

/-- A pull has failed: it is fatal to the destination context's fault domain. -/
def State.pullFailed (s : State) (c : Nat) (p : Pulling) : State :=
  let s := { s with pulling := s.pulling.filter fun y => !(y.ctx == c && y.entryAddr == p.entryAddr) }
  (s.post { Record.plain 0x08 c p.gpa with gpa := p.gpa }).fatalDomain c

/-- PULL_REQUEST (R360): module `d` asks for the page of `c` bytes at GPA `b` of the context of lineage `a` that migrates out. Without
such a context, or when its pages are lost (R277) or the page holds an uncorrectable error, the pull fails; an access that fails here gives no
answer, and one that is held is made again. -/
def execPullRequest (s : State) : Out :=
  let x := s.args
  .next (
    match s.contexts.find? (fun e => e.2.lineage == x.a && e.2.state == .migratingOut && !e.2.lostPages) with
    | none => { s with sent := s.sent ++ [.toModule x.d "pullFailed" x.b x.a] }
    | some (c, _) =>
      match (s.stage2 c 0 x.b false).bind fun s a => (s.reachAll 0 a x.c).bind fun s _ => .ok s a with
      | .ok s a =>
        match s.readErrors a x.c with
        | (s, some _) => { s with sent := s.sent ++ [.toModule x.d "pullFailed" x.b x.a] }
        | (s, none) =>
          let s := s.countCols c a x.c
          { s with sent := s.sent ++ [.readData (s.dpaBytes a x.c)] }
      | .fault s f => if f.hard then s.post { Record.plain f.reason c f.detail with gpa := x.b } else s
      | .hold s => s.at_ (s.cycle + 1) .pullRequest x)

/-- PULL_RECEIVED: the page at GPA `b` of context `a` arrives in `bytes`, or the source answers that it cannot serve it. -/
def execPullReceived (s : State) : Out :=
  let x := s.args
  .next (
    match s.pulling.find? (fun y => y.ctx == x.a && y.gpa == x.b) with
    | none => s
    | some p =>
      if x.peer.status ≠ 0 then s.pullFailed x.a p
      else
        let ended := fun (s : State) => { s with pulling := s.pulling.filter fun y => !(y.ctx == x.a && y.entryAddr == p.entryAddr) }
        match s.walkAt x.a 0 p.gpa p.entryAddr with
        | .hold s => s.at_ (s.cycle + 1) .pullReceived x
        | .fault s f => (ended s).post { Record.plain f.reason x.a f.detail with gpa := p.gpa }
        | .ok s _ =>
          let v := s.dpaNat p.entryAddr 8
          let s := (s.countCols x.a (entryAddr v) (pageSize p.level)).dpaWrite (entryAddr v) (x.bytes.take (pageSize p.level))
          (ended (s.dpaWrite p.entryAddr (natBytes ((v ||| 3) &&& (2 ^ 64 - 17)) 8))).addPull x.a (-1))

/-- PULL_TIMEOUT: the pull of GPA `b` of context `a` has had no answer within 8,000,000 cycles. -/
def execPullTimeout (s : State) : Out :=
  let x := s.args
  .next (
    match s.pulling.find? (fun y => y.ctx == x.a && y.gpa == x.b) with
    | none => s
    | some p => if s.cycle < p.since + 8000000 then s else s.pullFailed x.a p)

/-- PULLS_COMPLETE (R254): every page of lineage `a` has been pulled. -/
def execPullsComplete (s : State) : Out :=
  .next (
    match s.contexts.find? (fun e => e.2.lineage == s.args.a && e.2.state == .migratingOut) with
    | none => s
    | some (c, _) => s.onCtx c fun x => { x with state := .sealed })

end Sys2Proof.Machine
end

