-- ==== Sys2Proof/Machine/Launch.lean ====
section
/-! DEFINITION. Launches: the packet, the predecessors, and the loader's checks of an image (spec/12_kernel.md R291-R301). -/

namespace Sys2Proof.Machine

/-! ### Launch records -/

def State.setLaunch (s : State) (n : Nat) (l : Launch) : State := { s with launches := put s.launches n l }

/-- A decision of the summit follows (R306). -/
def State.summit (s : State) : State := s.at_ s.cycle .placementDecision Args.none

/-- A launch fails with a record (R298). -/
def State.launchFails (s : State) (n : Nat) (l : Launch) (reason detail : Nat) : State :=
  let cls := ((find s.queues l.queue).bind fun q => q.packets.find? (fun p => p.index == l.index)).map (·.cls)
  let s := s.post { reason := reason, flags := 0, level := 0, alias_ := cls.getD 0, ctx := l.ctx, queue := l.queue, index := l.index,
                    gva := 0, gpa := 0, detail := detail }
  (s.launchEnds l n false).pokeLaunches l.ctx

/-- The state of a predecessor (R299): some true is DONE, some false FAILED. -/
def Context.predecessor (x : Context) (k : Nat) : Option Bool :=
  match find x.completions (k % 4096) with
  | some (kseq, ok) => if kseq = k then some ok else none
  | none => none

/-- LAUNCH (R296-R298): packet `b` of queue `a`, which has begun, becomes a launch; in lockstep mode its predecessors must be satisfied
now. -/
def execLaunch (s : State) : Out :=
  let qn := s.args.a
  s.need qn 98304 (
    match (find s.queues qn).bind fun q => (q.packets.find? fun p =>
        p.index == s.args.b && pkKind p.bytes == 0x10 && !p.waiting && !p.parked && !p.complete).map fun p => (q, p) with
    | none => s
    | some (q, p) =>
      match s.launchOf qn p.index, find s.contexts q.ctx with
      | none, some x =>
        if !x.state.consumes then s
        else
          let bs := p.bytes
          let path := s.ctxPath q.ctx
          let n := s.nextNum
          let l : Launch :=
            { state := .waitDep, queue := qn, index := p.index, ctx := q.ctx, image := fieldOf bs 8 8, args := fieldOf bs 16 8,
              seed := BitVec.ofNat 64 (fieldOf bs 24 8), kseq := fieldOf bs 32 4, tiles := bitsOf (fieldOf bs 36 4) 0 20,
              minTiles := bitsOf (fieldOf bs 40 4) 0 20, gw := bitsOf (fieldOf bs 36 4) 20 12,
              preds := ([44, 48, 52, 56].map fun o => fieldOf bs o 4).filter (· != 0), prio := min (fieldOf bs 60 1 % 8) (s.effPrio path),
              shrink := (fieldOf bs 60 1).testBit 3, kernel := none, group := none, passes := 0, seq := n }
          let s := { s with nextNum := n + 1 }.setLaunch n l
          let s := s.onCtx q.ctx fun x => { x with state := if x.state = .created then .running else x.state }
          match l.preds.find? (fun k => x.predecessor k == some false), l.preds.find? (fun k => x.predecessor k != some true) with
          | some k, _ => s.launchFails n l 0x55 k
          | none, some k =>
            if s.effLockstep path then s.launchFails n l 0x54 k else s
          | none, none => s.at_ s.cycle .launchDepsMet { Args.none with a := n }
      | _, _ => s)

/-- LAUNCH_DEPS_MET (R298, R299): launch `a` moves to CHECK when every predecessor is satisfied, and fails when one has failed. -/
def execLaunchDepsMet (s : State) : Out :=
  let n := s.args.a
  .next (
    match find s.launches n with
    | none => s
    | some l =>
      match find s.contexts l.ctx with
      | none => s
      | some x =>
        if l.state ≠ .waitDep ∨ x.state ≠ .running then s
        else
          match l.preds.find? (fun k => x.predecessor k == some false) with
          | some k => s.launchFails n l 0x55 k
          | none =>
            if l.preds.all (fun k => x.predecessor k == some true) then
              (s.setLaunch n { l with state := .check }).at_ s.cycle .launchCheck { Args.none with a := n }
            else s)

/-! ### The image (R291-R295) -/

/-- The first check that fails: its offset. -/
def firstBad : List (Bool × Nat) → Option Nat
  | [] => none
  | (true, _) :: r => firstBad r
  | (false, o) :: _ => some o

/-- A section of the header: FOFF, SIZE, LOAD. -/
structure Sect where
  off : Nat
  size : Nat
  load : Nat
deriving DecidableEq, Repr

def sect (h : List Byte) (i : Nat) : Sect :=
  { off := fieldOf h (0x20 + 16 * i) 4, size := fieldOf h (0x24 + 16 * i) 4, load := fieldOf h (0x28 + 16 * i) 4 }

/-- "BILBORK1". -/
def kernelMagic : List Byte := [0x42, 0x49, 0x4C, 0x42, 0x4F, 0x52, 0x4B, 0x31]

def hVersion (h : List Byte) : Nat := fieldOf h 8 2
def hFlags (h : List Byte) : Nat := fieldOf h 0x0A 2
def hItermax (h : List Byte) : Nat := fieldOf h 0x0C 4
def hHandler (h : List Byte) : Nat := fieldOf h 0x14 4
def hNtask (h : List Byte) : Nat := fieldOf h 0x18 2
def hNext (h : List Byte) : Nat := fieldOf h 0x1A 2
def hNreloc (h : List Byte) : Nat := fieldOf h 0x1C 2
def hNbind (h : List Byte) : Nat := fieldOf h 0x1E 1
def hReloff (h : List Byte) : Nat := fieldOf h 0x60 4
def hSymoff (h : List Byte) : Nat := fieldOf h 0x64 4
def hImglen (h : List Byte) : Nat := fieldOf h 0x68 4
def hKmask (h : List Byte) : Nat := fieldOf h 0x6C 4
def hKoff (h : List Byte) : Nat := fieldOf h 0x70 4

/-- The checks of the header, by rule: magic, version, RES0, counts and the length (R291), then the sections, the areas and HANDLER
(R292). -/
def headerChecks (h : List Byte) : List (Bool × Nat) :=
  let v := hVersion h
  let len := hImglen h
  let g := fieldOf h 0x10 1
  let k := fieldOf h 0x11 1
  let w := fieldOf h 0x12 1
  let none_ := g == 0 && k == 0 && w == 0
  let c := sect h 0
  let d := sect h 1
  let b := sect h 2
  let t := sect h 3
  [ (h.take 8 == kernelMagic, 0), (v == 1 || v == 2, 8), (decide (hFlags h < 4), 0x0A), (zeroIn h 0x13 0x14, 0x13),
    (zeroIn h 0x1F 0x20, 0x1F), (zeroIn h 0x2C 0x30, 0x2C), (zeroIn h 0x3C 0x40, 0x3C), (zeroIn h 0x4C 0x50, 0x4C),
    (zeroIn h 0x5C 0x60, 0x5C), (zeroIn h 0x74 0x80, 0x74) ] ++
  [ (none_ || (decide (1 ≤ g) && decide (g ≤ 32)), 0x10), (none_ || (decide (1 ≤ k) && decide (k ≤ 32)), 0x11),
    (none_ || (decide (1 ≤ w) && decide (w ≤ 8)), 0x12), (decide (1 ≤ hNtask h) && decide (hNtask h ≤ 1024), 0x18),
    (decide (hNext h ≤ 256) && (v == 2 || hNext h == 0), 0x1A), (decide (hNreloc h ≤ 4096) && (v == 2 || hNreloc h == 0), 0x1C),
    (v == 2 || hNbind h == 0, 0x1E), (decide (128 ≤ len) && decide (len ≤ 2 ^ 24), 0x68) ] ++
  [ (decide (c.off + c.size ≤ len), 0x20), (c.size % 32 == 0 && decide (32 ≤ c.size) && decide (c.size ≤ 65536), 0x24), (c.load == 0, 0x28),
    (decide (d.off + d.size ≤ len), 0x30), (d.size % 16 == 0 && decide (d.size ≤ 393216), 0x34),
    (d.load % 16 == 0 && decide (d.load + d.size ≤ 0x60000), 0x38), (decide (b.off + b.size ≤ len), 0x40),
    (b.size % 128 == 0 && decide (b.size ≤ 393216), 0x44),
    (b.load % 16 == 0 && decide (b.load + b.size ≤ 0x60000) &&
      (b.size == 0 || d.size == 0 || decide (b.load + b.size ≤ d.load) || decide (d.load + d.size ≤ b.load)), 0x48),
    (decide (t.off + t.size ≤ len), 0x50), (t.size == hNtask h * 80, 0x54), (t.load == 0, 0x58) ] ++
  [ (decide (hReloff h + 16 * hNreloc h ≤ len), 0x60), (decide (hSymoff h + 32 * hNext h ≤ len), 0x64), (decide (hKoff h + 128 ≤ len), 0x70),
    (hHandler h == 0xFFFFFFFF || (hHandler h % 32 == 0 && decide (hHandler h < c.size)), 0x14) ]

/-- One task entry at an image offset (R293); `bound` are the bindings that the launch supplies. -/
def taskChecks (img : List Byte) (code : Nat) (bound : List Nat) (o : Nat) : List (Bool × Nat) :=
  let e := fieldOf img o 4
  let n := fieldOf img (o + 4) 1
  [(e % 32 == 0 && decide (e < code), o), (decide (n ≤ 4), o + 4), (zeroIn img (o + 5) (o + 8), o + 5),
    (bitsOf (fieldOf img (o + 8) 8) 48 15 == 0, o + 8)] ++
  ((List.range (min n 4)).map fun j =>
    let q := o + 0x10 + 16 * j
    let kind := fieldOf img q 1
    let ob := fieldOf img (q + 1) 1
    [(decide (1 ≤ kind) && decide (kind ≤ 3), q),
      (kind == 1 || (kind == 3 && decide (ob < 32)) || (kind == 2 && bound.contains ob), q + 1), (zeroIn img (q + 2) (q + 8), q + 2),
      (kind == 2 || fieldOf img (q + 12) 4 == 0, q + 8)]).flatten

/-- The RI and I20 forms, which R295's code relocations name. -/
def isRi : Instr → Bool
  | .addi _ => true
  | .andi _ => true
  | .ori _ => true
  | .xori _ => true
  | .shli _ => true
  | .shri _ => true
  | .srai _ => true
  | .cmpeqi _ => true
  | .cmplti _ => true
  | .cmpltui _ => true
  | .aaddi _ => true
  | .lidx _ => true
  | .csrr _ => true
  | .csrw _ => true
  | .topo _ => true
  | _ => false
def isI20 : Instr → Bool
  | .movi _ => true
  | .movhi _ => true
  | .movfi _ => true
  | _ => false

/-- A relocation entry (R294). -/
structure Reloc where
  site : Nat
  section_ : Nat
  kind : Nat
  sym : Nat
  addend : Int
deriving DecidableEq, Repr

def relocAt (img : List Byte) (o : Nat) : Reloc :=
  { site := fieldOf img o 4, section_ := fieldOf img (o + 4) 1, kind := fieldOf img (o + 5) 1, sym := fieldOf img (o + 6) 2,
    addend := signedOf (fieldOf img (o + 8) 8) 64 }

/-- The instruction at a code site, by its slot and opcode. -/
def siteInstr (code : List Byte) (site : Nat) : Option Instr :=
  let w := BitVec.ofNat 32 (fieldOf code site 4)
  let k := Slot.ofIndex (site % 32 / 4)
  slotMap k (slotOpcode k w) w

/-- Whether a relocation's kind fits its section and site; the KIND is what fails otherwise (R295). -/
def relocSite (code : List Byte) (dataSize : Nat) (r : Reloc) : Bool :=
  let form := match siteInstr code r.site with
    | some i => (isRi i, isI20 i)
    | none => (false, false)
  let inCode := r.site % 4 == 0 && decide (r.site < code.length)
  match r.section_, r.kind with
  | 0, 1 => r.site % 32 == 28 && decide (r.site < code.length) && (fieldOf code (r.site - 28 + 3) 1).testBit 7
  | 0, 2 => inCode && form.1
  | 0, 3 => inCode && form.2
  | 0, 4 => inCode && form.2
  | 0, 5 => inCode && form.2
  | 1, 6 => r.site % 4 == 0 && decide (r.site + 4 ≤ dataSize)
  | 2, 6 => r.site % 4 == 0 && decide (r.site < 128)
  | 1, 7 => r.site % 8 == 0 && decide (r.site + 8 ≤ dataSize)
  | _, _ => false

def relocChecks (img code : List Byte) (dataSize next o : Nat) : List (Bool × Nat) :=
  let r := relocAt img o
  [(decide (r.section_ ≤ 2), o + 4), (decide (1 ≤ r.kind) && decide (r.kind ≤ 7), o + 5), (relocSite code dataSize r, o + 5), (decide (r.sym < next), o + 6)]

/-- The reported width and the legal values of a kind. -/
def relocWidth (k : Nat) : Nat := if k = 2 then 11 else if k = 7 then 64 else if k = 1 ∨ k = 6 then 32 else 20
def relocRange (k : Nat) : Int × Int :=
  match k with
  | 2 => (-1024, 1023)
  | 3 => (-524288, 524287)
  | 7 => (-(2 ^ 63 : Nat), (2 ^ 64 : Nat) - 1)
  | _ => (-(2 ^ 31 : Nat), (2 ^ 32 : Nat) - 1)

/-- The value of a relocation, exactly. -/
def relocValue (args : List Byte) (r : Reloc) : Int := signedOf (fieldOf args (8 * r.sym) 8) 64 + r.addend

/-- The low `n` bits of a word replaced. -/
def setLow (w n v : Nat) : Nat := w / 2 ^ n * 2 ^ n + v % 2 ^ n

/-- Bytes from `o` on replaced. -/
def splice (bs : List Byte) (o : Nat) (new : List Byte) : List Byte := bs.take o ++ new ++ bs.drop (o + new.length)

/-- The patched word of a site. -/
def relocPatch (bs : List Byte) (r : Reloc) (v : Int) : List Byte :=
  let w := fieldOf bs r.site 4
  let u := (v % (2 ^ 32 : Nat)).toNat
  match r.kind with
  | 1 => splice bs r.site (natBytes u 4)
  | 2 => splice bs r.site (natBytes (setLow w 11 u) 4)
  | 3 => splice bs r.site (natBytes (setLow w 20 u) 4)
  | 4 => splice bs r.site (natBytes (setLow w 20 (u / 2 ^ 12)) 4)
  | 5 => splice bs r.site (natBytes (setLow w 20 (u % 2 ^ 12)) 4)
  | 7 => splice bs r.site (natBytes ((v % (2 ^ 64 : Nat)).toNat) 8)
  | _ => splice bs r.site (natBytes u 4)

/-! ### The argument block and the packet (R296) -/

/-- The checks of one binding entry. -/
def State.bindChecks (s : State) (ctx : Nat) (args : List Byte) (next n i : Nat) : List (Bool × Nat) :=
  let o := 8 * (next + i)
  let w := fieldOf args o 8
  let earlier := (List.range (min i n)).map fun j => bitsOf (fieldOf args (8 * (next + j)) 8) 0 8
  [(decide (bitsOf w 8 2 ≠ 0) && bitsOf w 10 10 == 0 && bitsOf w 40 24 == 0 && !earlier.contains (bitsOf w 0 8) &&
    (match find s.queues (bitsOf w 20 20) with
      | some q => q.state != .free && q.ctx == ctx
      | none => false), o)]

/-- The packet's own fields. -/
def launchPacketChecks (bs : List Byte) : List (Bool × Nat) :=
  let t := fieldOf bs 36 4
  let m := fieldOf bs 40 4
  [(decide (fieldOf bs 8 8 < 2 ^ 57), 8), (decide (fieldOf bs 16 8 < 2 ^ 57), 16), (fieldOf bs 32 4 != 0, 32),
    (bitsOf t 0 20 != 0 && bitsOf t 20 12 != 0, 36), (bitsOf m 20 12 == 0 && bitsOf m 0 20 != 0 && decide (bitsOf m 0 20 ≤ bitsOf t 0 20), 40),
    (decide (fieldOf bs 60 1 < 16), 60), (zeroIn bs 61 63, 61)]

/-- A task of the table. -/
def taskAt (img : List Byte) (o : Nat) : Task :=
  let nb := fieldOf img (o + 8) 8
  { entry := fieldOf img o 4, notBefore := if nb.testBit 63 then some (bitsOf nb 0 48) else none,
    conds := (List.range (fieldOf img (o + 4) 1)).map fun j =>
      let q := o + 0x10 + 16 * j
      { kind := fieldOf img q 1, object := fieldOf img (q + 1) 1, value := fieldOf img (q + 8) 8 } }

/-- A binding entry, to the queue as CHECK finds it: its life is the one that the group will need (R281, R293). -/
def binding0 (life : Nat → Nat) (w : Nat) : Nat × Binding :=
  (bitsOf w 0 8, { kind := bitsOf w 8 2, queue := bitsOf w 20 20, life := life (bitsOf w 20 20), wrsh := 0, donesh := 0, status := 0 })

/-- The kernel of a checked image: sections patched with the launch arguments (R295, R302). -/
def buildKernel (h img args : List Byte) (relocs : List Reloc) (hv : Bool) (life : Nat → Nat) : Kernel :=
  let take := fun (x : Sect) => (img.drop x.off).take x.size
  let patch := fun (n : Nat) (bs : List Byte) =>
    (relocs.filter (·.section_ == n)).foldl (fun bs r => relocPatch bs r (relocValue args r)) bs
  let bank := patch 2 ((img.drop (hKoff h)).take 128)
  { hvpriv := hv, gangW := fieldOf h 0x10 1, gangH := fieldOf h 0x11 1, skew := fieldOf h 0x12 1,
    handler := if hHandler h = 0xFFFFFFFF then none else some (hHandler h),
    tasks := (List.range (hNtask h)).map fun i => taskAt img ((sect h 3).off + 80 * i), code := patch 0 (take (sect h 0)),
    data := [((sect h 1).load, patch 1 (take (sect h 1))), ((sect h 2).load, take (sect h 2))], kmask := hKmask h,
    consts := (List.range 32).map fun n => BitVec.ofNat 32 (fieldOf bank (4 * n) 4),
    bindings := (List.range (hNbind h)).map fun i => binding0 life (fieldOf args (8 * (hNext h + i)) 8) }

/-- SHA-256 of bytes. -/
def shaBytes (bs : List Byte) : List Byte := (Sha.sha256 (bs.map (·.toNat))).map (BitVec.ofNat 8)

/-- A measured item extends a context's measurement (R263). -/
def extendMeasure (m : List Byte) (kind : Nat) (digest : List Byte) : List Byte := shaBytes (m ++ [BitVec.ofNat 8 kind] ++ digest)

/-- What CHECK comes to. -/
inductive Checked where
  | ok (s : State) (k : Kernel) (img : List Byte)
  | fail (s : State) (reason detail : Nat)
  | park (s : State) (f : TFault)
  | hold (s : State)

def malformedIn (area o : Nat) : Nat := o + area * 2 ^ 32

/-- The tests of R300 on a header, an image and an argument block that have been read. -/
def State.checkImage (s : State) (n : Nat) (l : Launch) (bs h img args : List Byte) : Checked :=
  let code := (img.drop (sect h 0).off).take (sect h 0).size
  let bound := (List.range (hNbind h)).map fun i => bitsOf (fieldOf args (8 * (hNext h + i)) 8) 0 8
  let tasks := ((List.range (hNtask h)).map fun i => taskChecks img (sect h 0).size bound ((sect h 3).off + 80 * i)).flatten
  let rel := ((List.range (hNreloc h)).map fun i => relocChecks img code (sect h 1).size (hNext h) (hReloff h + 16 * i)).flatten
  let binds := ((List.range (hNbind h)).map fun i => s.bindChecks l.ctx args (hNext h) (hNbind h) i).flatten
  let relocs := (List.range (hNreloc h)).map fun i => relocAt img (hReloff h + 16 * i)
  match firstBad (rel ++ tasks), firstBad binds with
  | some o, _ => .fail s 0x50 (malformedIn 0 o)
  | none, some o => .fail s 0x50 (malformedIn 1 o)
  | none, none =>
    if s.launchDup l n then .fail s 0x50 (malformedIn 2 32)
    else
      match firstBad (launchPacketChecks bs) with
      | some o => .fail s 0x50 (malformedIn 2 o)
      | none =>
        if (hFlags h).testBit 0 && !s.ctxHvpriv l.ctx then .fail s 0x53 0
        else if (hItermax h = 0 ∨ 12000 < hItermax h) ∧ !s.effNopre (s.ctxPath l.ctx) then .fail s 0x52 (hItermax h)
        else
          match relocs.find? (fun r => decide (relocValue args r < (relocRange r.kind).1) || decide ((relocRange r.kind).2 < relocValue args r)) with
          | some r =>
            .fail s 0x51 (r.sym + r.section_ * 2 ^ 16 + r.site % 2 ^ 19 * 2 ^ 20 + relocWidth r.kind * 2 ^ 40)
          | none => .ok s (buildKernel h img args relocs (s.ctxHvpriv l.ctx) fun q => ((find s.queues q).map (·.life)).getD 0) img

/-- The loader reads and checks an image, each byte once (R300). -/
def State.checkLaunch (s : State) (n : Nat) (l : Launch) (bs : List Byte) : Checked :=
  let m := l.queue / 1024
  if l.image % 64 ≠ 0 then .fail s 0x50 (malformedIn 2 8)
  else match s.readGva l.ctx m (l.image % 2 ^ 57) 4 128 [] with
  | .hold s => .hold s
  | .fault s f => .park s f
  | .ok s h =>
    match firstBad (headerChecks h) with
    | some o => .fail s 0x50 (malformedIn 0 o)
    | none =>
      match s.readGva l.ctx m (l.image % 2 ^ 57 + 128) (hImglen h / 64 + 2) (hImglen h - 128) h with
      | .hold s => .hold s
      | .fault s f => .park s f
      | .ok s img =>
        let len := 8 * (hNext h + hNbind h)
        match s.readGva l.ctx m (l.args % 2 ^ 57) (len / 64 + 2) len [] with
        | .hold s => .hold s
        | .fault s f => .park s f
        | .ok s args => s.checkImage n l bs h img args

/-- A new image is measured (R301). -/
def State.measureImage (s : State) (c : Nat) (img : List Byte) : State :=
  let d := shaBytes img
  s.onCtx c fun x =>
    if x.digests.contains d then x
    else { x with measure := extendMeasure x.measure 0x01 d, digests := if x.digests.length < 64 then x.digests ++ [d] else x.digests }

/-- LAUNCH_CHECK (R298, R300, R301): launch `a` is read, checked, measured and patched; a translation fault parks its packet. -/
def execLaunchCheck (s : State) : Out :=
  let n := s.args.a
  .next (
    match find s.launches n with
    | none => s
    | some l =>
      match find s.queues l.queue, find s.contexts l.ctx with
      | some q, some x =>
        match q.packets.find? (fun p => p.index == l.index) with
        | none => s
        | some p =>
          if l.state ≠ .check ∨ x.state ≠ .running ∨ p.parked ∨ !q.turn p then s
          else
            match s.checkLaunch n l p.bytes with
            | .hold s => s
            | .park s f =>
              let s := s.packetFault l.queue q p 0 f false []
              if f.parked then s else (s.launchEnds l n false).pokeLaunches l.ctx
            | .fail s r d => s.launchFails n l r d
            | .ok s k img =>
              let s := s.measureImage l.ctx img
              ({ s with nextNum := s.nextNum + 1 }.setLaunch n { l with state := .waitPlace, kernel := some k, seq := s.nextNum }).summit
      | _, _ => s)

end Sys2Proof.Machine
end

