-- ==== Sys2Proof/Machine/Group.lean ====
section
/-! DEFINITION. The summit and its groups: selection, placement, loading, slices, pre-emption, saving, resuming, and the teardown of a
fault domain (spec/12_kernel.md R302; spec/13_group.md R304-R321; spec/10_context.md R254, R259; spec/17_faults_determinism_power.md
R374-R376, R381). -/

namespace Sys2Proof.Machine

/-! ### Tiles of a group -/

/-- Grid position of a rank. -/
def gridPos (gw r : Nat) : Nat × Nat := (r % gw, r / gw)

/-- Rows of a grid and tiles of its last row (R308). -/
def gridRows (size gw : Nat) : Nat := (size + gw - 1) / gw
def lastRow (size gw : Nat) : Nat := size - gw * (gridRows size gw - 1)

/-- The ranks of the gang of a rank (R309), the lead first. -/
def gangRanks (k : Kernel) (size gw r : Nat) : List Nat :=
  if k.gangW = 0 then [r]
  else
    let (x, y) := gridPos gw r
    let lx := x / k.gangW * k.gangW
    let ly := y / k.gangH * k.gangH
    ((List.range k.gangH).map fun j => (List.range k.gangW).map fun i => (lx + i, ly + j)).flatten.filterMap fun (i, j) =>
      if i < gw ∧ j * gw + i < size then some (j * gw + i) else none

/-- The place of a rank (R124, R309). -/
def placeFor (gid : Nat) (g : Group) (kseq r : Nat) : Place :=
  let (x, y) := gridPos g.gw r
  let ranks := gangRanks g.kernel g.size g.gw r
  let lead := ranks.headD r
  let (lx, ly) := gridPos g.gw lead
  { Place.zero with
    status := .starting, group := some gid, rank := r, gx := x, gy := y, gw := g.gw, gh := gridRows g.size g.gw
    glast := lastRow g.size g.gw, dx := x - lx, dy := y - ly
    gangW := (ranks.filter fun q => (gridPos g.gw q).2 == ly).length
    gangH := (ranks.filter fun q => (gridPos g.gw q).1 == lx).length
    lead := g.tiles.getD lead 0, delta := g.kernel.skew * (x - lx + (y - ly))
    members := ranks.map fun q => g.tiles.getD q 0
    partition := g.partition, ctx := g.ctx, kseq := kseq, hvpriv := g.kernel.hvpriv, entryPoint := g.kernel.handler, s0 := g.s0
    taskFrom := g.s0 }

/-- A tile that leaves its group: its memories, registers, latches, control registers, matrix state and frame store, what is still to land
in them and what is on its way to it stay; it issues nothing and sends nothing more. -/
def Tile.vacate (t : Tile) : Tile :=
  { t with
    ctl := .zero, place := .zero, halt := none, loopBuf := [], bufFor := none, slot := 0, lit := none, kval := none
    io := { Ports.zero with inbound := t.io.inbound, timed := t.io.timed, sincs := t.io.sincs } }

/-- A tile is held for a group that loads or resumes. -/
def State.holdTiles (s : State) (gid ctx part : Nat) (ts : List Nat) : State :=
  ts.foldl (fun s t => s.setTile t ((s.getTile t).onPlace fun _ => { Place.zero with group := some gid, ctx := ctx, partition := part })) s

/-- The group that has been placed on a tile and is not there yet. -/
def State.reservedFor (s : State) (t : Nat) : Option (Nat × Group) :=
  s.groups.find? fun e => (e.2.state == .loading || e.2.state == .resuming) && e.2.tiles.contains t

/-- The tiles of a group return to the partition, or to the group that has been placed on them; an advance of DONE waits for their bindings
no longer. -/
def State.vacateTiles (s : State) (ts : List Nat) : State :=
  let s := ts.foldl (fun s t => s.setTile t (s.getTile t).vacate) s
  let s := ts.foldl (fun s t => match s.reservedFor t with
    | some (n, g) => s.holdTiles n g.ctx g.partition [t]
    | none => s) s
  (s.queues.map (·.1)).foldl State.settle s

/-- The tiles of a group that no other group stands on. -/
def State.ownTiles (s : State) (gid : Nat) (g : Group) : List Nat :=
  g.tiles.filter fun t => (s.getTile t).place.group == some gid

/-- Bytes of a tile image (R317). -/
def tileImage : Nat := 519168

/-- Pushes that a discarded request queue held are no longer outstanding (R281, R375). -/
def State.dropPushes (s : State) (t : Nat) : State :=
  (s.getTile t).io.requests.foldl (fun s e => match e.kind with
    | .push _ qn _ _ => s.onQueue qn fun q => { q with pushes := q.pushes - 1 }
    | _ => s) s

/-- The number under which a saved tile's operations that are still away from it name it (log 73). -/
def savedTile (gid r : Nat) : Nat := savedBase + gid * 2 ^ 18 + r

/-- Every remote operation that has not been applied, changed. -/
def State.mapOps (s : State) (f : RemoteOp → RemoteOp) : State :=
  let held := fun (h : Held) => { h with op := f h.op }
  let s : State :=
    { s with
      transit := s.transit.map fun (x : Transit) => { x with op := f x.op }
      away := s.away.map fun (x : Away) => { x with op := f x.op }
      parkedAtEdge := s.parkedAtEdge.map fun (x : Nat × EdgeItem) => (x.1, match x.2 with
        | .remote o => .remote (f o)
        | r => r) }
  s.mapTiles (·.onIo fun p => { p with timed := p.timed.map held })

/-- The operations of a group's tiles come from tiles `b` where they came from tiles `a`. -/
def State.renameSources (s : State) (a b : List Nat) : State :=
  s.mapOps fun o => match a.findIdx? (· == o.src) with
    | some r => { o with src := b.getD r o.src }
    | none => o
def savedTiles (gid n : Nat) : List Nat := (List.range n).map (savedTile gid)

/-- The images of a group are gone: the timed operations that they held will never be applied (R318, R323). -/
def State.dropImages (s : State) (gid : Nat) : State :=
  match find s.groups gid with
  | none => s
  | some g =>
    let s := (g.saved.flatMap (·.io.timed)).foldl (fun s h => s.remoteDone h.op.src h.op.id) s
    s.onGroup gid fun g => { g with saved := [] }

/-- A group is discarded (R304, R375): tiles and budgets return; what of it is on its way completes nowhere. `keep`: a teardown does not
touch HBMUSED, and the charge of its images stays until CTX_DESTROY (log 76). -/
def State.discardGroup (s : State) (gid : Nat) (keep : Bool) : State :=
  match find s.groups gid with
  | none => s
  | some g =>
    if g.state = .ended ∨ g.state = .discarded then s
    else
      let own := s.ownTiles gid g
      let started := g.state == .running || g.state == .preempting
      let s := if started then g.tiles.foldl State.dropPushes (s.renameSources g.tiles (savedTiles gid g.size)) else s
      let s := if g.tiles.isEmpty then s else s.addTiles g.ctx (-(g.size : Int))
      let s := if g.saved.isEmpty || keep then s else s.addHbm g.ctx (-((tileImage * g.size : Nat) : Int))
      let s := (if keep then s else s.dropImages gid).onGroup gid fun g => { g with state := .discarded, tiles := [], arrivals := [], releases := [] }
      s.vacateTiles own

/-! ### Selection (R306, R307) -/

/-- A candidate: a launch in WAITPLACE, or a switched group. -/
structure Cand where
  isGroup : Bool
  num : Nat
  level : Nat
  ctx : Nat
  part : Nat
  seq : Nat
  passes : Nat
deriving DecidableEq, Repr

/-- The candidates of RUNNING contexts. -/
def State.candidates (s : State) : List Cand :=
  let running := fun (c : Nat) => match find s.contexts c with
    | some x => if x.state = CtxState.running then some x.partition else none
    | none => none
  (s.launches.filterMap fun e =>
    if e.2.state = .waitPlace then
      (running e.2.ctx).map fun p =>
        { isGroup := false, num := e.1, level := e.2.prio, ctx := e.2.ctx, part := p, seq := e.2.seq, passes := e.2.passes : Cand }
    else none) ++
  (s.groups.filterMap fun e =>
    if e.2.state = .switched then
      (running e.2.ctx).map fun p =>
        { isGroup := true, num := e.1, level := e.2.prio, ctx := e.2.ctx, part := p, seq := e.2.seq, passes := e.2.passes : Cand }
    else none)

/-- A candidate that an aged one of its partition holds back (R307). -/
def heldBack (all : List Cand) (c : Cand) : Bool :=
  all.any fun y => decide (8 ≤ y.passes) && !(y.isGroup == c.isGroup && y.num == c.num) && y.part == c.part &&
    (decide (c.level < y.level) || (y.level == c.level && (decide (c.passes < 8) || decide (y.seq < c.seq))))

/-! ### Placement (R308, R309) -/

/-- Whether the summit may put a group on a tile; `extra` are counted as free (R315, R379). -/
def State.tileFree (s : State) (part : Nat) (extra : List Nat) (t : Nat) : Bool :=
  let p := s.powerOf (massifOf t)
  s.tileExists t && ((s.getTile t).place.group.isNone || extra.contains t) && (s.reservedFor t).isNone &&
    (match find s.partitions part with
      | some x => x.massifs.contains (massifOf t)
      | none => false) &&
    (p.state == .full || p.state == .reduced) && p.pending.isNone

/-- The tiles of a grid whose origin is `(ox, oy)` inside an extent. -/
def gridTiles (e : Extent) (ox oy size gw : Nat) : List Nat :=
  (List.range size).map fun r => (e.ty + oy + r / gw) * 384 + e.tx + ox + r % gw

/-- First fit: extents in ascending number, origins in ascending y, then x. -/
def State.findPlace (s : State) (part : Nat) (extra : List Nat) (k : Kernel) (size gw : Nat) : Option (List Nat) :=
  match find s.partitions part with
  | none => none
  | some p =>
    let h := gridRows size gw
    let w := min size gw
    let fit := fun (e : Extent) (o : Nat × Nat) =>
      let ts := gridTiles e o.1 o.2 size gw
      if ts.all (s.tileFree part extra) &&
          (List.range size).all (fun r => massifOf (ts.getD r 0) == massifOf (ts.getD ((gangRanks k size gw r).headD r) 0)) then some ts else none
    (p.extents.filter fun e => e.valid && e.mod == s.globals.modIdx && decide (h ≤ e.h) && decide (w ≤ e.w)).findSome? fun e =>
      (List.range (e.h - h + 1)).findSome? fun oy => (List.range (e.w - w + 1)).findSome? fun ox => fit e (ox, oy)

/-- TILESUSED without the tiles that are counted as free. -/
def State.countFree (s : State) (extra : List Nat) : State :=
  match extra with
  | [] => s
  | t :: _ => s.addTiles (s.getTile t).place.ctx (-(extra.length : Int))

/-- The tiles that a candidate can be placed on now: size, grid width, tiles (R297, R308). -/
def State.placeCand (s : State) (c : Cand) (extra : List Nat) : Option (Nat × Nat × List Nat) :=
  let path := s.ctxPath c.ctx
  let try_ := fun (k : Kernel) (size gw : Nat) =>
    match s.findPlace c.part extra k size gw with
    | none => none
    | some ts =>
      let u := if ts.any extra.contains then s.countFree extra else s
      if u.fits 0x28 4 u.effTiles size path then some (size, gw, ts) else none
  if c.isGroup then
    match find s.groups c.num with
    | some g => try_ g.kernel g.size g.gw
    | none => none
  else
    match find s.launches c.num with
    | some l =>
      match l.kernel with
      | some k =>
        let lo := if l.shrink then l.minTiles else l.tiles
        (List.range (l.tiles + 1 - lo)).findSome? fun d => try_ k (l.tiles - d) l.gw
      | none => none
    | none => none

/-- A group record that has just been placed. -/
def newGroup (n ctx part size gw prio seq : Nat) (k : Kernel) (lock : Bool) (ts : List Nat) : Group :=
  { state := .loading, launch := n, ctx := ctx, partition := part, tiles := ts, size := size, gw := gw, kernel := k, lockstep := lock,
    s0 := 0, haltMax := 0, sliceEnd := 0, preemptAt := none, passes := 0, seq := seq, prio := prio,
    barriers := Vector.replicate 32 { target := size, count := 0, phase := 0 }, arrivals := [], releases := [], saved := [] }

/-- A candidate takes its tiles; those on which a group is still pre-empted become its own when that group has left them. -/
def State.takeTiles (s : State) (c : Cand) (size gw : Nat) (ts : List Nat) : State :=
  let s := s.addTiles c.ctx size
  let free := ts.filter fun t => (s.getTile t).place.group.isNone
  if c.isGroup then
    (s.onGroup c.num fun g => { g with state := .resuming, tiles := ts, passes := 0 }).holdTiles c.num c.ctx c.part free
  else
    match find s.launches c.num with
    | none => s
    | some l =>
      match l.kernel with
      | none => s
      | some k =>
        let gid := s.nextNum
        let g := newGroup c.num c.ctx c.part size gw l.prio l.seq k (s.effLockstep (s.ctxPath c.ctx)) ts
        ({ s with nextNum := gid + 1, groups := put s.groups gid g }.setLaunch c.num { l with state := .loading, group := some gid, passes := 0 }).holdTiles
          gid c.ctx c.part free

def State.addPass (s : State) (c : Cand) : State :=
  if c.isGroup then s.onGroup c.num fun g => { g with passes := g.passes + 1 }
  else
    match find s.launches c.num with
    | some l => s.setLaunch c.num { l with passes := l.passes + 1 }
    | none => s

/-- Credits saturate at 2^47 either way. -/
def clampCredit (i : Int) : Int := max (-(2 ^ 47 : Nat)) (min i (2 ^ 47 : Nat))
def State.addCredit (s : State) (c : Nat) (n : Int) : State := s.onCtx c fun x => { x with credit := clampCredit (x.credit + n) }

/-- One decision (R306): the state and the tiles of the candidate it placed. `extra` are tiles counted as free (R315); a candidate placed on
any of them starts when the group that stands there has been saved (log 49). -/
def State.decision (s : State) (extra : List Nat) : Nat → Nat → List (Bool × Nat) → State × Option (List Nat)
  | 0, _, _ => (s, none)
  | fuel + 1, level, tried =>
    let all := s.candidates
    let elig := all.filter fun c => c.level == level && !tried.contains (c.isGroup, c.num) && !heldBack all c
    if elig.isEmpty then
      match level with
      | 0 => (s, none)
      | l + 1 => s.decision extra fuel l tried
    else
      let ctxs := sortBy id (elig.map (·.ctx)).eraseDups
      let s := ctxs.foldl (fun s c => s.addCredit c (s.effTiles (s.ctxPath c))) s
      let credit := fun (c : Nat) => ((find s.contexts c).map (·.credit)).getD 0
      let best := ctxs.foldl (fun b c => if credit b < credit c then c else b) (ctxs.headD 0)
      match sortBy (·.seq) (elig.filter fun c => c.ctx == best) with
      | [] => (s, none)
      | x :: _ =>
        match s.placeCand x extra with
        | some (size, gw, ts) => ((s.takeTiles x size gw ts).addCredit best (-(size : Int)), some ts)
        | none => (s.addPass x).decision extra fuel level (tried ++ [(x.isGroup, x.num)])

/-- One decision over every level. -/
def State.runDecision (s : State) (extra : List Nat) : State × Option (List Nat) :=
  s.decision extra (s.candidates.length + 9) 7 []

/-- PLACEMENT_DECISION (R306-R309): a decision that places a candidate is followed at once by another. -/
def execPlacementDecision (s : State) : Out :=
  .next (match s.runDecision [] with
    | (s, some _) => s.summit
    | (s, none) => s)

/-! ### Loading and slices (R259, R302, R314, R315, R381) -/

/-- The start cycle of a group whose last tile is ready at `c` (R314, R381). -/
def State.startCycle (s : State) (g : Group) (lock : Bool) (c : Nat) : Nat :=
  let base := if lock then (c + 4095) / 4096 * 4096 else c
  if s.globals.stagger then base + s.globals.step * (massifOf (g.tiles.headD 0) % 16) else base

/-- A new slice, with debt reduced (R259). -/
def State.grantSlice (s : State) (gid : Nat) : State :=
  match find s.groups gid with
  | none => s
  | some g =>
    match find s.contexts g.ctx with
    | none => s
    | some x =>
      let slice := s.effSlice (s.ctxPath g.ctx)
      let debt := s.devNat (x.rcb + 0x20) 8
      let granted := max (slice - debt) (slice / 4)
      let s := { s with dev := s.dev.writeNat (x.rcb + 0x20) 8 (debt - (slice - granted)) }
      (s.onGroup gid fun g => { g with sliceEnd := s.cycle + granted }).at_ (s.cycle + granted) .sliceEnd { Args.none with a := gid }

/-- Pre-emption of a group begins: the request in this cycle, the watchdog 51,200 cycles later (R304, R316). -/
def State.preemptGroup (s : State) (gid : Nat) : State :=
  match find s.groups gid with
  | none => s
  | some g =>
    if g.state ≠ .running then s
    else
      ((s.onGroup gid fun g => { g with state := .preempting, preemptAt := some s.cycle, haltMax := 0 }).at_ s.cycle .preemptRequest
        { Args.none with a := gid }).at_ (s.cycle + 51200) .watchdog { Args.none with a := gid }

/-- A group enters RUNNING: a slice, or pre-emption at once when its context no longer runs. -/
def State.enterRunning (s : State) (gid : Nat) : State :=
  let s := (s.onGroup gid fun g => { g with state := .running }).grantSlice gid
  match find s.groups gid with
  | none => s
  | some g =>
    match find s.contexts g.ctx with
    | some x => if x.state = .running then s else s.preemptGroup gid
    | none => s

/-- The bindings at group start (R296): WRSH of an EXCL binding is WRIDX, DONESH is DONE. A queue that was destroyed since CHECK leaves its
binding empty, created again or not (R293). -/
def State.startBindings (s : State) (l : List (Nat × Binding)) : List (Nat × Binding) :=
  l.foldl (fun acc e => match find s.queues e.2.queue with
    | some q =>
      if q.life ≠ e.2.life then acc
      else
        put acc e.1 { e.2 with wrsh := if e.2.kind = 1 then BitVec.ofNat 64 q.wridx else 0, donesh := BitVec.ofNat 64 q.doneReg,
                               status := q.statusWord }
    | none => acc) []

/-- A binding of a tile that runs again shows what DONE shows (R229, R288). -/
def State.renewBinding (s : State) (b : Binding) : Binding :=
  match find s.queues b.queue with
  | some q =>
    if q.life = b.life ∧ b.donesh.toNat < q.doneReg then { b with donesh := BitVec.ofNat 64 q.doneReg, status := q.statusWord } else b
  | none => b

/-- A tile at group start (R54, R302). `n` numbers this load: what it does not define reads as that load's undefined bytes. -/
def State.loadTile (s : State) (gid : Nat) (g : Group) (l : Launch) (n r : Nat) : State :=
  let t := g.tiles.getD r 0
  let old := s.getTile t
  let p := placeFor gid g l.kseq r
  let k := g.kernel
  let lead := decide (p.lead = t)
  let spad : Memory := { epoch := some (n + 2 * r), cells := [] }
  let imem : Memory := { epoch := some (n + 2 * r + 1), cells := [] }
  let consts := Vector.ofFn fun i : Fin 32 => if k.kmask.testBit i.val then k.consts.getD i.val 0 else 0
  s.setTile t
    { Tile.reset with
      regs := { Regs.zero with k := consts }
      csr := { Csrs.zero with seed := l.seed }
      place := p
      nextId := old.nextId
      spad := k.data.foldl (fun m e => m.writeCells (cellsAt e.1 e.2)) spad
      imem := if lead then imem.writeCells (cellsAt 0 k.code) else old.imem
      iecc := if lead then [] else old.iecc
      io := { Ports.zero with inbound := old.io.inbound, timed := old.io.timed, bindings := s.startBindings k.bindings }
      ctl := { Control.zero with nextIssue := g.s0 } }

/-- A launch is RUNNING with its group; while its context does not run it makes no transition, and that follows when the group resumes
(R298, log 77). -/
def State.launchRuns (s : State) (n : Nat) : State :=
  match find s.launches n with
  | none => s
  | some l =>
    match find s.contexts l.ctx with
    | some x => if x.state = .running ∧ l.state = .loading then s.setLaunch n { l with state := .running } else s
    | none => s

/-- GROUP_LOADED (R302, R304, R314, R381): the tiles of group `a`, all of which it has, are loaded, the last one in the next cycle, and the
group runs. -/
def execGroupLoaded (s : State) : Out :=
  let gid := s.args.a
  .next (
    match find s.groups gid with
    | none => s
    | some g =>
      match find s.launches g.launch with
      | none => s
      | some l =>
        if g.state ≠ .loading ∨ s.ownTiles gid g ≠ g.tiles then s
        else
          let g := { g with s0 := s.startCycle g g.lockstep (s.cycle + 1) }
          let n := s.nextNum
          let s := { s with groups := put s.groups gid g, nextNum := n + 2 * g.size }
          let s := (List.range g.size).foldl (fun s r => s.loadTile gid g l n r) s
          (s.launchRuns g.launch).enterRunning gid)

/-- SLICE_END (R315): group `a`'s slice is over. A decision that counts its tiles as free and places another candidate on any of them
pre-empts the group; otherwise a new slice begins. -/
def execSliceEnd (s : State) : Out :=
  let gid := s.args.a
  .next (
    match find s.groups gid with
    | none => s
    | some g =>
      if g.state ≠ .running ∨ s.cycle < g.sliceEnd then s
      else
        match s.runDecision g.tiles with
        | (s, some ts) => (if ts.any g.tiles.contains then s.preemptGroup gid else s.grantSlice gid).summit
        | (s, none) => s.grantSlice gid)

/-- WATCHDOG (R316): a tile of group `a` not halted 51,200 cycles after its request is fatal to its fault domain. -/
def execWatchdog (s : State) : Out :=
  .next (
    match find s.groups s.args.a with
    | none => s
    | some g =>
      match g.state, g.preemptAt with
      | .preempting, some q =>
        if s.cycle < q + 51200 then s
        else
          let late := g.tiles.filter fun t =>
            let p := (s.getTile t).place.status
            p != .halted && p != .ended
          s.forTiles late fun s => s.fatal causeWatchdog
      | _, _ => s)

/-! ### The end of a launch (R298) -/

/-- A tile that issues nothing more: ended, or stopped by HALT. -/
def Tile.finished (t : Tile) : Bool := t.place.status == .ended || (t.place.status == .halted && t.halt.isNone)

/-- Its outbound operations are complete at SYSTEM scope. -/
def State.outboundDone (s : State) (t : Tile) : Bool :=
  t.io.writes.isEmpty && t.io.requests.isEmpty && t.io.remotes.isEmpty && t.io.posts.isEmpty && t.io.copies.all s.copyComplete

/-- LAUNCH_DONE (R298, R304): every tile of launch `a` has ended and its outbound operations are complete. -/
def execLaunchDone (s : State) : Out :=
  let n := s.args.a
  .next (
    match find s.launches n with
    | none => s
    | some l =>
      match l.group.bind (find s.groups), l.group with
      | some g, some gid =>
        let ready := g.tiles.all fun t =>
          let x := s.getTile t
          x.finished && s.outboundDone x && x.io.stores.isEmpty && x.io.amos.isEmpty && x.io.inbound.isEmpty
        if l.state ≠ .running ∨ g.state ≠ .running ∨ !ready then s
        else
          let s := (s.vacateTiles g.tiles).addTiles g.ctx (-(g.size : Int))
          let s := s.onGroup gid fun g => { g with state := .ended, tiles := [], arrivals := [], releases := [] }
          ((s.launchEnds l n true).pokeLaunches l.ctx).summit
      | _, _ => s)

/-! ### Saving and resuming (R317-R321, R327) -/

/-- A remote operation that its destination holds for its cycle, in its saved image where it has one, or in another module. -/
def State.heldTimed (s : State) (src id : Nat) : Bool :=
  let own := fun (o : RemoteOp) => o.src == src && o.id == id
  let tiles := s.tile :: s.tiles.map (·.2) ++ (s.groups.map fun e => e.2.saved).flatten
  (tiles.any fun t => t.io.timed.any fun h => own h.op) || s.away.any fun x => x.held && own x.op

/-- Whether a tile may be saved: it has stopped, its ports are idle, and its outbound operations are applied (R318, R323). -/
def State.savable (s : State) (t : Nat) : Bool :=
  let x := s.getTile t
  (x.finished || x.place.status == .halted) && x.io.stores.isEmpty && x.io.amos.isEmpty && x.io.reads.isEmpty && x.io.sincs.isEmpty &&
    x.io.inbound.isEmpty && x.io.writes.isEmpty && x.io.requests.isEmpty && x.io.posts.isEmpty && x.io.remotes.all (s.heldTimed t)

/-- The words of a tile that hold an error are read for its image, of instruction memory those of a lead: a correctable one is corrected, one
that is lost stays so, and each is counted (R377, R378, log 16). -/
def State.readMarked (s : State) (t : Nat) : State :=
  let marks := (s.getTile t).ecc
  let code := if (s.getTile t).place.lead = t then (s.getTile t).iecc else []
  let s := marks.foldl (fun s e => s.networkEcc t (16 * e.1)) s
  let s := if code.isEmpty then s else s.onMerr (massifOf t) fun m =>
    { m with imce := satInc m.imce (code.countP fun e => !e.2), ue := satInc m.ue (code.countP (·.2)) }
  s.setTile t (let x := s.getTile t; { x with ecc := x.ecc.filter (·.2), iecc := if code.isEmpty then x.iecc else x.iecc.filter (·.2) })

/-- GROUP_SAVE (R304, R317, R318, R327): every tile of group `a` has halted, and the group is switched out. -/
def execGroupSave (s : State) : Out :=
  let gid := s.args.a
  .next (
    match find s.groups gid with
    | none => s
    | some g =>
      if g.state ≠ .preempting ∨ !g.tiles.all s.savable ∨ !g.arrivals.isEmpty ∨ !g.releases.isEmpty then s
      else
        let s := s.renameSources g.tiles (savedTiles gid g.size)
        let s := g.tiles.foldl State.readMarked s
        let saved := g.tiles.map s.getTile
        let s := g.tiles.foldl (fun s t => s.setTile t ((s.getTile t).onIo fun p => { p with timed := [] })) s
        let s := ((s.vacateTiles g.tiles).addTiles g.ctx (-(g.size : Int))).addHbm g.ctx (tileImage * g.size : Nat)
        let s := { s with nextNum := s.nextNum + 1 }.onGroup gid fun g =>
          { g with state := .switched, tiles := [], saved := saved, preemptAt := none, seq := s.nextNum, passes := 0 }
        s.summit.at_ s.cycle .contextSuspended { Args.none with a := g.ctx })

/-- All latches are lost (R321). -/
def Latches.allLost : Latches := { Latches.zero with lost := [.b0, .b1, .b2, .vb0, .vb1, .vb2, .vb3] }

/-- A saved tile on its new place (R137, R314, R318-R321), with the loop stack as it halted, a LIMIT that a request had lowered among it (log 118): `s1` is the first cycle in which it may issue, `h` the group's latest halt
cycle. -/
def State.restoreTile (s : State) (gid : Nat) (g : Group) (kseq s1 h r : Nat) (x : Tile) : State :=
  let t := g.tiles.getD r 0
  let old := s.getTile t
  let u := s.unitAt (massifOf t)
  let p0 := placeFor gid g kseq r
  let from_ := s1 + p0.delta * u
  let place := { p0 with task := x.place.task, taskFrom := max (x.place.taskFrom + (s1 - h)) s1 }
  let timed := x.io.timed.map fun k =>
    let d := k.deliver + (s1 - h)
    { k with deliver := d, op := { k.op with dest := t, deliver := some d } }
  let base :=
    { x with
      lat := Latches.allLost, loopBuf := [], bufFor := none, nextId := max x.nextId old.nextId
      io := { x.io with inbound := old.io.inbound, timed := old.io.timed ++ timed, bindings := x.io.bindings.map fun (b : Nat × Binding) => (b.1, s.renewBinding b.2) } }
  let tile :=
    match x.halt with
    | none => { base with place := { place with status := x.place.status } }
    | some f =>
      { base with
        halt := none
        flights := x.flights ++ f.records.map fun k => { k with due := from_ + k.due * u, issued := from_ - k.issued * u }
        mx := { x.mx with pending := x.mx.pending ++ x.mx.frozen.map (fun k => { k with due := from_ + k.due * u }), frozen := [] }
        regs := { x.regs with rrb := f.rrb }
        place := { place with status := if f.starting then .starting else if f.rewait.isEmpty then .issuing else .waiting, gated := !f.rewait.isEmpty }
        ctl := { x.ctl with levels := f.levels, nopre := f.nopre, pc := f.next, transfer := f.transfer, waits := f.rewait,
                            waited := none, preempt := none, held := 0, haltPoint := false, nextIssue := from_ } }
  let s := if tile.ganged && tile.ctl.entry.isSome then s.at_ from_ .gangStopSignal { Args.none with a := t } else s
  timed.foldl (fun s k => s.at_ k.deliver .timedRelease { Args.none with a := t, b := k.seq }) (s.setTile t tile)

/-- GROUP_RESUME (R304, R314, R318-R321): the tiles of group `a` are restored on their new places, all of which it has, and the group runs. -/
def execGroupResume (s : State) : Out :=
  let gid := s.args.a
  .next (
    match find s.groups gid with
    | none => s
    | some g =>
      if g.state ≠ .resuming ∨ s.ownTiles gid g ≠ g.tiles then s
      else
        let s1 := s.startCycle g false (s.cycle + 1)
        let h := g.haltMax
        let kseq := ((find s.launches g.launch).map (·.kseq)).getD 0
        let g' := { g with s0 := s1 + g.s0 - h, saved := [] }
        let s := { s with groups := put s.groups gid g' }
        let s := (g.saved.zipIdx).foldl (fun s e => s.restoreTile gid g' kseq s1 h e.2 e.1) s
        let s := s.renameSources (savedTiles gid g.size) g.tiles
        ((s.addHbm g.ctx (-((tileImage * g.size : Nat) : Int))).launchRuns g.launch).enterRunning gid)

/-! ### Contexts (R254) -/

/-- A CTX_SUSPEND or CTX_DESTROY packet of a context that is still at work. -/
def State.pendingCommand (s : State) (kind c : Nat) : Option (Nat × Packet) :=
  s.queues.findSome? fun e =>
    (e.2.packets.find? fun p => pkKind p.bytes == kind && cmdCtx p.bytes == c && !p.complete && !p.waiting && p.next == 1).map fun p => (e.1, p)

/-- A command that has taken effect later completes with a status. -/
def State.finishPending (s : State) (kind c code detail : Nat) : State :=
  match s.pendingCommand kind c with
  | some (qn, p) => s.finishCommand qn p code detail
  | none => s

/-- A packet waits at a place of its group, which does not run (R320). -/
def State.waitsForGroup (s : State) (p : Packet) : Bool :=
  p.held && p.pusher.any fun g => (find s.groups g.1).any fun x => x.state != .running

/-- Every packet that the context's queues have begun is complete or parked; one that waits for its group to run again is as a parked one
(log 79), and a launch waits with its group. -/
def State.packetsQuiet (s : State) (c : Nat) : Bool :=
  s.queues.all fun e => e.2.ctx != c || e.2.state == .free || e.2.packets.all fun p =>
    p.complete || p.parked || p.waiting || s.waitsForGroup p || pkKind p.bytes == 0x10 || (pkKind p.bytes == 0x2C && cmdCtx p.bytes == c)

/-- CONTEXT_SUSPENDED (R254): every tile of context `a` is halted and saved. -/
def execContextSuspended (s : State) : Out :=
  let c := s.args.a
  s.need c 1024 (
    match find s.contexts c with
    | none => s
    | some x =>
      let quiet := s.groups.all fun e => e.2.ctx != c || e.2.state == .switched || e.2.state == .ended || e.2.state == .discarded
      if x.state = .suspending ∧ quiet ∧ s.packetsQuiet c then
        (s.onCtx c fun x => { x with state := .suspended }).finishPending 0x2C c stOk 0
      else s)

/-! ### Teardown (R374-R376) -/

/-- The groups and launches of a context are discarded (R254, R375). -/
def State.discardWork (keep : Bool) (s : State) (c : Nat) : State :=
  let s := (s.groups.filter fun e => e.2.ctx == c).foldl (fun s e => s.discardGroup e.1 keep) s
  (s.launches.filter fun e => e.2.ctx == c && e.2.state != .done && e.2.state != .failed).foldl
    (fun s e => s.launchFails e.1 e.2 0x43 0) s

def State.stopQueues (s : State) (c : Nat) : State :=
  (s.queues.filter fun e => e.2.ctx == c && e.2.state != .free).foldl (fun s e => s.enterError e.1 false) s

/-- FATAL_TEARDOWN (R277, R374-R376): a fatal condition of context `a` tears down its fault domain, once for every condition that has arisen in
it, each of which every other context of the domain is told of; a context that migrates out serves no page any more. -/
def execFatalTeardown (s : State) : Out :=
  let c := s.args.a
  s.need c 1024 (
    match s.faultDomain c with
    | none => s
    | some d =>
      let domain := (s.contexts.filter fun e => e.2.state != .free && s.faultDomain e.1 == some d).map (·.1)
      let mine := fun (e : Nat × Instr × Args) => e.2.1 == .fatalTeardown && domain.contains e.2.2.a
      let origins := (c :: (s.timers.filter mine).map (·.2.2.a)).eraseDups
      let s := { s with timers := s.timers.filter fun e => !mine e }
      let s := origins.foldl (fun s o => (domain.filter (· != o)).foldl (fun s k => s.post (.plain 0x61 k o)) s) s
      let s := domain.foldl (State.discardWork true) s
      let s := domain.foldl State.stopQueues s
      (domain.foldl (fun s k =>
        match find s.contexts k with
        | none => s
        | some x =>
          if x.state = .running ∨ x.state = .suspending ∨ x.state = .suspended then
            (s.onCtx k fun x => { x with state := .faulted }).finishPending 0x2C k stBadstate 9
          else if x.state = .migratingOut then s.onCtx k fun x => { x with lostPages := true }
          else s) s).summit)

end Sys2Proof.Machine
end

