-- ==== Sys2Proof/Machine/Image.lean ====
section
/-! DEFINITION. The layouts that the spec gives to saved state: the trap and halt frames with their hold store, the MX state, the timed
hold store and the tile image (spec/05_scalar_control.md R145; spec/02_tile.md R33; spec/13_group.md R317, R318). -/

namespace Sys2Proof.Machine

/-! ### Parts -/

/-- Bytes cut to `n`, or filled up with zeros. -/
def fitTo (n : Nat) (bs : List Byte) : List Byte := bs.take n ++ List.replicate (n - bs.length) 0

/-- Registers of a file, `n` bytes each. -/
def fileBytes {k : Nat} {w : Nat} (n : Nat) (v : Vector (BitVec w) k) : List Byte := (v.toList.map fun x => natBytes x.toNat n).flatten

/-! ### Frames (R145) -/

/-- A record's class and its register number; a result for s0 or p0 reaches its latch alone (R145). -/
def Flight.classOf (f : Flight) : Nat × Nat :=
  match f.dest with
  | .s n _ => if n = 0 then (6, 0) else (1, n)
  | .a n => (2, n)
  | .v n => (3, n)
  | .q n => (4, n)
  | .p n => if n = 0 then (6, 0) else (5, n)
  | .acc p => (7, if p then 1 else 0)
  | _ => (6, 0)

/-- The 256-byte vectors that a record keeps in the hold store. -/
def Flight.held (f : Flight) : List (List Byte) :=
  match f.payload with
  | .lanes m v => [(List.range 256).map fun i => if m.getLsbD i then BitVec.ofNat 8 (v.toNat / 2 ^ (8 * i)) else 0]
  | .bits m v => [fitTo 256 (natBytes (v &&& m).toNat 32)]
  | .quire w => [fitTo 256 (natBytes w.toNat 128)]
  | .quireAdd (some v) => [fitTo 256 (natBytes (v % (2 ^ 1024 : Nat)).toNat 128)]
  | .quireAdd none => [fitTo 256 (natBytes (2 ^ 1023) 128)]
  | .laneAdd product _ _ a b => natBytes a.toNat 256 :: (if product then [natBytes b.toNat 256] else [])
  | .consts w => [fitTo 256 (natBytes w.toNat 128)]
  | _ => []

/-- The 16 bytes of a record whose vectors stand in the hold store from entry `k` on. -/
def Flight.recordBytes (f : Flight) (k : Nat) : List Byte :=
  let (c, n) := f.classOf
  let formats := match f.payload with
    | .laneAdd product a b _ _ => natBytes a 1 ++ natBytes (b + if product then 0 else 0x80) 1
    | _ => natBytes f.flags.toNat 2
  let value := match f.payload with
    | .word w => natBytes w.toNat 8
    | .laneAdd product _ _ _ _ => natBytes k 2 ++ natBytes (if product then k + 1 else 0) 2 ++ natBytes 0 4
    | .unread => natBytes 0 8
    | _ => natBytes k 8
  natBytes (c + (if f.nwb then 16 else 0) + 32 * f.syl) 1 ++ natBytes n 1 ++ natBytes f.due 1 ++ natBytes f.issued 1 ++ formats ++
    natBytes 0 2 ++ value

/-- The records of a frame, each with its first entry in the hold store. -/
def numberRecords : Nat → List Flight → List (Flight × Nat)
  | _, [] => []
  | k, f :: r => (f, k) :: numberRecords (k + f.held.length) r

/-- A level of a frame (R145). KIND is 0 for LOOP and 1 for LOOPM: R145 gives no codes (log 119). -/
def Level.bytes (l : Level) : List Byte :=
  natBytes l.pass 4 ++ natBytes l.ncount 4 ++ natBytes l.limit 4 ++ natBytes l.baseIt 4 ++ natBytes l.first 2 ++ natBytes l.last 2 ++
    natBytes (if l.loopm then 1 else 0) 1 ++ natBytes l.ii 1 ++ natBytes l.stages 1 ++ List.replicate 9 0

/-- FLAGS of a frame. -/
def Frame.flagByte (x : Frame) : Nat :=
  (if x.self then 1 else 0) + (if x.rewait.isEmpty then 0 else 2) + (if x.nopre then 8 else 0) + (if x.preempt.isSome then 16 else 0)

/-- The 1 KiB frame store; level 0, the outermost one, stands first. -/
def Frame.bytes (x : Frame) : List Byte :=
  let recs := (numberRecords 0 x.records).map fun e => e.1.recordBytes e.2
  natBytes x.cause 1 ++ natBytes x.scause 1 ++ natBytes x.flagByte 1 ++ natBytes (x.levels.length + 16 * x.rrb.toNat) 1 ++
    natBytes x.records.length 1 ++ List.replicate 3 0 ++ natBytes x.epc 4 ++ natBytes x.resume 4 ++ natBytes x.tval.toNat 8 ++
    List.replicate 8 0 ++ fitTo 192 (x.levels.reverse.map Level.bytes).flatten ++ fileBytes 8 x.latches.b ++ List.replicate 8 0 ++
    fitTo 512 recs.flatten ++ List.replicate 256 0

/-- The 9 KiB hold store: the vectors of the records, then vb0-vb3 (log 78). -/
def Frame.holdBytes (x : Frame) : List Byte := fitTo 8192 (x.records.map Flight.held).flatten.flatten ++ fileBytes 256 x.latches.vb

/-! ### The tile image (R317, R318) -/

/-- An entry of the timed hold store. -/
def Held.bytes (h : Held) : List Byte :=
  let (kind, alu, wide, data) := match h.op.kind with
    | .put bs => if bs.length = 256 then (2, 0, false, bs) else (1, 0, decide (bs.length = 8), fitTo 8 bs)
    | .atomic k => (3, k.op, decide (k.bits = 64), natBytes k.value 8)
  natBytes h.deliver 8 ++ natBytes h.op.offset 4 ++ natBytes kind 1 ++ natBytes (h.op.sem.getD 0) 1 ++
    natBytes ((if h.op.sem.isSome then 1 else 0) + (if wide then 2 else 0) + 4 * alu) 1 ++ List.replicate 17 0 ++ fitTo 256 data

/-- The MX state of a tile that has stopped: 69 chunks. -/
def Mx.image (m : Mx) : List Byte := ((List.range 69).map fun c => natBytes (m.chunk 0 1 true c).toNat 256).flatten

/-- The 128 bytes of control registers. -/
def Tile.controlBytes (t : Tile) : List Byte :=
  fitTo 128 (natBytes t.csr.vfmt.toNat 4 ++ natBytes t.csr.tstat.toNat 4 ++ natBytes t.csr.ten.toNat 4 ++ natBytes t.csr.clamp.toNat 4 ++
    natBytes t.csr.seed.toNat 8 ++ natBytes t.csr.tcause.toNat 1 ++ natBytes t.csr.epc.toNat 2 ++ natBytes t.place.task 2 ++
    natBytes (if t.ctl.nopre then 1 else 0) 1)

/-- A frame store, zero while nothing has entered it. -/
def frameBytes (f : Option Frame) : List Byte := fitTo 1024 ((f.map Frame.bytes).getD [])

/-- The 519,168-byte image of a tile; `lead`: its own instruction memory is fetched. -/
def Tile.image (t : Tile) (lead : Bool) : List Byte :=
  t.spad.bytes 0 393216 ++ (if lead then t.imem.bytes 0 65536 else List.replicate 65536 0) ++ t.mx.image ++ fileBytes 256 t.regs.v ++
    fitTo 9216 ((t.halt.map Frame.holdBytes).getD []) ++ frameBytes t.frame ++
    (t.sems.toList.map fun s => natBytes (s.count.toNat + s.expect.toNat * 2 ^ 32) 8).flatten ++ fileBytes 128 t.regs.q ++
    fileBytes 8 t.regs.s ++ fileBytes 8 t.regs.h ++ fileBytes 4 t.regs.a ++ fileBytes 4 t.regs.table ++ fileBytes 32 t.regs.p ++
    fileBytes 4 t.regs.k ++ t.controlBytes ++ frameBytes t.halt ++ List.replicate 256 0 ++ fitTo 18432 (t.io.timed.map Held.bytes).flatten

end Sys2Proof.Machine
end

