-- ==== Sys2Proof/Machine/Cairn.lean ====
section
/-! DEFINITION. What a cairn holds and how it is sealed: keys, quotes, the payload and its image (spec/10_context.md R268-R275). -/

namespace Sys2Proof.Machine

/-! ### Codes -/

/-- State codes of R253. -/
def CtxState.code : CtxState → Nat
  | .free => 0
  | .created => 1
  | .running => 2
  | .suspending => 3
  | .suspended => 4
  | .sealing => 5
  | .sealed => 6
  | .restoring => 7
  | .migratingOut => 8
  | .faulted => 9
  | .haltedDiverged => 10

/-- State codes of a counter slot, the detail of REHOME's BADSTATE: R266 gives the detail for a context's state alone (log 122). -/
def SlotState.code : SlotState → Nat
  | .free => 0
  | .live => 1
  | .moving => 2
  | .forward => 3

/-! ### Keys and quotes (R269, R271) -/

def toNats (bs : List Byte) : List Nat := bs.map (·.toNat)
def ofNats (l : List Nat) : List Byte := l.map (BitVec.ofNat 8)

/-- The image key: HMAC-SHA-256 of KEY over the measurement and the counter. -/
def imageKey (key : Nat) (measure : List Byte) (counter : Nat) : List Byte :=
  ofNats (Sha.hmac (toNats (natBytes key 32)) (toNats (measure ++ natBytes counter 8)))

/-- A module's identity certificate. -/
def certificateOf (m : Nat) : List Byte := (List.range (Config.certLength m)).map (Config.certByte m)

/-- SHA-256 of a module's firmware measurements. -/
def firmwareOf (m : Nat) : List Byte := (List.range 32).map (Config.firmwareByte m)

/-- The form of a policy (R269). -/
def policyOk (bs : List Byte) : Bool :=
  decide (1 ≤ fieldOf bs 0 1) && decide (fieldOf bs 0 1 ≤ 4) && decide (fieldOf bs 1 1 < 2) && zeroIn bs 2 16

/-- The ACCEPT entries of a policy. -/
def acceptList (policy : List Byte) : List (List Byte) := (List.range (fieldOf policy 0 1)).map fun i => (policy.drop (16 + 32 * i)).take 32

/-- Whether module `m` satisfies a policy at a home; `quoteOk`: its certificate verifies, and its quote over a fresh nonce (R269). -/
def State.attested (s : State) (policy : List Byte) (m : Nat) (quoteOk : Bool) : Bool :=
  quoteOk && (acceptList policy).contains (if m = s.globals.modIdx then s.globals.measured else firmwareOf m) && (!(fieldOf policy 1 1).testBit 0 || s.globals.present.contains m)

/-! ### The payload (R273) -/

/-- A section filled up to a multiple of 256 bytes. -/
def padded (bs : List Byte) : List Byte := bs ++ List.replicate ((256 - bs.length % 256) % 256) 0

/-- A record whose layout the spec does not give. -/
def openRecord (section_ : Nat) (l : List Nat) : List Byte := (List.range (Config.openLength section_ l)).map (Config.openByte section_ l)

/-- The values of a context record. -/
def Context.values (x : Context) : List Nat :=
  [x.partition, x.pasid, x.rcb, x.lineage, x.home, leNat x.measure, x.credit.toNat] ++ x.digests.map leNat ++
    (x.completions.map fun e => [e.1, e.2.1, if e.2.2 then 1 else 0]).flatten

/-- The values of a group header (R317): identity, grid, gang shape, S0, what is left of the slice, bindings and barriers. -/
def Group.values (g : Group) : List Nat :=
  [g.launch, g.gw, g.size, lastRow g.size g.gw, g.kernel.gangW, g.kernel.gangH, g.kernel.skew, g.s0, g.sliceEnd] ++
    (g.kernel.bindings.map fun e => [e.1, e.2.kind, e.2.queue]).flatten ++
    (g.barriers.toList.map fun b => [b.target, b.count, b.phase.toNat]).flatten

/-- A group's saved image: its header, then the tile images in RANK order. -/
def Group.image (g : Group) : List Byte :=
  (List.range 256).map (Config.openByte 5 g.values) ++ (g.saved.map fun t => t.image (t.place.dx == 0 && t.place.dy == 0)).flatten

/-- The fields of a translation record beside its range entries (R341). -/
def Translation.values (x : Translation) : List Nat :=
  [x.s1root, x.s2root, x.pullSrc, x.pullCount, x.fqBase, x.fqLog, x.mqBase, x.mqLog, x.thresh]

/-- Range entry `i` of a stage (R342). -/
def rangeBytes (l : List (Nat × RangeEntry)) : List Byte :=
  ((List.range 256).map fun i => match find l i with
    | some e => natBytes e.base 8 ++ natBytes e.last 8 ++ natBytes e.out 8 ++ natBytes e.ctl 8
    | none => List.replicate 32 0).flatten

/-- The values of a binding table. -/
def bindingValues (l : List (Nat × Binding)) : List Nat := (l.map fun e => [e.1, e.2.kind, e.2.queue, e.2.wrsh.toNat, e.2.donesh.toNat, e.2.status.toNat]).flatten

/-- The sections of R273. -/
def Cairn.payload (k : Cairn) : List Byte :=
  let bindings := (k.groups.map fun g => (g.saved.map fun t => bindingValues t.io.bindings).flatten).flatten
  padded (openRecord 1 k.context.values) ++ padded k.rcb.flatten ++
    padded ((k.queues.map fun e => e.2.descriptor).flatten ++ openRecord 3 bindings ++ k.ring.2) ++
    padded (openRecord 4 (k.rights.map fun r => [r.gate, r.ctx, if r.post then 1 else 0, if r.wait then 1 else 0, r.doff]).flatten) ++
    (k.groups.map fun g => padded g.image).flatten ++
    padded (openRecord 6 k.context.xlat.values ++ rangeBytes k.context.xlat.s1range ++ rangeBytes k.context.xlat.s2range ++ (k.tables.map (·.2)).flatten) ++
    padded (k.pages.map (·.2)).flatten

/-! ### The image (R272) -/

/-- "KWCAIRN1". -/
def cairnMagic : List Byte := [0x4B, 0x57, 0x43, 0x41, 0x49, 0x52, 0x4E, 0x31]

def chunksOf (paylen : Nat) : Nat := (paylen + 2 ^ 20 - 1) / 2 ^ 20
/-- Image length: header, chunks with their tags, trailer. -/
def cairnLength (paylen : Nat) : Nat := 128 + paylen + 16 * chunksOf paylen + 384

/-- The header of R272. -/
def cairnHeader (mode lineage home slot counter : Nat) (measure : List Byte) (source paylen : Nat) : List Byte :=
  cairnMagic ++ natBytes 1 4 ++ natBytes mode 4 ++ natBytes lineage 8 ++ natBytes home 2 ++ natBytes slot 2 ++ natBytes 0 4 ++
    natBytes counter 8 ++ measure ++ natBytes (Config.sourceId source) 32 ++ natBytes paylen 8 ++ natBytes (chunksOf paylen) 4 ++ natBytes 0 12

/-- Chunk `i` of a payload under a key: the ciphertext and its tag. -/
def sealChunk (key payload : List Byte) (i : Nat) : List Byte × List Byte :=
  let n := toNats (natBytes i 8)
  let r := Aes.gcm (toNats key) (n ++ [0, 0, 0, 0]) n (toNats ((payload.drop (i * 2 ^ 20)).take (2 ^ 20)))
  (ofNats r.1, ofNats r.2)
def sealChunks (key payload : List Byte) : List (List Byte × List Byte) := (List.range (chunksOf payload.length)).map (sealChunk key payload)

/-- The signature of a module over a header and the tags. -/
def signature (source salt : Nat) (header : List Byte) (tags : List (List Byte)) : List Byte :=
  let d := leNat (shaBytes (header ++ tags.flatten))
  (List.range 384).map (Config.signByte source salt d)

/-- The image of a cairn behind its header. -/
def Cairn.body (k : Cairn) (header payload : List Byte) : List Byte :=
  let cs := sealChunks k.key payload
  (cs.map fun c => c.1 ++ c.2).flatten ++ signature k.source k.salt header (cs.map (·.2))

/-! ### What is sealed -/

/-- The tables of a context's stage 2 with their bytes, in the order of a walk; with `pull` every present leaf is marked to be pulled. -/
def State.stage2Tables (s : State) (pull : Bool) : Nat → Nat → List (Nat × List Byte)
  | table, level =>
    let es := (List.range 512).map fun i => s.dpaNat (table + 8 * i) 8
    let mark := fun (v : Nat) => if pull ∧ v % 4 = 3 ∧ !entryMalformed 2 level v then v - 1 else v
    (table, (es.map fun v => natBytes (mark v) 8).flatten) :: (es.map fun v =>
      if v % 4 = 1 ∧ !entryMalformed 2 level v then
        match level with
        | 0 => []
        | l + 1 => s.stage2Tables pull (entryAddr v) l
      else []).flatten
  termination_by structural _ level => level

/-- The tables of a context's stage 1, where stage 2 reaches them. -/
def State.stage1Tables (s : State) (c : Nat) : Nat → Nat → List (Nat × List Byte)
  | table, level =>
    match s.stage2 c 0 table false with
    | .ok _ a =>
      let es := (List.range 512).map fun i => s.dpaNat (a + 8 * i) 8
      (a, s.dpaBytes a 4096) :: (es.map fun v =>
        if v % 4 = 1 ∧ !entryMalformed 1 level v then
          match level with
          | 0 => []
          | l + 1 => s.stage1Tables c (entryAddr v) l
        else []).flatten
    | _ => []
  termination_by structural _ level => level

/-- The leaves of stage 2: GPA, address, size. -/
def State.stage2Leaves (s : State) : Nat → Nat → Nat → List (Nat × Nat × Nat)
  | table, gpa, level =>
    ((List.range 512).map fun i =>
      let v := s.dpaNat (table + 8 * i) 8
      let g := gpa + i * pageSize level
      if v % 4 = 0 ∨ entryMalformed 2 level v then []
      else if v % 4 = 1 then
        match level with
        | 0 => []
        | l + 1 => s.stage2Leaves (entryAddr v) g l
      else if v % 4 = 3 then [(g, entryAddr v, pageSize level)] else []).flatten
  termination_by structural _ _ level => level

/-- The 4 KiB pages of a leaf. -/
def leafPages (p : Nat × Nat × Nat) : List (Nat × Nat × Nat) := (List.range (p.2.2 / 4096)).map fun i => (p.1 + 4096 * i, p.2.1 + 4096 * i, 4096)

/-- The device pages that a context maps, in ascending GPA: those of range entries, and those of the tables under no range entry. -/
def State.mappedPages (s : State) (x : Context) : List (Nat × List Byte) :=
  let r := x.xlat.s2range
  let ranges := (r.map fun e => ((List.range ((e.2.last + 1 - e.2.base) / 4096)).map fun i =>
    (e.1, e.2.base + 4096 * i, e.2.out + 4096 * i, 4096))).flatten.filter fun p => (rangeHit r p.2.1).map (·.1) == some p.1
  let leaves := ((if x.xlat.s2root = 0 then [] else s.stage2Leaves x.xlat.s2root 0 3).flatMap leafPages).filter fun p => (rangeHit r p.1).isNone
  let all := (sortBy (·.1) (ranges.map (·.2) ++ leaves)).filter fun p => (s.dpa p.2.1).col.isSome
  all.map fun p => (p.2.1, s.dpaBytes p.2.1 p.2.2)

/-- The fault ring with its contents. -/
def State.ringBytes (s : State) (x : Context) : Nat × List Byte :=
  (x.xlat.fqBase, if x.xlat.fqBase = 0 then [] else s.dpaBytes x.xlat.fqBase (64 + 64 * 2 ^ x.xlat.fqLog))

/-- The rights of a context at the gates of this module and at those whose shadows stand here. -/
def State.rightsFor (s : State) (c : Nat) : List GateRight :=
  let here := (s.gates.map fun e => (e.2.acl.filter fun a => a.module == s.globals.modIdx && a.ctx == c).map fun a =>
    ({ gate := s.globals.modIdx * 2 ^ 12 + e.1, ctx := c, post := a.post, wait := a.wait, doff := a.doff } : GateRight)).flatten
  let away := (s.shadows.filter fun y => y.gate / 2 ^ 12 != s.globals.modIdx).map fun y =>
    (y.rights.filter fun r => r.1 == c).map fun r =>
      ({ gate := y.gate, ctx := c, post := r.2.1, wait := r.2.2, doff := (find y.doffs c).getD 0 } : GateRight)
  here ++ away.flatten.eraseDups

/-- What a cairn of mode `mode` seals; its launches and groups name one another by their places in the two lists. -/
def State.cairnOf (s : State) (c : Nat) (x : Context) (counter mode : Nat) (key : List Byte) : Cairn :=
  let groups := s.groups.filter fun e => e.2.ctx == c && e.2.state == .switched
  let launches := s.launches.filter fun e => e.2.ctx == c && e.2.live
  let groupAt := fun (n : Nat) => groups.findIdx? fun e => e.1 == n
  let launchAt := fun (n : Nat) => (launches.findIdx? fun e => e.1 == n).getD 0
  let member := fun (p : Option (Nat × Nat)) => p.bind fun e => (groupAt e.1).map fun g => (g, e.2)
  let queueOf := fun (q : Queue) =>
    { q with
      owners := q.owners.filterMap fun e => (groupAt e.2.1).map fun g => (e.1, g, e.2.2)
      packets := q.packets.map fun p => { p with pusher := member p.pusher } }
  let source := fun (o : RemoteOp) =>
    if isSaved o.src then match groupAt ((o.src - savedBase) / 2 ^ 18) with
      | some i => { o with src := savedTile i (o.src % 2 ^ 18) }
      | none => o
    else o
  let held := fun (t : Tile) => t.onIo fun p => { p with timed := p.timed.map fun h => { h with op := source h.op } }
  let tables1 := if x.xlat.s1root = 0 then [] else s.stage1Tables c x.xlat.s1root 4
  let tables2 := if x.xlat.s2root = 0 then [] else s.stage2Tables (mode % 4 == 2) x.xlat.s2root 3
  { lineage := x.lineage, counter := counter, source := s.globals.modIdx, mode := mode, context := x,
    groups := groups.map fun (e : Nat × Group) => { e.2 with launch := launchAt e.2.launch, saved := e.2.saved.map held },
    launches := launches.map fun (e : Nat × Launch) => { e.2 with group := e.2.group.bind groupAt },
    queues := (s.queues.filter fun e => e.2.ctx == c && e.2.state != .free).map fun e => (e.1, queueOf e.2),
    rcb := (s.rcbPath x.rcb 6).map fun a => s.dpaBytes a 256, ring := s.ringBytes x, rights := s.rightsFor c, tables := tables1 ++ tables2,
    pages := if mode.testBit 2 then s.mappedPages x else [], key := key, salt := Config.freeWord s.freeCtr }

end Sys2Proof.Machine
end

