-- ==== Sys2Proof/Machine/Context.lean ====
section
/-! DEFINITION. Contexts, partitions, lineages and cairns (spec/10_context.md R253-R277, R401). -/

namespace Sys2Proof.Machine

/-! ### Codes and lookups -/

/-- The slot that a FORWARD slot comes to over slots of this module (R270, R276). -/
def State.followSlot (s : State) : Nat → Nat × Counter → Nat × Counter
  | 0, e => e
  | fuel + 1, (n, k) =>
    if k.state = .forward ∧ k.fwd.1 = s.globals.modIdx then
      match find s.counters k.fwd.2 with
      | some j => if j.lineage = k.lineage ∧ j.state ≠ .free then s.followSlot fuel (k.fwd.2, j) else (n, k)
      | none => (n, k)
    else (n, k)

/-- The counter slot of a lineage on this module: the one that is its home, else one that leads on, which is the one that a request names (R270)
or, for one that names none, the lowest; else one that led on. -/
def State.slotOf (s : State) (lineage : Nat) (named : Option Nat := none) : Option (Nat × Counter) :=
  let at_ := fun (st : SlotState) => s.counters.find? fun e => e.2.lineage == lineage && e.2.state == st
  let asked := named.bind fun n => s.counters.find? fun e => e.1 == n && e.2.lineage == lineage && e.2.state == .forward
  match at_ .live, at_ .moving, asked <|> at_ .forward with
  | some e, _, _ => some e
  | none, some e, _ => some e
  | none, none, some e => some (s.followSlot 4096 e)
  | none, none, none => at_ .free

/-- The lowest free counter slot. -/
def State.freeSlot (s : State) : Option Nat :=
  (List.range 4096).find? fun n => match find s.counters n with
    | some c => c.state == .free
    | none => true

/-- The home of a lineage as this module reaches it. -/
inductive Home where
  /-- A LIVE slot of this module. -/
  | here (slot : Nat) (c : Counter)
  /-- Another module and, where a FORWARD slot leads there, its slot; or this one while the slot moves. -/
  | away (m : Nat) (slot : Option Nat)
  /-- This module, which holds no slot of the lineage. -/
  | absent
  /-- A module that is not present, or this module where the forwarding slot has been released (R276, R401). -/
  | unreached

def State.home (s : State) (module lineage : Nat) : Home :=
  if module ≠ s.globals.modIdx then (if s.globals.present.contains module then .away module none else .unreached)
  else
    match s.slotOf lineage with
    | none => if s.released.contains lineage then .unreached else .absent
    | some (n, c) =>
      match c.state with
      | .live => .here n c
      | .free => .unreached
      | .forward => if c.fwd.1 = module then .unreached else .away c.fwd.1 (some c.fwd.2)
      | .moving => .away module none

def State.setCounter (s : State) (n : Nat) (c : Counter) : State := { s with counters := put s.counters n c }

/-- What a module's controller opens of a wrapped key. -/
def Wrapped.content? (w : Wrapped) (m : Nat) : Option (List Byte) := if w.receiver = m then some w.content else none

/-- A request of this module for a slot; one whose slot moves from here waits at it (R270). -/
def State.askHome (s : State) (p : Packet) (n m : Nat) (slot : Option Nat) (r : LineageReq) : Cmd :=
  let r := { r with packet := some (s.args.a, p.index), slot := slot }
  match s.slotOf r.lineage, decide (m = s.globals.modIdx) with
  | some (i, k), true => (s.setCounter i { k with held := k.held ++ [r] }).asks p n []
  | _, _ => s.asks p n [.lineage m r]

/-- The request of a step at the home, with a quote and this module's certificate. -/
def State.request (s : State) (kind lineage : Nat) : LineageReq :=
  { kind := kind, lineage := lineage, counter := 0, source := s.globals.modIdx, quoteOk := true, measure := [], src := s.globals.modIdx,
    cert := certificateOf s.globals.modIdx, key := ⟨s.globals.modIdx, []⟩, policy := [], packet := none }

/-! ### CTX_CREATE (R254, R257, R263, R268) -/

/-- A node stands in this module's own HBM4E or LPDDR-6, aligned. -/
def State.nodeHere (s : State) (x : Nat) : Bool := x % 256 == 0 && (s.dpa x).col.isSome

/-- Nodes from the bound one to the top: levels, slices and the context number (R257). A node that is not aligned, or lies in the host window or
on another module, is MALFORMED as a wrong level is: R255 and R257 give no status for it (log 115). -/
def State.chainOk (s : State) (rcb ctx : Nat) : Bool :=
  let p := s.rcbPath rcb 6
  p.all s.nodeHere && (p.zipIdx).all (fun (x, i) => s.devNat (x + 8) 1 + i + 1 == p.length && decide (12800 ≤ s.devNat (x + 0x1C) 4)) &&
    s.devNat (s.ownBase rcb + 0x38) 4 == ctx

/-- What CTX_CREATE reads of a chain: its nodes up to the first that stands elsewhere, whose address may name no memory (R21). -/
def State.chainReads (s : State) (rcb : Nat) : List (Nat × Nat) :=
  let p := s.rcbPath rcb 6
  (p.take ((p.takeWhile s.nodeHere).length + 1)).map (·, 64)

/-- An RCB node as it is measured: bytes 0x000-0x03B with the hardware's fields zero (R263). -/
def State.measuredNode (s : State) (x : Nat) : List Byte :=
  s.dpaBytes x 0x20 ++ List.replicate 0x18 0 ++ s.dpaBytes (x + 0x38) 4

/-- A new translation record (R341). -/
def Translation.zero : Translation :=
  { s1root := 0, s2root := 0, s1range := [], s2range := [], pullSrc := 0xFFFF, pullCount := 0, fqBase := 0, fqLog := 0, mqBase := 0,
    mqLog := 0, thresh := 0 }

/-- CTX_CREATE (R254, R257, R263, R265, R268). Of several refusals the first in this order is given, as R254 gives none (log 116): the fields and
the policy's form, BADSTATE, the chain, a full partition, a full counter table. -/
def execCtxCreate (s : State) : Out :=
  s.command 0x2B (fun _ => true) fun s p =>
    let bs := p.bytes
    let c := cmdCtx bs
    let new := (cmdFlags bs).testBit 0
    let pasid := fieldOf bs 20 4
    let part := fieldOf bs 24 1
    let rcb := fieldOf bs 32 8
    let w := fieldOf bs 40 8
    let ok := decide (c < 1024) && decide (cmdFlags bs < 2) && decide (pasid < 2 ^ 20) && decide (part < 96) && zeroIn bs 25 32 && zeroIn bs 48 63 &&
      (new || (w / 2 ^ 56 == 0 && decide (bitsOf w 12 9 < 432)))
    if !ok then .done s stMalformed 0
    else s.reading (if new then [(w, 144)] else []) fun s =>
      if new && !policyOk (s.dpaBytes w 144) then .done s stMalformed 0
      else
      match find s.contexts c with
      | some x => .done s stBadstate x.state.code
      | none => s.reading (s.chainReads rcb) fun s =>
        if !s.chainOk rcb c then .done s stMalformed 0
        else if 16 ≤ (s.contexts.filter fun e => e.2.partition == part).length then .done s stNoresource 0
        else
          let m := (s.rcbPath rcb 6).reverse.foldl (fun m x => extendMeasure m 0x02 (shaBytes (s.measuredNode x))) (List.replicate 32 0)
          let make := fun (s : State) (lineage home : Nat) =>
            let x : Context :=
              { state := .created, partition := part, pasid := pasid, rcb := s.ownBase rcb, lineage := lineage, home := home, measure := m, digests := [],
                keepSealed := false, xlat := Translation.zero, completions := [], credit := 0, lostPages := false }
            { s with contexts := put s.contexts c x }
          if new then
            match s.freeSlot with
            | none => .done s stNoresource 0
            | some n =>
              let id := n + s.globals.modIdx * 2 ^ 12 + Config.freeWord s.freeCtr % 2 ^ 35 * 2 ^ 21
              let k : Counter :=
                { state := .live, lineage := id, key := Config.freeWord (s.freeCtr + 1) % 2 ^ 256, counter := 0, policy := s.dpaBytes w 144,
                  src := s.globals.modIdx, cert := certificateOf s.globals.modIdx, fwd := (0, 0), held := [] }
              .done (make ({ s with freeCtr := s.freeCtr + 2 }.setCounter n k) id s.globals.modIdx) stOk id
          else .done (make s w (bitsOf w 12 9)) stOk 0

/-! ### CTX_SUSPEND, CTX_RESUME, CTX_DESTROY (R254, R274) -/

/-- CTX_SUSPEND (R254): the command completes when the context is SUSPENDED. -/
def execCtxSuspend (s : State) : Out :=
  s.command 0x2C (fun _ => true) fun s p =>
    if p.next = 1 then .later s
    else
      s.withCtx p.bytes (decide (cmdFlags p.bytes = 0) && zeroIn p.bytes 20 63) fun c x =>
        if x.state ≠ .running then .done s stBadstate x.state.code
        else
          let s := s.onCtx c fun x => { x with state := .suspending }
          let s := (s.groups.filter fun e => e.2.ctx == c).foldl (fun s e => s.preemptGroup e.1) s
          let s := s.onPacket s.args.a p.index fun p => { p with next := 1 }
          .later (s.at_ s.cycle .contextSuspended { Args.none with a := c })

/-- A context runs again: its launches and groups are looked at. -/
def State.resumeContext (s : State) (c : Nat) : State :=
  let s := (s.onCtx c fun x => { x with state := .running, keepSealed := false }).pokeLaunches c
  ((s.launches.filter fun e => e.2.ctx == c && e.2.state == .check).foldl
    (fun s e => s.at_ s.cycle .launchCheck { Args.none with a := e.1 }) s).summit

/-- CTX_RESUME (R254, R274): after a SEAL with mode KEEP the home steps the counter first. -/
def execCtxResume (s : State) : Out :=
  s.command 0x2D (fun _ => true) fun s p =>
    s.withCtx p.bytes (decide (cmdFlags p.bytes = 0) && zeroIn p.bytes 20 63) fun c x =>
      if x.state = .haltedDiverged then .done (s.resumeContext c) stOk 0
      else if x.state ≠ .suspended then .done s stBadstate x.state.code
      else if !x.keepSealed then .done (s.resumeContext c) stOk 0
      else if p.next = 2 then s.answered [stHomeunreach, stExhausted] id (.done (s.resumeContext c) stOk 0)
      else
        match s.home x.home x.lineage with
        | .here n k =>
          if k.counter = 2 ^ 64 - 1 then .done s stExhausted 0
          else .done ((s.setCounter n { k with counter := k.counter + 1 }).resumeContext c) stOk 0
        | .away m k => s.askHome p 2 m k (s.request 2 x.lineage)
        | _ => .done s stHomeunreach 0

/-- HBM4E bytes and PULL entries that a stage-2 table and those below it map. -/
def State.mapped (s : State) : Nat → Nat → Nat × Nat
  | table, level =>
    ((List.range 512).map fun i =>
      let v := s.dpaNat (table + 8 * i) 8
      if v % 4 = 0 ∨ entryMalformed 2 level v then (0, 0)
      else if v % 4 = 1 then
        match level with
        | 0 => (0, 0)
        | l + 1 => s.mapped (entryAddr v) l
      else (s.entryHbm 2 level v, isPull 2 v)).foldl (fun a b => (a.1 + b.1, a.2 + b.2)) (0, 0)
  termination_by structural _ level => level

/-- The addresses of a stage-2 table and those below it. -/
def State.tablesBelow (s : State) : Nat → Nat → List Nat
  | table, level =>
    table :: match level with
      | 0 => []
      | l + 1 => ((List.range 512).map fun i =>
          let v := s.dpaNat (table + 8 * i) 8
          if v % 4 = 1 ∧ !entryMalformed 2 (l + 1) v then s.tablesBelow (entryAddr v) l else []).flatten
  termination_by structural _ level => level

/-- The HBM4E pages of a context return to their budgets; the errors met in its tables are counted (R378). -/
def State.releasePages (s : State) (c : Nat) (x : Context) : State :=
  if x.xlat.s2root = 0 then s
  else
    let n := (s.mapped x.xlat.s2root 3).1
    ((s.tablesBelow x.xlat.s2root 3).foldl (fun s t => (s.readErrors t 4096).1) s).addHbm c (-(n : Int))

/-- The images of groups that a teardown discarded give their charge back (R317, R375). -/
def State.releaseImages (s : State) (c : Nat) : State :=
  (s.groups.filter fun e => e.2.ctx == c && e.2.state == .discarded && !e.2.saved.isEmpty).foldl (fun s e =>
    (s.addHbm c (-((tileImage * e.2.size : Nat) : Int))).dropImages e.1) s

/-- The queue slots of a context return to their budgets. -/
def State.releaseSlots (s : State) (c : Nat) : State :=
  (s.queues.filter fun e => e.2.ctx == c && e.2.state != .free).foldl
    (fun s e => (s.returnSlots e.2).onQueue e.1 fun q => { q with charged := false }) s

/-- CTX_DESTROY (R254): work discarded as for a fatal fault, resources returned; the interfaces of the context are cut off. -/
def execCtxDestroy (s : State) : Out :=
  s.command 0x2E (fun _ => true) fun s p =>
    s.withCtx p.bytes (decide (cmdFlags p.bytes = 0) && zeroIn p.bytes 20 63) fun c x =>
      let s := ((s.discardWork false c).releaseImages c).finishPending 0x2C c stBadstate 0
      let s := (s.interfaces.filter fun e => e.2.state == 1 && e.2.bound.1 == c).foldl (fun s e => s.revokeInterface e.1 e.2) s
      let s := (s.stopQueues c).releaseSlots c
      let gone := fun (q : Queue) => if q.ctx = c ∧ q.state ≠ .free then { q with ctx := noCtx, regCtx := c } else q
      let s := s.releasePages c x
      .done { s with contexts := erase s.contexts c, queues := s.queues.map (fun (e : Nat × Queue) => (e.1, gone e.2)),
                     pulling := s.pulling.filter (fun y => y.ctx != c), tlb := s.tlb.filter (fun e => e.ctx != c),
                     sealing := erase s.sealing c }.summit stOk 0

/-! ### Cairns (R271-R275) -/

/-- Whether every byte of a range is memory that exists (R21): a byte of each 64 GiB block it meets, as the map differs between blocks
only (R20). -/
def State.rangeOk (s : State) (a n : Nat) : Bool :=
  let last := a + (n - 1)
  decide (last < 2 ^ 56) &&
    ((List.range (n / 2 ^ 36 + 2)).map (fun k => min last (max a ((a / 2 ^ 36 + k) * 2 ^ 36)))).all fun x => match s.dpa x with
      | .bad => false
      | _ => true

/-- A context sealed with mode RELEASE keeps its record, its rings, its queues, its launches and its switched groups; tiles, pages, those of
the images among them, and queue slots return (R254). -/
def State.releaseContext (s : State) (c : Nat) (x : Context) : State :=
  let s := (s.groups.filter fun e => e.2.ctx == c && !e.2.saved.isEmpty).foldl (fun s e =>
    (s.addHbm c (-((tileImage * e.2.size : Nat) : Int))).dropImages e.1) s
  let s : State := ({ s with pulling := s.pulling.filter (fun y => y.ctx != c), tlb := s.tlb.filter (fun e => e.ctx != c) }.releaseSlots
    c).releasePages c x
  s.onCtx c fun x =>
    { x with state := .sealed, xlat := { x.xlat with s1root := 0, s2root := 0, s1range := [], s2range := [], pullCount := 0 } }

/-- The state of a context that a command has at work. -/
def State.setCtxState (s : State) (c : Nat) (st : CtxState) : State := s.onCtx c fun x => { x with state := st }

/-- What a SEAL reads in device memory (R273). -/
def Cairn.sources (k : Cairn) : List (Nat × Nat) :=
  (k.tables ++ k.pages ++ (if k.ring.1 = 0 then [] else [k.ring])).map fun e => (e.1, e.2.length)

/-- A refused SEAL leaves the context SUSPENDED. -/
def State.sealFails (s : State) (c : Nat) : State := { s.setCtxState c .suspended with sealing := erase s.sealing c }

/-- Step 4 of SEAL (R271): what step 1 has found is written as an image under its counter and key, and the context takes its next state. In
the stacks of cols their own engines do it (R279). A destination behind a port that carries nothing ends the command (R365). -/
def State.writeCairn (s : State) (c : Nat) (x : Context) (mode dst home slot counter : Nat) (key : List Byte) : Cmd :=
  match find s.sealing c, s.portDown dst with
  | none, _ => .done s stBadstate x.state.code
  | _, some l => .fault { s.setCtxState c .suspended with sealing := erase s.sealing c } (.plain 0x0A 0 0 l)
  | some k, none =>
    let k := { k with counter := counter, key := key }
    let payload := k.payload
    let len := cairnLength payload.length
    let head := cairnHeader mode x.lineage home slot counter x.measure s.globals.modIdx payload.length
    let s := (k.sources ++ [(dst, len)]).foldl (fun s e => s.countCols c e.1 e.2) s
    let s := { s.dpaWrite dst (head ++ k.body head payload) with cairns := s.cairns ++ [k], sealing := erase s.sealing c }
    let s := s.onCtx c fun x => { x with home := home }
    let s :=
      if mode % 4 = 1 then s.releaseContext c x
      else if mode % 4 = 2 then s.onCtx c fun x => { x with state := .migratingOut, lostPages := false }
      else s.onCtx c fun x => { x with state := .suspended, keepSealed := true }
    .done s stOk len

/-- SEAL (R254, R271, R272): the first event finds what is to be sealed, makes the context SEALING and asks the home; in the second the flag
says that the quotes verify, or another home answers: `peer`, and in `req` itself, the counter and the wrapped key, with the slot in `c`. A
home that has moved meanwhile is asked again where it is (R270). -/
def execSeal (s : State) : Out :=
  s.command 0x24 (fun _ => true) fun s p =>
    let bs := p.bytes
    let f := cmdFlags bs
    let dst := fieldOf bs 24 8
    let dlen := fieldOf bs 32 8
    let here := s.globals.modIdx
    let ok := decide (f < 8) && f % 4 != 3 && !(f % 4 == 2 && f.testBit 2) && zeroIn bs 20 24 && decide (dst % 4096 = 0) && zeroIn bs 40 63
    s.withCtx bs ok fun c x =>
      let ask := fun (s : State) (m : Nat) (k : Option Nat) => s.askHome p 2 m k { s.request 0 x.lineage with measure := x.measure }
      let refuse := fun (s : State) (code : Nat) => Cmd.done (s.sealFails c) code 0
      if p.next = 0 then
        let k := s.cairnOf c x 0 f []
        let len := cairnLength k.payload.length
        if x.state ≠ .suspended then .done s stBadstate x.state.code
        else if dlen < len then .done s stToosmall 0
        else if !s.rangeOk dst len then .done s stMalformed 0
        else s.reading k.sources fun s =>
          let s' := { s.setCtxState c .sealing with sealing := put s.sealing c k, freeCtr := s.freeCtr + 1 }
          match s.home x.home x.lineage with
          | .here _ _ => s'.steps p 1
          | .away m k => ask s' m k
          | _ => .done s stHomeunreach 0
      else if x.state ≠ .sealing then .done s stBadstate x.state.code
      else if p.next = 2 then
        s.answered [stUnattested, stHomeunreach, stExhausted] (·.sealFails c)
          (match s.args.req.key.content? here with
            | some key => s.writeCairn c x f dst s.args.req.source s.args.c s.args.req.counter key
            | none => .later s)
      else
        match s.home x.home x.lineage with
        | .here n k =>
          if !s.attested k.policy here s.args.flag then refuse s stUnattested
          else if k.counter = 2 ^ 64 - 1 then refuse s stExhausted
          else
            (s.setCounter n { k with counter := k.counter + 1, src := here, cert := certificateOf here }).writeCairn c x f dst here n (k.counter + 1)
              (imageKey k.key x.measure (k.counter + 1))
        | .away m k => ask s m k
        | _ => refuse s stHomeunreach

/-- The stage-2 leaves of restored tables become PULL entries (R273, R277). -/
def State.markPull (s : State) : Nat → Nat → State
  | table, level =>
    (List.range 512).foldl (fun s i =>
      let a := table + 8 * i
      let v := s.dpaNat a 8
      if v % 4 = 0 ∨ entryMalformed 2 level v then s
      else if v % 4 = 1 then
        match level with
        | 0 => s
        | l + 1 => s.markPull (entryAddr v) l
      else if v % 4 = 3 then s.dpaWrite a (natBytes (v - 1) 8) else s) s
  termination_by structural _ level => level

/-- The rights of a sealed context are those of the context that takes its place (R277): in the gates of this module at once, whose
shadows are built again; another home is told. -/
def State.moveRights (s : State) (c source : Nat) (rights : List GateRight) : State :=
  let here := s.globals.modIdx
  let entry := fun (r : GateRight) (a : AclEntry) => if a.module = source ∧ a.ctx = r.ctx then { a with module := here, ctx := c } else a
  rights.foldl (fun s r =>
    if r.gate / 2 ^ 12 = here then
      match find s.gates (r.gate % 2 ^ 12) with
      | some g =>
        let g := { g with acl := g.acl.map (entry r), digests := g.digests.map fun d => (entry r d.1, d.2) }
        { s with gates := put s.gates (r.gate % 2 ^ 12) g }.at_ s.cycle .partitionChangeReport { Args.none with a := r.gate }
      | none => s
    else
      { s with sent := s.sent ++ [.toModule (r.gate / 2 ^ 12) "rights" r.gate ((source * 2 ^ 10 + r.ctx) * 2 ^ 19 + here * 2 ^ 10 + c)] }) s

/-- A restored queue takes a free number, with the groups that its packets came from. -/
def State.installQueue (s : State) (c base : Nat) (e : Nat × Queue) : State :=
  let old := s.queue e.1
  if old.state ≠ .free then s
  else
    let packet := fun (p : Packet) => { p with pusher := p.pusher.map fun g => (base + g.1, g.2) }
    let owners := e.2.owners.map fun o => (o.1, base + o.2.1, o.2.2)
    let q : Queue :=
      { e.2 with
        ctx := c, regCtx := 0, charged := true, life := old.life + 1, owners := owners, packets := e.2.packets.map packet }
    { s with queues := put s.queues e.1 q }.addQslots c q.slots

/-- Bindings name the restored queues of context `c`; one whose queue has not come with the image is empty. -/
def State.rebound (s : State) (c : Nat) (queues : List (Nat × Queue)) (l : List (Nat × Binding)) : List (Nat × Binding) :=
  l.filterMap fun b => match find queues b.2.queue with
    | some q => if q.life = b.2.life ∧ (s.queue b.2.queue).state ≠ .free ∧ (s.queue b.2.queue).ctx = c then
        some (b.1, { b.2 with life := (s.queue b.2.queue).life }) else none
    | none => none
def State.reboundKernel (s : State) (c : Nat) (queues : List (Nat × Queue)) (k : Kernel) : Kernel := { k with bindings := s.rebound c queues k.bindings }

/-- The source of a timed operation held in an image: a tile of group `i` of the image is one of group `first + i` here; another tile of the
module that sealed it is a tile of another module, unless it is this one. -/
def restoredSource (here source first n src : Nat) : Nat :=
  if isSaved src then (if (src - savedBase) / 2 ^ 18 < n then src + first * 2 ^ 18 else src)
  else if isLocal src ∧ source ≠ here then (source + 1) * 2 ^ 18 + src else src

/-- A restored tile: its bindings, the sources of what its hold store keeps, and of its own operations those that some tile of the image holds
for their cycle; the others count as applied (R318). -/
def State.restoredTile (s : State) (c first : Nat) (k : Cairn) (g r : Nat) (t : Tile) : Tile :=
  let name := restoredSource s.globals.modIdx k.source first k.groups.length
  let held := fun (n : Nat) => k.groups.any fun y => y.saved.any fun u => u.io.timed.any fun h => h.op.src == savedTile g r && h.op.id == n
  t.onIo fun p =>
    { p with
      bindings := s.rebound c k.queues p.bindings, remotes := p.remotes.filter held
      timed := p.timed.map fun h => { h with op := { h.op with src := name h.op.src } } }

/-- The payload is installed: the context takes the image's measurement, tables and rights, its groups wait for placement (R275). -/
def State.installCairn (s : State) (c : Nat) (k : Cairn) (home : Nat) (migrate : Bool) : State :=
  let ring := if k.ring.1 = 0 then [] else [k.ring]
  let s := (ring ++ k.tables ++ k.pages).foldl (fun s p => (s.countCols c p.1 p.2.length).dpaWrite p.1 p.2) s
  let y := k.context
  let xl := if migrate then { y.xlat with pullSrc := k.source } else y.xlat
  let s := s.onCtx c fun x =>
    { x with state := .suspended, measure := y.measure, digests := y.digests, completions := y.completions, xlat := xl, home := home, credit := y.credit }
  let part := ((find s.contexts c).map (·.partition)).getD 0
  let base := s.nextNum
  let first := base + k.launches.length
  let s := k.queues.foldl (State.installQueue · c first) s
  let launches : List (Nat × Launch) := k.launches.zipIdx.map fun ((l, i) : Launch × Nat) =>
    (base + i, { l with ctx := c, group := l.group.map (first + ·), kernel := l.kernel.map (s.reboundKernel c k.queues) })
  let groups : List (Nat × Group) := k.groups.zipIdx.map fun ((g, i) : Group × Nat) =>
    (first + i, { g with
      ctx := c, partition := part, launch := base + g.launch, kernel := s.reboundKernel c k.queues g.kernel
      saved := g.saved.zipIdx.map fun e => s.restoredTile c first k i e.2 e.1 })
  let s :=
    { s with
      launches := launches.foldl (fun acc (e : Nat × Launch) => put acc e.1 e.2) s.launches
      groups := groups.foldl (fun acc (e : Nat × Group) => put acc e.1 e.2) s.groups
      nextNum := first + groups.length }
  let s := s.addHbm c ((tileImage * (groups.map fun (e : Nat × Group) => e.2.size).foldl (· + ·) 0 : Nat) : Int)
  let s := if migrate ∧ xl.s2root ≠ 0 then s.markPull xl.s2root 3 else s
  let n := if xl.s2root = 0 then (0, 0) else s.mapped xl.s2root 3
  ((s.addHbm c n.1).onCtx c fun x => { x with xlat := { x.xlat with pullCount := n.2 } }).moveRights c k.source k.rights

/-- An image in memory as RESTORE reads it. -/
structure Sealed where
  header : List Byte
  body : List Byte
  paylen : Nat
  lineage : Nat
  counter : Nat
  home : Nat
  slot : Nat
deriving DecidableEq, Repr

def State.sealedAt (s : State) (src : Nat) : Sealed :=
  let h := s.dpaBytes src 128
  let paylen := fieldOf h 0x68 8
  { header := h, body := s.dpaBytes (src + 128) (cairnLength paylen - 128), paylen := paylen, lineage := fieldOf h 0x10 8,
    counter := fieldOf h 0x20 8, home := fieldOf h 0x18 2, slot := fieldOf h 0x1A 2 }

/-- The form of a header (R272). -/
def Sealed.form (i : Sealed) : Bool :=
  let h := i.header
  h.take 8 == cairnMagic && fieldOf h 8 4 == 1 && decide (fieldOf h 0x0C 4 < 8) && decide (i.lineage < 2 ^ 56) &&
    zeroIn h 0x1C 0x20 && zeroIn h 0x74 0x80 && fieldOf h 0x70 4 == chunksOf i.paylen

/-- The tags of an image, and its chunks with their tags. -/
def Sealed.tags (i : Sealed) : List (List Byte) :=
  (List.range (chunksOf i.paylen)).map fun n => (i.body.drop (n * (2 ^ 20 + 16) + min (2 ^ 20) (i.paylen - n * 2 ^ 20))).take 16
def Sealed.chunks (i : Sealed) : List Byte := i.body.take (i.paylen + 16 * chunksOf i.paylen)

/-- What an image seals, among the cairns sealed here and the one that comes from another module. -/
def State.cairnFor (s : State) (i : Sealed) : Option Cairn :=
  (s.cairns ++ s.args.cairn.toList).find? fun k =>
    k.payload.length == i.paylen &&
      i.header == cairnHeader k.mode i.lineage i.home i.slot i.counter k.context.measure k.source i.paylen

/-- The trailer and SOURCE verify against a certificate (R275). -/
def Sealed.verifies (i : Sealed) (k : Cairn) (cert : List Byte) : Bool :=
  cert == certificateOf k.source && i.body.drop (i.paylen + 16 * chunksOf i.paylen) == signature k.source k.salt i.header i.tags

/-- Step 4 of RESTORE: every chunk is checked under the key, and the payload installed. -/
def State.openCairn (s : State) (c src : Nat) (i : Sealed) (k : Cairn) (key : List Byte) (migrate : Bool) : Cmd :=
  let s := s.countCols c src (cairnLength i.paylen)
  if i.chunks == ((sealChunks key k.payload).map fun x => x.1 ++ x.2).flatten then .done (s.installCairn c k i.home migrate) stOk 0
  else .done (s.setCtxState c .created) stAuth 0

/-- RESTORE (R254, R275): the first event makes the context RESTORING; an image sealed on another module is `cairn`. With the home here
the second event's flag says that the quotes verify. Another home answers twice with `peer` and `req`: SRC's certificate, then the wrapped
key; the home is looked for again at each event (R270). -/
def execRestore (s : State) : Out :=
  s.command 0x25 (fun _ => true) fun s p =>
    let bs := p.bytes
    let src := fieldOf bs 24 8
    let slen := fieldOf bs 32 8
    let migrate := (cmdFlags bs).testBit 0
    let ok := decide (cmdFlags bs < 2) && zeroIn bs 20 24 && decide (src % 4096 = 0) && zeroIn bs 40 63
    s.withCtx bs ok fun c x =>
      let i := s.sealedAt src
      let undo := fun (s : State) => s.setCtxState c .created
      let refuse := fun (s : State) (code : Nat) => Cmd.done (undo s) code 0
      if p.next = 0 then
        if x.state ≠ .created then .done s stBadstate x.state.code
        else if slen < 128 then .done s stToosmall 0
        else if !s.rangeOk src slen then .done s stMalformed 0
        else if !i.form then .done s stMalformed 0
        else if slen < cairnLength i.paylen then .done s stToosmall 0
        else if i.lineage ≠ x.lineage then .done s stAuth 0
        else s.reading [(src, cairnLength i.paylen)] fun s =>
          match s.home i.home i.lineage with
          | .here _ _ => (s.setCtxState c .restoring).steps p 1
          | .away m j => (s.setCtxState c .restoring).askHome p 2 m (j <|> some i.slot) (s.request 4 i.lineage)
          | .absent => .done s stAuth 0
          | .unreached => .done s stHomeunreach 0
      else if x.state ≠ .restoring then .done s stBadstate x.state.code
      else
        match p.next, s.cairnFor i with
        | _, none => refuse s stAuth
        | 1, some k =>
          match s.home i.home i.lineage with
          | .here n l =>
            if !i.verifies k l.cert then refuse s stAuth
            else if !s.attested l.policy s.globals.modIdx s.args.flag then refuse s stUnattested
            else if i.counter < l.counter then refuse s stStale
            else if l.counter < i.counter ∨ k.source ≠ l.src then refuse s stAuth
            else if i.counter = 2 ^ 64 - 1 then refuse s stExhausted
            else
              (s.setCounter n { l with counter := i.counter + 1 }).openCairn c src i k (imageKey l.key k.context.measure i.counter) migrate
          | .away m j => s.askHome p 2 m (j <|> some i.slot) (s.request 4 i.lineage)
          | _ => refuse s stHomeunreach
        | 2, some k =>
          s.answered [stAuth, stHomeunreach] undo (
            if !i.verifies k s.args.req.cert then refuse s stAuth
            else
              match s.home i.home i.lineage with
              | .away m j =>
                s.askHome p 3 m (j <|> some i.slot) { s.request 1 i.lineage with counter := i.counter, measure := k.context.measure, src := k.source }
              | .here _ _ => s.steps p 1
              | _ => refuse s stHomeunreach)
        | _, some k =>
          s.answered [stStale, stUnattested, stAuth, stHomeunreach, stExhausted] undo
            (match s.args.req.key.content? s.globals.modIdx with
              | some key => s.openCairn c src i k key migrate
              | none => .later s)

/-! ### Lineages (R268-R276) -/

/-- A slot that does not move any more is LIVE; the requests it held are looked at again, or sent on with it. -/
def State.slotStays (s : State) (n : Nat) (k : Counter) : State :=
  k.held.foldl (fun s r => s.at_ s.cycle .lineageRequest { Args.none with req := r }) (s.setCounter n { k with state := .live, held := [] })
def State.slotGoes (s : State) (n : Nat) (k : Counter) (home m : Nat) : State :=
  let s := s.setCounter n { k with state := .forward, fwd := (home, m), key := 0, held := [] }
  if home = s.globals.modIdx then k.held.foldl (fun s r => s.at_ s.cycle .lineageRequest { Args.none with req := r }) s
  else { s with sent := s.sent ++ k.held.map fun r => Message.lineage home { r with slot := some m } }

/-- REHOME (R276): the first event makes the slot MOVING and asks for the new home's quote; the flag of the second says that it verifies,
and the slot's contents go there; the third brings the new slot's number in the detail of `peer`. -/
def execRehome (s : State) : Out :=
  s.command 0x2F (fun _ => true) fun s p =>
    let bs := p.bytes
    let lineage := fieldOf bs 24 8
    let home := fieldOf bs 32 2
    let ok := decide (cmdFlags bs < 2) && zeroIn bs 20 24 && decide (lineage < 2 ^ 56) && decide (home < 432) && zeroIn bs 34 63
    let here := s.globals.modIdx
    if !ok then .done s stMalformed 0
    else if (cmdFlags bs).testBit 0 then
      match s.counters.find? (fun e => e.2.lineage == lineage && e.2.state == .forward), s.slotOf lineage with
      | some (n, k), _ => .done { s.setCounter n { k with state := .free } with released := s.released ++ [lineage] } stOk 0
      | none, some (_, k) => .done s stBadstate k.state.code
      | none, none => .done s stBadstate 0
    else
      match s.slotOf lineage with
      | none => .done s stBadstate 0
      | some (n, k) =>
        let refuse := fun (s : State) (code : Nat) => Cmd.done (s.slotStays n k) code 0
        match p.next with
        | 0 =>
          if k.state ≠ .live then .done s stBadstate k.state.code
          else if home = here then (s.setCounter n { k with state := .moving }).steps p 1
          else if !s.globals.present.contains home then .done s stHomeunreach 0
          else (s.setCounter n { k with state := .moving }).asks p 2 [.lineage home (s.request 5 lineage)]
        | j + 1 =>
          if k.state ≠ .moving then .done s stBadstate k.state.code
          else if j < 2 ∧ !s.attested k.policy home s.args.flag then refuse s stUnattested
          else if home = here then
            match s.freeSlot with
            | none => refuse s stNoresource
            | some m => .done ((s.setCounter m { k with state := .live, held := [] }).slotGoes n k home m) stOk m
          else if j = 1 then
            s.asks p 3 [.lineage home { s.request 3 lineage with
              counter := k.counter, src := k.src, cert := k.cert, key := ⟨home, natBytes k.key 32⟩, policy := k.policy }]
          else
            let m := s.args.peer.detail.toNat
            s.answered [stNoresource, stUnattested, stHomeunreach] (·.slotStays n k) (.done (s.slotGoes n k home m) stOk m)

/-- What a command that has asked another module leaves when no answer comes (R254, R276). -/
def State.undoCommand (s : State) (bs : List Byte) : State :=
  let c := cmdCtx bs
  let undo := fun (st back : CtxState) => s.onCtx c fun x => if x.state = st then { x with state := back } else x
  match pkKind bs with
  | 0x24 => { undo .sealing .suspended with sealing := erase s.sealing c }
  | 0x25 => undo .restoring .created
  | 0x2F =>
    match s.slotOf (fieldOf bs 24 8) with
    | some (n, k) => if k.state = .moving then s.slotStays n k else s
    | none => s
  | _ => s

/-- The answer to a request of this module goes to the command that asked. -/
def State.answerOwn (s : State) (code slot : Nat) (r : LineageReq) : State :=
  match r.packet with
  | none => s
  | some (q, i) =>
    let x := { Args.none with a := q, b := i, c := slot, peer := ⟨BitVec.ofNat 8 code, 0⟩, req := r }
    match ((find s.queues q).bind fun y => y.packets.find? fun p => p.index == i).map (pkKind ·.bytes) with
    | some 0x24 => s.at_ s.cycle .seal x
    | some 0x25 => s.at_ s.cycle .restore x
    | some 0x2D => s.at_ s.cycle .ctxResume x
    | _ => s

/-- LINEAGE_REQUEST (R270, R271, R274-R276): the security controller of this module answers request `req`, which a FORWARD slot sends on to the
slot that FWD names; a key leaves it wrapped for the
module that asks (R268, R269). -/
def execLineageRequest (s : State) : Out :=
  let r := s.args.req
  let here := s.globals.modIdx
  let answer := fun (s : State) (code counter slot : Nat) (key cert : List Byte) =>
    let a := { r with source := here, counter := counter, key := ⟨r.source, key⟩, cert := cert, policy := [] }
    if r.source = here then s.answerOwn code slot a else ({ s with sent := s.sent ++ [.lineageAnswer r.source code slot a] } : State)
  .next (
    if r.kind = 5 then answer s stOk 0 0 [] (certificateOf here)
    else if r.kind = 3 then
      match s.freeSlot, r.key.content? here with
      | none, _ => answer s stNoresource 0 0 [] []
      | some _, none => s
      | some n, some key =>
        let k : Counter :=
          { state := .live, lineage := r.lineage, key := leNat key, counter := r.counter, policy := r.policy, src := r.src, cert := r.cert,
            fwd := (0, 0), held := [] }
        answer (s.setCounter n k) stOk 0 n [] []
    else
      match s.slotOf r.lineage r.slot with
      | none => answer s (if s.released.contains r.lineage then stHomeunreach else stAuth) 0 0 [] []
      | some (n, k) =>
        match k.state with
        | .forward =>
          if k.fwd.1 = here then answer s stHomeunreach 0 0 [] [] else { s with sent := s.sent ++ [.lineage k.fwd.1 { r with slot := some k.fwd.2 }] }
        | .moving => s.setCounter n { k with held := k.held ++ [r] }
        | .free => answer s stHomeunreach 0 0 [] []
        | .live =>
          let ok := s.attested k.policy r.source r.quoteOk && s.attested k.policy here true
          if r.kind = 4 then answer s stOk 0 n [] k.cert
          else if r.kind = 2 then
            if k.counter = 2 ^ 64 - 1 then answer s stExhausted 0 0 [] []
            else answer (s.setCounter n { k with counter := k.counter + 1 }) stOk (k.counter + 1) n [] []
          else if !ok then answer s stUnattested 0 0 [] []
          else if r.kind = 0 then
            if k.counter = 2 ^ 64 - 1 then answer s stExhausted 0 0 [] []
            else
              answer (s.setCounter n { k with counter := k.counter + 1, src := r.source, cert := r.cert }) stOk (k.counter + 1) n
                (imageKey k.key r.measure (k.counter + 1)) []
          else if r.counter < k.counter then answer s stStale 0 0 [] []
          else if k.counter < r.counter ∨ r.src ≠ k.src then answer s stAuth 0 0 [] []
          else if r.counter = 2 ^ 64 - 1 then answer s stExhausted 0 0 [] []
          else answer (s.setCounter n { k with counter := r.counter + 1 }) stOk (r.counter + 1) n (imageKey k.key r.measure r.counter) [])

/-! ### Partitions (R260-R262, R267) -/

/-- An extent entry (R261). -/
def extentAt (bs : List Byte) : Extent :=
  let w := fieldOf bs 0 16
  { px := bitsOf w 0 14, py := bitsOf w 14 14, w := bitsOf w 28 14, h := bitsOf w 42 14, valid := w.testBit 56, mod := bitsOf w 64 9,
    tx := bitsOf w 80 9, ty := bitsOf w 96 10 }
def extentRes (bs : List Byte) : Bool :=
  let w := fieldOf bs 0 16
  bitsOf w 57 7 == 0 && bitsOf w 73 7 == 0 && bitsOf w 89 7 == 0 && bitsOf w 106 22 == 0

/-- R262 for an extent, its tiles for one of this module. -/
def State.extentOk (s : State) (massifs : List Nat) (e : Extent) : Bool :=
  decide (1 ≤ e.w) && decide (1 ≤ e.h) && decide (e.tx + e.w ≤ 384) && decide (e.ty + e.h ≤ 660) && decide (e.mod < 432) &&
    (e.mod != s.globals.modIdx ||
      ((List.range e.h).all fun j => (List.range e.w).all fun i =>
        let t := (e.ty + j) * 384 + e.tx + i
        s.tileExists t && massifs.contains (massifOf t)))

/-- States in which a partition may change under a context (R267). -/
def CtxState.still : CtxState → Bool
  | .created => true
  | .suspended => true
  | .sealed => true
  | .faulted => true
  | .haltedDiverged => true
  | _ => false

/-- The new records, and the report to the home of every gate that lists a context of the partition, here or on another module (R332): the
homes of the gates whose shadows stand on its massifs, and every module, which may be the home of a gate without a shadow here. A gate of this
module that lists a context of another one is looked at too, since only that module knows the context's partition (R401). -/
def State.reportPartition (s : State) (part : Nat) (r : Partition) : State :=
  let old := ((find s.partitions part).map (·.massifs)).getD []
  let s := { s with partitions := if r.massifs.isEmpty ∧ r.extents.isEmpty then erase s.partitions part else put s.partitions part r }
  let here := s.globals.modIdx
  let lists := fun (g : Gate) => g.acl.any fun a => a.module != here || ((find s.contexts a.ctx).map (·.partition)) == some part
  let named := fun (y : Shadow) => y.gate / 2 ^ 12 != here && (old.contains y.massif || r.massifs.contains y.massif ||
    y.rights.any fun r => ((find s.contexts r.1).map (·.partition)) == some part)
  let told := (s.shadows.filter named).map (·.gate) |>.eraseDups
  let s := { s with sent := s.sent ++ (told.map fun g => Message.toModule (g / 2 ^ 12) "partition" g here) ++
    ((s.globals.present.filter (· != here)).map fun m => Message.toModule m "massifs" part here) }
  (s.gates.filter fun e => lists e.2).foldl
    (fun s e => s.at_ s.cycle .partitionChangeReport { Args.none with a := here * 2 ^ 12 + e.1 }) s

/-- PLACE_SET (R262, R267, R401): the table is read once. Extents of other modules are checked by those modules, which are asked; `peer` is not OK
when one of them answers that a record does not hold. A command that dissolves the partition of a context, which R267 refuses without a status,
is BADSTATE with that context's state (log 121). -/
def execPlaceSet (s : State) : Out :=
  s.command 0x26 (fun _ => true) fun s p =>
    let bs := p.bytes
    let part := fieldOf bs 24 1
    let n := fieldOf bs 25 1
    let mask := fieldOf bs 32 12
    let addr := fieldOf bs 48 8
    let ok := decide (cmdFlags bs = 0) && zeroIn bs 20 24 && decide (part < 96) && decide (n ≤ 64) && zeroIn bs 26 32 && zeroIn bs 44 48 &&
      decide (addr % 16 = 0) && zeroIn bs 56 63
    if !ok then .done s stMalformed 0
    else s.reading (if n = 0 ∨ p.next = 2 then [] else [(addr, 16 * n)]) fun s =>
    let table := if p.next = 2 then p.data else s.dpaBytes addr (16 * n)
    let raw := (List.range n).map fun i => (table.drop (16 * i)).take 16
    if !raw.all (fun r => !(extentAt r).valid || extentRes r) then .done s stMalformed 0
    else
      let massifs := (List.range 96).filter mask.testBit
      let exts := raw.map extentAt
      let old := (find s.partitions part).getD { massifs := [], extents := [] }
      let taken := s.partitions.any fun e => e.1 != part && e.2.massifs.any massifs.contains
      let mine := s.contexts.filter fun e => e.2.partition == part
      let removed := old.massifs.any fun m => !massifs.contains m
      let moving := mine.find? fun e => !e.2.state.still
      let away := ((exts.filter fun e => e.valid && e.mod != s.globals.modIdx).map (·.mod)).eraseDups
      if taken || !(exts.filter (·.valid)).all (s.extentOk massifs) then .done s stBadextent 0
      else if exts.any fun e => e.valid && e.mod != s.globals.modIdx && !s.globals.present.contains e.mod then .done s stHomeunreach 0
      else
        let go :=
          if !away.isEmpty ∧ p.next = 0 then s.asks p 2 (away.map fun m =>
            Message.extents m part s.globals.modIdx (raw.filter fun r => (extentAt r).valid && (extentAt r).mod == m).flatten) table
          else if !away.isEmpty ∧ s.args.peer.status ≠ 0 then .done s stBadextent 0
          else .done (s.reportPartition part { massifs := massifs, extents := exts }) stOk 0
        match (if removed ∨ exts ≠ old.extents then moving else none), mine with
        | some e, _ => .done s stBadstate e.2.state.code
        | none, m :: _ => if mask = 0 ∧ n = 0 then .done s stBadstate m.2.state.code else go
        | none, [] => go

/-- The extents of a list of bytes. -/
def extentsOf (bs : List Byte) : List Extent := (List.range (bs.length / 16)).map fun i => extentAt ((bs.drop (16 * i)).take 16)

/-- REMOTE_RECORD_QUERY (R262, R401): module `d` asks about records: whether the extents in `bytes` hold for partition `b` here, or, with no
bytes, whether massif `c` is recorded for it; with the flag, the partition of context `b`, none answered as zero. -/
def execRemoteRecordQuery (s : State) : Out :=
  let x := s.args
  let v :=
    if x.flag then ((find s.contexts x.b).map (·.partition + 1)).getD 0
    else
      match find s.partitions x.b with
      | some p =>
        let holds := if x.bytes.isEmpty then p.massifs.contains x.c else
          (extentsOf x.bytes).all fun e => e.mod == s.globals.modIdx && s.extentOk p.massifs e
        if holds then 1 else 0
      | none => 0
  .next { s with sent := s.sent ++ [.toModule x.d "record" v x.b] }

end Sys2Proof.Machine
end

