-- ==== Sys2Proof/Machine/Gate.lean ====
section
/-! DEFINITION. Gates: commands, shadows, tokens, posts, migration and replica digests (spec/14_barrier.md R328-R339, R401). -/

namespace Sys2Proof.Machine

/-! ### Records (R328, R329, R331) -/

def GateState.code : GateState → Nat
  | .free => 0
  | .closed => 1
  | .opened => 2
  | .migrating => 3
  | .revoked => 4
  | .forward => 5

/-- A record that nothing has created. -/
def Gate.zero : Gate :=
  { state := .free, prior := .free, seq := 0, ownerModule := 0, ownerCtx := 0, acl := [], windows := [], tokens := 0, win := 0,
    digest := false, away := [], old := [], noted := none, waiters := [], fwd := 0, mover := none, held := [], digests := [], kept := [] }
def State.gate (s : State) (n : Nat) : Gate := (find s.gates n).getD .zero
def State.setGate (s : State) (n : Nat) (g : Gate) : State := { s with gates := put s.gates n g }
def State.freeGate (s : State) : Option Nat := (List.range 4096).find? fun n => (s.gate n).state == .free

/-- The gate id of record `n` of this module. -/
def State.gateId (s : State) (n : Nat) : Nat := s.globals.modIdx * 2 ^ 12 + n

/-- The block of R329. -/
structure AclBlock where
  acl : List AclEntry
  windows : List (Nat × Nat)
deriving DecidableEq, Repr

/-- The block at a device physical address, when it is well formed for a gate with this DIGEST. -/
def aclBlock (bs : List Byte) (digest : Bool) : Option AclBlock :=
  let raw := ((List.range 16).map fun i => fieldOf bs (8 * i) 8).filter fun w => w.testBit 63
  let entry := fun (w : Nat) =>
    ({ module := bitsOf w 10 9, ctx := bitsOf w 0 10, post := w.testBit 19, wait := w.testBit 20, doff := bitsOf w 32 19 } : AclEntry)
  let acl := raw.map entry
  let names := acl.map fun (e : AclEntry) => e.module * 1024 + e.ctx
  let wins := ((List.range 4).map fun i => (fieldOf bs (128 + 16 * i) 8, fieldOf bs (136 + 16 * i) 8)).filter fun w => w.2 != 0
  let ok := raw.all (fun w => bitsOf w 21 11 == 0 && bitsOf w 51 12 == 0) && acl.all (fun e => decide (e.module < 432) && (e.post || e.wait)) &&
    acl.all (fun e => if digest then decide (e.doff % 32 = 0) && decide (e.doff + 32 ≤ 0x60000) else e.doff == 0) &&
    !acl.isEmpty && names.eraseDups == names && wins.all (fun w => decide (w.1 % 4096 = 0) && decide (w.2 % 4096 = 0)) &&
    (!digest || (decide (acl.length = 2) && acl.all fun e => e.post && e.wait))
  if ok then some { acl := acl, windows := wins } else none

/-- The partition of a listed context; of a context on another module, what that module answered (R401). -/
def State.partitionOf (s : State) (parts : List (Nat × Nat × Nat)) (e : AclEntry) : Option Nat :=
  if e.module = s.globals.modIdx then (find s.contexts e.ctx).map (·.partition)
  else (parts.find? fun x => x.1 == e.module && x.2.1 == e.ctx).map (·.2.2)

/-- Massifs of this module in the partition of a listed context. -/
def State.massifsOf (s : State) (parts : List (Nat × Nat × Nat)) (e : AclEntry) : List Nat :=
  match (s.partitionOf parts e).bind (find s.partitions) with
  | some p => p.massifs
  | none => []

/-- The windows lie in the home's memory, and every listed context's partition spans the home (R329). -/
def State.windowsOk (s : State) (parts : List (Nat × Nat × Nat)) (b : AclBlock) : Bool :=
  b.windows.isEmpty ||
    (b.acl.all (fun e => !(s.massifsOf parts e).isEmpty) &&
      b.windows.all fun w => (List.range (w.2 / 4096)).all fun i => (s.dpa (w.1 + 4096 * i)).col.isSome)

/-! ### Shadows and tokens (R332, R333) -/

/-- A record goes to other modules: as it is published, moves, or has found two digests that differ. -/
def State.tell (s : State) (what : String) (id : Nat) (g : Gate) (ms : List Nat) : State :=
  { s with sent := s.sent ++ (ms.eraseDups.filter (· != s.globals.modIdx)).map fun m => Message.gate m id what g }

/-- Modules that hold shadows of a gate, besides this one. -/
def Gate.modules (g : Gate) : List Nat := g.away.map (·.1)

/-- A change of state, or an advance of the sequence, goes to the shadows on other modules (R332). -/
def State.changeGate (s : State) (n : Nat) (g : Gate) : State := (s.setGate n g).tell "publish" (s.gateId n) g g.modules

/-- The shadows of a gate on this module; one that stood before keeps its published value and its tokens. Those on other modules are
built by a message (R332). `parts` are the partitions of contexts of other modules, as those have just answered (R401). -/
def State.buildShadows (s : State) (n : Nat) (g : Gate) (parts : List (Nat × Nat × Nat)) : State :=
  let id := s.gateId n
  let build := fun (m : Nat) =>
    let l := g.acl.filter fun e => (s.massifsOf parts e).contains m
    let own := l.filter fun e => e.module == s.globals.modIdx
    let was := s.shadow id m
    ({ gate := id, old := g.old, massif := m, state := g.state, seq := (was.map (·.seq)).getD g.seq,
       rights := own.map fun e => (e.ctx, e.post, e.wait), post := l.any (·.post),
       tokens := if g.tokens = 0 then none else some (((was.bind (·.tokens))).getD 0),
       doffs := own.map fun e => (e.ctx, e.doff), digest := g.digest } : Shadow)
  let ms := (List.range 96).filter fun m => g.acl.any fun e => (s.massifsOf parts e).contains m
  ({ s with shadows := s.shadows.filter (fun (x : Shadow) => x.gate != id) ++ ms.map build } : State).tell "publish" id g g.modules

/-- One bucket divided among the POST shadows in the order of (module, massif) (R333). -/
def State.divideTokens (s : State) (n : Nat) (g : Gate) : State :=
  if g.tokens = 0 then s
  else
    let id := s.gateId n
    let here := (s.shadows.filter fun x => x.gate == id && x.post).map fun x => (s.globals.modIdx, x.massif)
    let all := sortBy (fun p => p.1 * 128 + p.2) (here ++ (g.away.filter (·.2.2)).map fun a => (a.1, a.2.1))
    let k := all.length
    let share := fun (i : Nat) => g.tokens / k + (if i < g.tokens % k then 1 else 0)
    (all.zipIdx).foldl (fun s e =>
      if e.1.1 = s.globals.modIdx then
        match s.shadow id e.1.2 with
        | some x => s.setShadow { x with tokens := some (share e.2) }
        | none => s
      else { s with sent := s.sent ++ [.toModule e.1.1 "tokens" (e.1.2 * 2 ^ 21 + id) (share e.2)] }) s

/-- Every shadow without a token. -/
def State.dropTokens (s : State) (id : Nat) : State :=
  { s with shadows := s.shadows.map fun x => if x.gate = id then { x with tokens := x.tokens.map fun _ => 0 } else x }

/-- GATE_PUBLICATION (R332): gate `a` is published to its shadow on massif `b`: the state, and the sequence at a value not above `c`.
A gate with its home on another module is in `gate`; its shadow is built, changed, takes the id of a new home, or is removed when the
record is FREE, and a record here that the freed one led to forgets its id (R336). `parts` are then the partitions of the contexts of other
modules, which have been asked (R401). -/
def execGatePublication (s : State) : Out :=
  let x := s.args
  s.need x.b 96 (
    match x.gate with
    | some g =>
      if g.state = .free then
        { s with
          shadows := (s.shadows.filter fun y => !(y.gate == x.a && y.massif == x.b)).map fun y => { y with old := y.old.filter (· != x.a) }
          gates := s.gates.map fun (e : Nat × Gate) => (e.1, { e.2 with old := e.2.old.filter (· != x.a) }) }
      else
        let here := g.acl.filter fun e => (s.massifsOf x.parts e).contains x.b
        let own := here.filter fun e => e.module == s.globals.modIdx
        let was := match s.shadow x.a x.b with
          | some w => some w
          | none => s.shadows.find? fun w => w.massif == x.b && g.old.contains w.gate
        let moved := was.any fun w => w.old.contains x.a
        let y : Shadow :=
          { gate := if moved then (was.map (·.gate)).getD x.a else x.a
            old := if moved then (was.map (·.old)).getD [] else g.old
            massif := x.b, state := g.state, seq := (was.map fun w => published w.seq g.seq g.seq).getD g.seq
            rights := own.map fun e => (e.ctx, e.post, e.wait), post := here.any (·.post)
            tokens := if g.tokens = 0 then none else some ((was.bind (·.tokens)).getD 0)
            doffs := own.map fun e => (e.ctx, e.doff), digest := g.digest }
        match was with
        | some w => { s with shadows := s.shadows.map fun z => if z = w then y else z }
        | none => { s with shadows := s.shadows ++ [y] }
    | none =>
      match s.shadow x.a x.b, s.localGate x.a with
      | some y, some (_, some g) => s.setShadow { y with state := g.state, seq := published y.seq g.seq (BitVec.ofNat 64 x.c) }
      | _, _ => s)

/-- TOKEN_DIVISION (R333): record `a` divides a fresh bucket at a multiple of WIN. With the flag, the home of gate `a` is another module
and gives the shadow on massif `b` its `c` tokens. -/
def execTokenDivision (s : State) : Out :=
  let x := s.args
  .next (
    if x.flag then
      match s.shadow x.a x.b with
      | some y => s.setShadow { y with tokens := some x.c }
      | none => s
    else
      let g := s.gate x.a
      if g.tokens = 0 ∨ s.cycle % g.win ≠ 0 then s else s.divideTokens x.a g)

/-! ### Posts (R334, R337, R338) -/

/-- A post is complete at its poster (R179). -/
def State.postDone (s : State) (p : Post) : State :=
  if p.module = s.globals.modIdx then
    s.setTile p.tile ((s.getTile p.tile).onIo fun k => { k with posts := k.posts.filter (· != p.id) })
  else { s with sent := s.sent ++ [.toModule p.module "posted" p.tile p.id] }

/-- A post that its home does not take yet stays in the request queue of its tile on another module (R337). -/
def State.postHeld (s : State) (p : Post) : State := { s with sent := s.sent ++ [.toModule p.module "hold" p.tile p.id] }

/-- A listed context of this module is halted by a mismatch (R254, R338). -/
def State.diverge (s : State) (ctx : Nat) : State :=
  match find s.contexts ctx with
  | none => s
  | some x =>
    if x.state ≠ .running then s
    else
      let s := s.onCtx ctx fun x => { x with state := .haltedDiverged }
      (s.groups.filter fun e => e.2.ctx == ctx).foldl (fun s e => s.preemptGroup e.1) s

/-- The listed contexts of this module are halted by a mismatch. -/
def State.divergeAll (s : State) (g : Gate) : State :=
  (g.acl.filter fun e => e.module == s.globals.modIdx).foldl (fun s e => s.diverge e.ctx) s

/-- The digests of the two replicas, pair by pair (R338). -/
def compareDigests (g : Gate) : Gate :=
  match g.digests with
  | [(a, x :: xs), (b, y :: ys)] =>
    if x = y then { g with seq := g.seq + 1, digests := [(a, xs), (b, ys)] }
    else { g with state := .closed, kept := [x, y], digests := [(a, []), (b, [])] }
  | _ => g

/-- A post is performed at its home; a mismatch halts the listed contexts, here and on other modules. -/
def State.performPost (s : State) (n : Nat) (g : Gate) (p : Post) : State :=
  if !g.digest then s.changeGate n { g with seq := g.seq + 1 }
  else if !g.kept.isEmpty then s
  else
    let g := { g with digests := g.digests.map fun e =>
      if e.1.module = p.module ∧ e.1.ctx = p.ctx then (e.1, e.2 ++ [p.digest]) else e }
    let g' := compareDigests g
    let s := if g'.seq = g.seq ∧ g'.kept.isEmpty then s.setGate n g' else s.changeGate n g'
    if g'.kept.isEmpty then s else (s.divergeAll g').tell "diverged" (s.gateId n) g' (g'.acl.map (·.module))

/-- A post reaches a gate record of this module. A fifth unmatched one of a replica on another module goes back to its tile (R337). -/
def State.postArrives (s : State) (p : Post) : State :=
  match s.localGate p.gate with
  | none => { s with sent := s.sent ++ [.post { p with gate := s.homeId p.gate }] }
  | some (n, g) =>
    let full := p.module != s.globals.modIdx && g.any fun g => g.full p.module p.ctx 0
    match g, (g.getD .zero).state with
    | some g, .closed => if full then s.postHeld p else (s.performPost n g p).postDone p
    | some g, .opened => if full then s.postHeld p else (s.performPost n g p).postDone p
    | some g, .migrating => if full then s.postHeld p else s.setGate n { g with held := g.held ++ [{ p with gate := s.gateId n }] }
    | _, _ =>
      let s := if p.module = s.globals.modIdx then s.post (.plain 0x30 p.ctx p.gate) else { s with sent := s.sent ++ [.toModule p.module "discard" p.ctx p.gate] }
      s.postDone p

/-- The home on another module answers for a post at the head of a tile's request queue: it has left, or is tried again (R337). -/
def Tile.postAnswered (t : Tile) (id : Nat) (again : Bool) : Tile :=
  t.onIo fun k => { k with requests := match k.requests with
    | e :: r => match e.kind with
      | .posting i g => if i = id then (if again then { e with kind := .post i g 0 } :: r else r) else e :: r
      | _ => e :: r
    | [] => [] }

/-- GATE_POST_ARRIVAL (R179, R334, R336-R338): of the posts that travel from tile `b` of module `d` to the gate of id `a`, the earliest
arrives; `post` is one that comes from another module. With the flag, the home on another module has dealt with post `c` of tile `b` of
this module: `peer` is not OK when it discarded it, 2 when it holds four posts of its replica and takes no fifth. A `gate` is one on
another module that has found two digests that differ. -/
def execGatePostArrival (s : State) : Out :=
  let x := s.args
  match x.gate with
  | some g => .next (s.divergeAll g)
  | none =>
    if x.flag then
      s.needTile x.b (
        let t := s.getTile x.b
        if x.peer.status = 2 then s.setTile x.b (t.postAnswered x.c true)
        else
          let p : Post := { id := x.c, gate := x.a, module := s.globals.modIdx, ctx := t.place.ctx, tile := x.b, digest := [] }
          let s := s.setTile x.b (t.postAnswered x.c false)
          let s := if x.peer.status ≠ 0 then s.post (.plain 0x30 p.ctx p.gate) else s
          s.postDone p)
    else
      .next (match x.post with
        | some p => s.postArrives p
        | none =>
          match s.posts.find? fun p => p.tile == x.b && p.module == x.d && s.homeId p.gate == s.homeId x.a with
          | some p => { s with posts := s.posts.erase p }.postArrives p
          | none => s)

/-! ### Waiters (R335) -/

/-- Tiles of a massif that wait at a gate. -/
def State.waitersAt (s : State) (y : Shadow) : Nat :=
  let waits := fun (n : Nat) (t : Tile) =>
    massifOf n == y.massif && t.ctl.waits.any fun w => match w with
      | .gate x => let id := x.toNat % 2 ^ 21; id == y.gate || y.old.contains id
      | _ => false
  ((s.cur, s.tile) :: s.tiles).countP fun e => waits e.1 e.2

/-- A waiter record with its home: no tile waits, no record. -/
def Gate.noteWaiters (g : Gate) (module massif n : Nat) : Gate :=
  let rest := g.waiters.filter fun w => !(w.1 == module && w.2.1 == massif)
  { g with waiters := if n = 0 then rest else rest ++ [(module, massif, n)], noted := g.noted.map ((module, massif) :: ·) }

/-- The waiter records of the old home, as they stood when it became FORWARD: those of shadows that have come here themselves since the install
are newer (R335, R336). -/
def Gate.joinWaiters (g : Gate) (old : List (Nat × Nat × Nat)) : Gate :=
  let new := fun (w : Nat × Nat × Nat) => (g.noted.getD []).contains (w.1, w.2.1)
  { g with waiters := g.waiters.filter new ++ old.filter (fun w => !new w), noted := none }

/-- WAITER_RECORD (R335): the shadow of gate `a` on massif `b` registers its waiting tiles, or drops its record; with the flag, a shadow
on module `d` registers `c`. A home on another module is told; a shadow that is gone has no waiting tile. A `gate` brings all the waiter
records of one that has moved here (R336). -/
def execWaiterRecord (s : State) : Out :=
  let x := s.args
  s.need x.b 96 (
    let count := if x.flag then x.c else ((s.shadow x.a x.b).map s.waitersAt).getD 0
    let from_ := if x.flag then x.d else s.globals.modIdx
    match s.localGate x.a with
    | some (n, some g) => s.setGate n (match x.gate with
      | some h => g.joinWaiters h.waiters
      | none => g.noteWaiters from_ x.b count)
    | some (_, none) => s
    | none =>
      let id := s.homeId x.a
      { s with sent := s.sent ++ [.toModule (id / 2 ^ 12) "waiters" ((from_ * 2 ^ 7 + x.b) * 2 ^ 21 + id) count] })

/-! ### Commands (R330, R331, R401) -/

/-- Where a gate command came from; `packet` is the one of this module's own queue. -/
structure Origin where
  module : Nat
  queue : Nat
  index : Nat
  packet : Option Packet

/-- The fields of GATE_CREATE by operation. -/
def gateFields (bs : List Byte) : Bool :=
  let op := cmdFlags bs
  let bucket := decide (fieldOf bs 24 4 < 2 ^ 20) && decide (1024 ≤ fieldOf bs 28 4) && decide (fieldOf bs 32 8 % 64 = 0) &&
    decide (fieldOf bs 32 8 < 2 ^ 56)
  decide (fieldOf bs 22 2 < 432) && zeroIn bs 43 63 &&
    (match op with
    | 0 => decide (cmdCtx bs < 1024) && zeroIn bs 20 22 && bucket && zeroIn bs 40 42 && decide (fieldOf bs 42 1 < 4)
    | 1 => decide (fieldOf bs 20 2 < 4096) && zeroIn bs 24 43
    | 2 => decide (fieldOf bs 20 2 < 4096) && zeroIn bs 24 43
    | 3 => decide (fieldOf bs 20 2 < 4096) && bucket && zeroIn bs 40 43
    | 4 => decide (fieldOf bs 20 2 < 4096) && zeroIn bs 24 40 && decide (fieldOf bs 40 2 < 432) && zeroIn bs 42 43
    | _ => false)

/-- The fields of GATE_REVOKE. -/
def revokeFields (bs : List Byte) : Bool :=
  decide (cmdFlags bs < 3) && decide (fieldOf bs 20 2 < 4096) && decide (fieldOf bs 22 2 < 432) && zeroIn bs 24 63

/-- The statuses that a gate command may get from another HOME (R266, R330, R331). -/
def gateRefusals : List Nat := [stBadstate, stNoresource, stHomeunreach, stMalformed]

/-- Of the gate commands of other modules at work here, the one of an origin. -/
def Carried.from? (o : Origin) (k : Carried) : Bool := k.module == o.module && k.queue == o.queue && k.index == o.index
/-- The next step of a command: of this module's own packet, or of one carried here. -/
def State.gateStep (s : State) (o : Origin) : Nat :=
  match o.packet with
  | some p => p.next
  | none => ((s.carried.find? (Carried.from? o)).map (·.next)).getD 0

/-- What a command read at its first step. -/
def State.gateData (s : State) (o : Origin) : List Byte :=
  match o.packet with
  | some p => p.data
  | none => ((s.carried.find? (Carried.from? o)).map (·.data)).getD []

/-- A gate command asks other modules, which have 8,000,000 cycles to answer, and goes on at step `n` (R401). -/
def State.gateAsks (s : State) (o : Origin) (bs : List Byte) (n : Nat) (ms : List Message) (data : List Byte) : Cmd :=
  match o.packet with
  | some p => s.asks p n ms data
  | none =>
    let k : Carried :=
      { module := o.module, queue := o.queue, index := o.index, record := fieldOf bs 20 2, next := n, deadline := s.cycle + 8000000, data := data }
    .later ({ s with sent := s.sent ++ ms, carried := s.carried.filter (fun y => !Carried.from? o y) ++ [k] }.at_ k.deadline .homeunreach
      { Args.none with a := o.queue, b := o.index, c := 1, d := o.module })

/-- A command carried here ends with a status for its module. -/
def State.carriedDone (s : State) (o : Origin) (code detail : Nat) : State :=
  { s with carried := s.carried.filter fun y => !Carried.from? o y, sent := s.sent ++ [.status o.module o.queue o.index code detail] }

/-- A gate command: of a queue of this module, or, with the flag, packet `c` of queue `b` of module `d`, carried here in `bytes`. Another
HOME is asked, and answers with `peer`. -/
def State.gateCommand (s : State) (kind : Nat) (sel : Nat → Bool) (fields : List Byte → Bool)
    (run : State → List Byte → Origin → Cmd) : Out :=
  let go := fun (s : State) (bs : List Byte) (o : Origin) =>
    if !fields bs then Cmd.done s stMalformed 0 else run s bs o
  let x := s.args
  if x.flag then
    if pkKind x.bytes ≠ kind ∨ !sel (cmdFlags x.bytes) then .next s
    else
      let o : Origin := { module := x.d, queue := x.b, index := x.c, packet := none }
      .next (match go s x.bytes o with
        | .later s => s
        | .done s code detail => s.carriedDone o code detail
        | .fault s _ => s.carriedDone o stMalformed 0)
  else
    s.command kind (fun bs => sel (cmdFlags bs)) fun s p =>
      let home := fieldOf p.bytes 22 2
      if fields p.bytes ∧ home ≠ s.globals.modIdx then
        if !s.globals.present.contains home then .done s stHomeunreach 0
        else if p.next = 0 then s.asks p 2 [.command home x.a p.index p.bytes]
        else
          let code := x.peer.status.toNat
          if code = 0 ∨ gateRefusals.contains code then .done s code x.peer.detail.toNat else .later s
      else go s p.bytes { module := s.globals.modIdx, queue := x.a, index := p.index, packet := some p }

/-- A change that only some states allow. -/
def State.onGateState (s : State) (bs : List Byte) (ok : GateState → Bool) (k : Nat → Gate → Cmd) : Cmd :=
  let n := fieldOf bs 20 2
  let g := s.gate n
  if ok g.state then k n g else .done s stBadstate g.state.code

def GateState.live : GateState → Bool
  | .closed => true
  | .opened => true
  | _ => false

/-- The modules besides this one that hold a listed context or, as far as this module's records tell, a massif of its partition. -/
def State.aclModules (s : State) (b : AclBlock) : List Nat :=
  let extents := fun (e : AclEntry) =>
    if e.module = s.globals.modIdx then
      match (s.partitionOf [] e).bind (find s.partitions) with
      | some p => (p.extents.filter (·.valid)).map (·.mod)
      | none => []
    else []
  ((b.acl.map (·.module) ++ b.acl.flatMap extents).eraseDups).filter (· != s.globals.modIdx)

/-- Shadows on other modules, as the modules asked have answered. -/
def State.awayShadows (s : State) : List (Nat × Nat × Bool) := ((s.args.gate).map (·.away)).getD []

/-- The checks of an access list (R329, R401), whose block is read once: other modules that hold a context or a shadow, and those in `also`, are
asked, and one that answers that a record does not hold makes the command MALFORMED. -/
def State.withAcl (s : State) (bs : List Byte) (digest : Bool) (also : List Nat) (o : Origin) (k : State → AclBlock → Cmd) : Cmd :=
  s.reading (if s.gateStep o = 0 then [(fieldOf bs 32 8, 192)] else []) fun s =>
    let block := if s.gateStep o = 0 then s.dpaBytes (fieldOf bs 32 8) 192 else s.gateData o
    match aclBlock block digest with
    | none => .done s stMalformed 0
    | some b =>
      let ms := (s.aclModules b ++ also.filter (· != s.globals.modIdx)).eraseDups
      let away := s.awayShadows.map (·.1)
      if (ms ++ away).any fun m => !s.globals.present.contains m then .done s stHomeunreach 0
      else if s.gateStep o = 0 ∧ ms ≠ [] then
        s.gateAsks o bs 2 (ms.map fun m => .toModule m "partition" (fieldOf bs 32 8) s.globals.modIdx) block
      else if s.args.peer.status ≠ 0 ∧ ms ≠ [] then .done s stMalformed 0
      else if b.acl.any (fun e => (s.partitionOf s.args.parts e).isNone) || !s.windowsOk s.args.parts b then .done s stMalformed 0
      else k s b

/-- GATE_CREATE, operation CREATE (R330-R333); the reserved operations are MALFORMED. -/
def execGateCreate (s : State) : Out :=
  s.gateCommand 0x28 (fun f => decide (f % 8 = 0) || decide (5 ≤ f % 8)) gateFields fun s bs o =>
    let digest := (fieldOf bs 42 1).testBit 1
    s.withAcl bs digest [] o fun s b =>
      match s.freeGate with
      | none => .done s stNoresource 0
      | some n =>
        let g : Gate :=
          { Gate.zero with
            state := if (fieldOf bs 42 1).testBit 0 then .opened else .closed
            ownerModule := o.module, ownerCtx := cmdCtx bs, acl := b.acl, windows := b.windows, tokens := fieldOf bs 24 4
            win := fieldOf bs 28 4, digest := digest, away := s.awayShadows
            digests := if digest then b.acl.map fun e => (e, []) else [] }
        .done (((s.setGate n g).buildShadows n g s.args.parts).divideTokens n g) stOk (s.gateId n)

/-- GATE_CREATE, operation OPEN (R331, R339). -/
def execGateOpen (s : State) : Out :=
  s.gateCommand 0x28 (fun f => decide (f % 8 = 1)) gateFields fun s bs _ =>
    s.onGateState bs (· == .closed) fun n g =>
      .done (s.changeGate n { g with state := .opened, kept := [], digests := g.digests.map fun e => (e.1, []) }) stOk 0

/-- GATE_CREATE, operation CLOSE (R331). -/
def execGateClose (s : State) : Out :=
  s.gateCommand 0x28 (fun f => decide (f % 8 = 2)) gateFields fun s bs _ =>
    s.onGateState bs (· == .opened) fun n g => .done (s.changeGate n { g with state := .closed }) stOk 0

/-- A new list takes a right from a context that had it. -/
def takesRight (old new : List AclEntry) : Bool :=
  old.any fun e => !new.any fun f => f.module == e.module && f.ctx == e.ctx && (!e.post || f.post) && (!e.wait || f.wait)

/-- GATE_CREATE, operation SETACL (R331-R333): the modules of the old and of the new list are asked; where the new one takes a right away, the
shadows on other modules lose it before the home takes the new list and the command completes. -/
def execGateSetacl (s : State) : Out :=
  s.gateCommand 0x28 (fun f => decide (f % 8 = 3)) gateFields fun s bs o =>
    s.onGateState bs GateState.live fun n g =>
      s.withAcl bs g.digest g.modules o fun s b =>
        let pending := fun (e : AclEntry) => ((g.digests.find? fun d => d.1.module == e.module && d.1.ctx == e.ctx).map (·.2)).getD []
        let lost := g.modules
        let g' :=
          { g with
            acl := b.acl, windows := b.windows, tokens := fieldOf bs 24 4, win := fieldOf bs 28 4, away := s.awayShadows
            digests := if g.digest then b.acl.map fun e => (e, pending e) else [] }
        if takesRight g.acl b.acl ∧ lost ≠ [] ∧ s.gateStep o < 3 then
          s.gateAsks o bs 3 ((lost.eraseDups.filter (· != s.globals.modIdx)).map fun m => Message.gate m (s.gateId n) "publish" g') (s.gateData o)
        else
          let s := ((s.setGate n g').dropTokens (s.gateId n)).buildShadows n g' s.args.parts
          .done ((s.tell "publish" (s.gateId n) g' (lost.filter fun m => !g'.modules.contains m)).divideTokens n g') stOk 0

/-- The new shadow names of a gate that has moved (R336). -/
def State.renameShadows (s : State) (old new : Nat) : State :=
  { s with shadows := s.shadows.map fun x => if x.gate = old then { x with gate := new, old := x.old ++ [old] } else x }

/-- The command of a MOVE completes. -/
def State.moveDone (s : State) (m : Mover) (code detail : Nat) : State :=
  if m.module = s.globals.modIdx then
    match (find s.queues m.queue).bind fun q => q.packets.find? fun p => p.index == m.index && !p.complete with
    | some p => s.finishCommand m.queue p code detail
    | none => s
  else { s with sent := s.sent ++ [.status m.module m.queue m.index code detail] }

/-- The state before a MOVE that failed, and its status (R331); the posts that the record held arrive in their order. -/
def State.moveFails (s : State) (n : Nat) (g : Gate) (code : Nat) : State :=
  let s := s.changeGate n { g with state := g.prior, mover := none, held := [] }
  let s := g.held.foldl State.postArrives s
  match g.mover with
  | none => s
  | some m => s.moveDone m code 0

/-- The record as it goes to a new home (R336): the shadows of this module are among those on other modules there. -/
def State.sentRecord (s : State) (n : Nat) (g : Gate) (there : Nat) : Gate :=
  let own := (s.shadows.filter fun y => y.gate == s.gateId n).map fun y => (s.globals.modIdx, y.massif, y.post)
  { g with away := own ++ g.away.filter fun a => a.1 != there }

/-- GATE_CREATE, operation MOVE (R331, R336): the record enters MIGRATING and goes to its new home; its install follows. Another new home
has 8,000,000 cycles to answer. -/
def execGateMove (s : State) : Out :=
  s.gateCommand 0x28 (fun f => decide (f % 8 = 4)) gateFields fun s bs o =>
    let n := fieldOf bs 20 2
    let there := fieldOf bs 40 2
    let g := s.gate n
    if g.state = .migrating ∧ (g.mover.map fun m => (m.module, m.queue, m.index)) = some (o.module, o.queue, o.index) then .later s
    else if !g.state.live then .done s stBadstate g.state.code
    else if !s.globals.present.contains there then .done s stHomeunreach 0
    else
      let m : Mover := { newHome := there, deadline := s.cycle + 8000000, module := o.module, queue := o.queue, index := o.index }
      let s := s.changeGate n { g with state := .migrating, prior := g.state, mover := some m }
      .later (
        if there = s.globals.modIdx then s
        else (s.tell "move" (s.gateId n) (s.sentRecord n g there) [there]).at_ m.deadline .homeunreach { Args.none with a := n, flag := true })

/-- GATE_REVOKE (R331); with both flags it is MALFORMED (R330). -/
def execGateRevoke (s : State) : Out :=
  s.gateCommand 0x29 (fun f => f % 4 == 0 || f % 4 == 3) revokeFields fun s bs _ =>
    s.onGateState bs GateState.live fun n g => .done (s.changeGate n { g with state := .revoked }) stOk 0

/-- Other modules drop their shadows of a gate id. -/
def State.tellFreed (s : State) (id : Nat) (g : Gate) : State := s.tell "free" id .zero g.modules

/-- GATE_REVOKE with FREE (R331). -/
def execGateFree (s : State) : Out :=
  s.gateCommand 0x29 (fun f => f % 4 == 1) revokeFields fun s bs _ =>
    s.onGateState bs (· == .revoked) fun n g =>
      let id := s.gateId n
      .done ({ s with gates := erase s.gates n, shadows := s.shadows.filter fun x => x.gate != id }.tellFreed id g) stOk 0

/-- GATE_REVOKE with FREEFWD (R331): the old id meets no shadow any more on any module, and the record that it led to forgets it. -/
def execGateFreefwd (s : State) : Out :=
  s.gateCommand 0x29 (fun f => f % 4 == 2) revokeFields fun s bs _ =>
    s.onGateState bs (· == .forward) fun n g =>
      let id := s.gateId n
      let drop := fun (x : Shadow) => { x with old := x.old.filter (· != id) }
      let forget := fun (e : Nat × Gate) => (e.1, { e.2 with old := e.2.old.filter (· != id) })
      .done
        ({ s with gates := (erase s.gates n).map forget, shadows := s.shadows.map drop }.tell "free" id .zero (g.fwd / 2 ^ 12 :: s.globals.present))
        stOk 0

/-! ### Migration (R336) -/

/-- The old home becomes FORWARD: shadows are served under the new id, held posts go there in their order, waiter records as they stand now are
registered there, and the MOVE completes. -/
def State.moved (s : State) (n : Nat) (g : Gate) (id : Nat) : State :=
  let s := (s.setGate n { Gate.zero with state := .forward, fwd := id, away := g.away }).tell "waiters" id { Gate.zero with waiters := g.waiters }
    [id / 2 ^ 12]
  let s := g.held.foldl State.postArrives (s.renameShadows (s.gateId n) id)
  match g.mover with
  | none => s
  | some m => s.moveDone m stOk id

/-- A record installed at this module in its prior state, under a new id beside its old one. -/
def State.installGate (s : State) (g : Gate) (k old : Nat) : State :=
  s.changeGate k
    { g with
      state := g.prior, mover := none, held := [], old := g.old ++ [old]
      noted := if old / 2 ^ 12 = s.globals.modIdx then none else some [] }

/-- MOVE_INSTALL (R331, R336): record `a` of this module, MIGRATING, is installed at its new home, whose answer is `peer` when it is
another module; with the flag, this module is the new home of `gate`, whose old id on module `d` is `a`. -/
def execMoveInstall (s : State) : Out :=
  let x := s.args
  if x.flag then
    .next (match x.gate, s.freeGate with
      | some g, some k =>
        let s := (s.installGate { g with prior := g.state } k x.a).renameShadows x.a (s.gateId k)
        { s with sent := s.sent ++ [.toModule x.d "installed" x.a (s.gateId k)] }
      | some _, none => { s with sent := s.sent ++ [.toModule x.d "installed" x.a (2 ^ 21)] }
      | none, _ => s)
  else
    s.need x.a 4096 (
      let g := s.gate x.a
      match g.state, g.mover with
      | .migrating, some m =>
        if m.newHome = s.globals.modIdx then
          match s.freeGate with
          | some k => (s.installGate g k (s.gateId x.a)).moved x.a g (s.gateId k)
          | none => s.moveFails x.a g stNoresource
        else if x.peer.status = 0 then s.moved x.a g (x.peer.detail.toNat % 2 ^ 21)
        else s.moveFails x.a g stNoresource
      | _, _ => s)

/-! ### Reports and answers that do not come -/

/-- The other modules that hold a context which a gate lists. -/
def State.listedModules (s : State) (g : Gate) : List Nat := ((g.acl.map (·.module)).eraseDups).filter (· != s.globals.modIdx)

/-- PARTITION_CHANGE_REPORT (R277, R332, R401): a partition of a context that gate `a` lists has changed; the home rebuilds and publishes the
shadows, after it has asked the other modules that hold a listed context for the partitions. With the flag those have answered, or another module
reports: `gate` holds the shadows on other modules and `parts` the partitions of their contexts; when `peer` is not OK, the rights of context
`c` mod 1024 of module `c` / 1024 have moved, with its image, to context `d` likewise. -/
def execPartitionChangeReport (s : State) : Out :=
  let x := s.args
  .next (
    match s.localGate x.a with
    | some (n, some g) =>
      let entry := fun (a : AclEntry) =>
        if a.module = x.c / 1024 ∧ a.ctx = x.c % 1024 then { a with module := x.d / 1024, ctx := x.d % 1024 } else a
      let g := if x.flag then { g with away := s.awayShadows } else g
      let ask := if x.flag then [] else s.listedModules g
      let g :=
        if x.flag ∧ x.peer.status ≠ 0 then { g with acl := g.acl.map entry, digests := g.digests.map fun d => (entry d.1, d.2) } else g
      match g.state with
      | .free => s
      | .forward => s
      | _ =>
        if ask.isEmpty then (s.setGate n g).buildShadows n g x.parts
        else { s with sent := s.sent ++ ask.map fun m => Message.toModule m "partition" (s.gateId n) s.globals.modIdx }
    | some (_, none) => s
    | none =>
      let id := s.homeId x.a
      { s with sent := s.sent ++ [.toModule (id / 2 ^ 12) "partition" id (if x.flag then x.d else s.globals.modIdx)] })

/-- A SETACL that changes nothing gives the shadows back what its third step took (R332). -/
def State.republish (s : State) (n : Nat) : State :=
  match find s.gates n with
  | some g => s.tell "publish" (s.gateId n) g g.modules
  | none => s
def isSetacl (bs : List Byte) : Bool := pkKind bs == 0x28 && cmdFlags bs % 8 == 3

/-- HOMEUNREACH (R266, R330, R331, R365, R401): 8,000,000 cycles after it asked another module, command `b` of queue `a` has had no answer;
with `c` that of module `d`, carried here; with the flag, the new home of record `a` has not answered, and the record returns to its prior
state. -/
def execHomeunreach (s : State) : Out :=
  let x := s.args
  if x.c ≠ 0 then
    let o : Origin := { module := x.d, queue := x.a, index := x.b, packet := none }
    .next (match s.carried.find? (Carried.from? o) with
      | none => s
      | some k => if s.cycle < k.deadline then s else (if k.next = 3 then s.republish k.record else s).carriedDone o stHomeunreach 0)
  else if x.flag then
    s.need x.a 4096 (
      let g := s.gate x.a
      match g.state, g.mover with
      | .migrating, some m =>
        if m.newHome = s.globals.modIdx ∨ s.cycle < m.deadline then s else s.moveFails x.a g stHomeunreach
      | _, _ => s)
  else
    s.need x.a 98304 (
      match (find s.queues x.a).bind fun q => q.packets.find? fun p => p.index == x.b && !p.complete && decide (2 ≤ p.next) && p.next != statusHeld with
      | none => s
      | some p =>
        let s' := if isSetacl p.bytes ∧ p.next = 3 then s.republish (fieldOf p.bytes 20 2) else s.undoCommand p.bytes
        if s.cycle < p.deadline then s else s'.finishCommand x.a p stHomeunreach 0)

end Sys2Proof.Machine
end

