-- ==== Sys2Proof/Machine/Link.lean ====
section
/-! DEFINITION. Links: slots, link states, retries, training and the cycle count across modules (spec/16_link.md R361-R371;
spec/17_faults_determinism_power.md R374). -/

namespace Sys2Proof.Machine

/-- Links of a module (R361). -/
def linkCount : Nat := 421
/-- A massif-col edge. -/
def isEdge (l : Nat) : Bool := decide (l < 356)

def State.onLink (s : State) (l : Nat) (f : Link → Link) : State := { s with links := put s.links l (f (s.link_ l)) }

/-- The module that a ridge port faces, when it is present (R24): port i joins port i of the opposite side there. -/
def State.facing (s : State) (l : Nat) : Option Nat :=
  let m := s.globals.modIdx
  let x := m % 24
  let y := m / 24
  let other := match ridgeSide l with
    | .north => if y < 17 then some (m + 24) else none
    | .east => if x < 23 then some (m + 1) else none
    | .south => if 0 < y then some (m - 24) else none
    | .west => if 0 < x then some (m - 1) else none
  other.filter s.globals.present.contains

/-- The link of the other module that a ridge port joins (R24). -/
def joined (l : Nat) : Nat := ridgeLink (ridgeSide l).opp (ridgePort l)

/-! ### SLOT_SET (R369) -/

/-- The frame of a link in cycles (R366). -/
def frameOf (l : Nat) : Nat := 64 * slotLength l

/-- The first selected slot that another partition owns. -/
def Link.taken (l : Link) (dir mask owner : Nat) : Option Nat :=
  (List.range 64).find? fun i => mask.testBit i && (match l.owner dir i with
    | some o => o != owner
    | none => false)

/-- SLOT_SET (R369): accepted now, done at the link's next frame boundary. -/
def execSlotSet (s : State) : Out :=
  s.command 0x27 (fun _ => true) fun s p =>
    let bs := p.bytes
    let l := fieldOf bs 20 2
    let dir := fieldOf bs 22 1
    let mask := fieldOf bs 24 8
    let owner := fieldOf bs 32 1
    let ok := decide (cmdFlags bs = 0) && decide (l < cxlPort) && decide (dir < (if isEdge l then 2 else 1)) && zeroIn bs 23 24 &&
      (decide (owner < 96) || owner == 0xFF) && zeroIn bs 33 63
    if p.next = 1 then .later s
    else if !ok then .done s stMalformed 0
    else
      match (if owner = 0xFF then none else (s.link_ l).taken dir mask owner) with
      | some i => .done s stBadstate i
      | none =>
        let f := frameOf l
        let c : SlotChange := { dir := dir, mask := mask, owner := owner, queue := s.args.a, index := p.index }
        let s := (s.onLink l fun x => { x with changes := x.changes ++ [c] }).onPacket s.args.a p.index fun p => { p with next := 1 }
        .later (s.at_ ((s.cycle / f + 1) * f) .slotFrameBoundary { Args.none with a := l })

/-- The slots after a change. -/
def SlotChange.slots (c : SlotChange) (l : List (Nat × Nat)) : List (Nat × Nat) :=
  ((List.range 64).filter c.mask.testBit).foldl (fun l i => if c.owner = 0xFF then erase l i else put l i c.owner) l

/-- SLOT_FRAME_BOUNDARY (R369): accepted changes of link `a` take effect, and their commands complete. -/
def execSlotFrameBoundary (s : State) : Out :=
  let l := s.args.a
  s.need l cxlPort (
    let x := s.link_ l
    if x.changes.isEmpty then s
    else if s.cycle % frameOf l ≠ 0 then s.at_ ((s.cycle / frameOf l + 1) * frameOf l) .slotFrameBoundary { Args.none with a := l }
    else
      x.changes.foldl (fun s c =>
        let s := s.onLink l fun x => if c.dir = 0 then { x with slots0 := c.slots x.slots0 } else { x with slots1 := c.slots x.slots1 }
        match (find s.queues c.queue).bind fun q => q.packets.find? fun p => p.index == c.index with
        | some p => s.finishCommand c.queue p stOk 0
        | none => s) (s.onLink l fun x => { x with changes := [] }))

/-! ### What is on a link (R364, R365) -/

/-- The cycles of a crossing, port to port (R368). -/
def crossing (l : Nat) : Nat := if isEdge l then 12 else 96

/-- A piece is on a link: it has entered, and has not left the crossing, replays included (R364, R368). -/
def Transit.on (x : Transit) (now l : Nat) : Bool :=
  match x.last with
  | some (h, c) => h.link == l && (x.stalled || decide (now < c + x.late + crossing l))
  | none => false

/-- Nothing that is on a link which is DOWN or FAILED arrives (R365): an operation is lost with the first of its pieces. At a port its source's
context has the record; at an edge EDGE's domains fall. -/
def State.loseOn (s : State) (l : Nat) : State :=
  (s.transit.filter (·.on s.cycle l)).foldl (fun s x =>
    if !s.transit.any (fun z => z.piece == x.piece) then s
    else if isEdge l ∧ (isLocal x.op.src || isSaved x.op.src) = true then (s.dropTransit x.seq).remoteDone x.op.src x.op.id
    else s.discardAt x l) s

/-- A link that has retrained carries first what it had not carried over (R364). -/
def State.unstall (s : State) (l : Nat) : State :=
  let mine := fun (x : Transit) => x.stalled && x.on s.cycle l
  let go := fun (x : Transit) => match x.last with
    | some (h, _) => { x with stalled := false, ready := s.cycle + h.after, last := some (h, s.cycle), late := 0 }
    | none => x
  let due := (s.transit.filter fun x => mine x && x.hops.isEmpty).map go
  due.foldl (fun s x => s.at_ x.ready .remoteApply { Args.none with a := x.piece })
    { s with transit := s.transit.map fun x => if mine x then go x else x }

/-! ### Link states (R363) -/

/-- Training starts. -/
def State.train (s : State) (l : Nat) (st : LinkState) : State := s.onLink l fun x => { x with state := st, attempts := 0, again := 0 }

/-- A command written to the LSTAT of link `l`: it comes through the CXL port, which takes its own commands in any state (R363, log 108). -/
def State.needLstat (s : State) (l : Nat) (k : State) : Out := s.need l linkCount (if l = cxlPort ∨ s.hostPort = true then k else s)

/-- LINK_CMD_RETRAIN (R363): link `a`. -/
def execLinkCmdRetrain (s : State) : Out :=
  let l := s.args.a
  s.needLstat l (if (s.link_ l).up then s.train l .retraining else s)

/-- LINK_CMD_DOWN (R363, R365): massif-col edges ignore it. -/
def execLinkCmdDown (s : State) : Out :=
  let l := s.args.a
  let x := s.link_ l
  s.needLstat l (if !isEdge l ∧ (x.up ∨ x.state = .retraining) then (s.onLink l fun x => { x with state := .down }).loseOn l else s)

/-- LINK_CMD_TRAIN (R24, R363): massif-col edges ignore it; a ridge port that faces no module stays DOWN. -/
def execLinkCmdTrain (s : State) : Out :=
  let l := s.args.a
  let x := s.link_ l
  let may := !isEdge l && (!isRidge l || (s.facing l).isSome)
  s.needLstat l (if may ∧ (x.state = .down ∨ x.state = .failed) then s.train l .training else s)

/-- PEER_TRAINING (R363): the peer of ridge port `a` starts training. -/
def execPeerTraining (s : State) : Out :=
  let l := s.args.a
  s.need l linkCount (if isRidge l ∧ (s.facing l).isSome ∧ (s.link_ l).state = .down then s.train l .training else s)

/-- The massif at an end of an edge (R11). -/
def edgeMassif (l : Nat) : Nat :=
  let (c, y) := if l < 180 then (l % 15, l / 15) else ((l - 180) % 16, (l - 180) / 16)
  let (c, y) := if (c + y) % 2 = 0 then (c, y) else if l < 180 then (c + 1, y) else (c, y + 1)
  y * 8 + c / 2

/-- The contexts of the fault domains that an edge's failure concerns: those with a group on its massif, and those with an operation in
flight on it (R365). -/
def State.edgeContexts (s : State) (l : Nat) : List Nat :=
  let m := edgeMassif l
  let placed := (s.groups.filter fun e => e.2.tiles.any fun t => massifOf t == m).map (·.2.ctx)
  let flying := s.transit.filter fun x => x.on s.cycle l && (isLocal x.op.src || isSaved x.op.src)
  (placed ++ flying.map (·.ctx)).eraseDups

/-- An edge has FAILED: fatal for every fault domain there (R365, R374). -/
def State.edgeFails (s : State) (l : Nat) : State :=
  (s.edgeContexts l).foldl (fun s c => (s.post (.plain 0x0A c l)).fatalDomain c) (s.loseOn l)

/-- TRAINING_RESULT (R363, R365, R371): an attempt of link `a` ends with width `b` in sixteenths or lanes, zero when it has failed, and
for the CXL port with rate `c`. -/
def execTrainingResult (s : State) : Out :=
  let x := s.args
  let l := x.a
  let k := s.link_ l
  s.need l linkCount (
    if k.state ≠ .training ∧ k.state ≠ .retraining then s
    else if x.b = 16 ∨ x.b = 8 ∨ x.b = 4 then
      (s.onLink l fun k =>
        { k with state := if x.b = 16 then .active else .degraded, width := x.b, rate := if l = cxlPort then (if x.c = 2 then 2 else 1) else 0,
                 attempts := 0, again := 0 }).unstall l
    else if k.attempts + 1 < 3 then s.onLink l fun k => { k with attempts := k.attempts + 1 }
    else
      let s := s.onLink l fun k => { k with state := .failed, attempts := 0 }
      if isEdge l then s.edgeFails l else s.loseOn l)

/-- What a replay does to a piece that entered the link in the direction at or after the failing flit and is still on it: it is `c` cycles
later, and waits for the link where that retrains (R364). -/
def Transit.replayed (y : Transit) (now l dir from_ c : Nat) (stall : Bool) : Transit :=
  let behind := y.on now l && match y.last with
    | some (h, e) => h.dir == dir && decide (from_ ≤ e)
    | none => false
  if behind then { y with ready := y.ready + c, late := y.late + c, stalled := y.stalled || stall } else y

/-- CRC_RETRY (R363, R364): the flit that entered link `a` in direction `b` at cycle `d` is replayed, the same one as before with the
flag; the replay takes `c` cycles after those that the direction is busy with already, in which nothing new enters it. -/
def execCrcRetry (s : State) : Out :=
  let x := s.args
  let l := x.a
  s.need l linkCount (
    if !(s.link_ l).up then s
    else
      let n := if x.flag then (s.link_ l).again + 1 else 1
      let s := s.onLink l fun k =>
        { k with
          retries := satInc k.retries 1, again := if n < 8 then n else 0, state := if n < 8 then k.state else .retraining
          busy0 := if x.b = 0 then max k.busy0 s.cycle + x.c else k.busy0
          busy1 := if x.b = 0 then k.busy1 else max k.busy1 s.cycle + x.c }
      { s with transit := s.transit.map fun y => y.replayed s.cycle l x.b x.d x.c (decide (8 ≤ n)) })

/-! ### The cycle count (R370) -/

/-- Ridge ports send the count at every multiple of 4,096 cycles. -/
def State.sendSync (s : State) : State :=
  if s.cycle % 4096 ≠ 0 then s
  else
    let ports := ((List.range 64).map (356 + ·)).filter fun l => (s.link_ l).up
    { s with sent := s.sent ++ ports.map fun l => Message.toModule ((s.facing l).getD 0) "sync" (joined l) s.cycle }

/-- SYNC_FLIT (R370): ridge port `a` receives count `c`. -/
def execSyncFlit (s : State) : Out :=
  let l := s.args.a
  s.need l linkCount (
    if !isRidge l || !(s.link_ l).up || s.args.c + 96 == s.cycle then s
    else
      let s := s.train l .retraining
      let free := (List.range 64).all fun p => !(s.link_ (356 + p)).up
      { s with globals := { s.globals with missync := true, clkfree := s.globals.clkfree || free } })

/-- Ports that face no module are DOWN (R24); their counts, slots and accepted changes stay. -/
def State.downUnfaced (s : State) : State :=
  let idle := fun (l : Nat) => isRidge l && (s.facing l).isNone
  { s with links := s.links.map fun e => (e.1, if idle e.1 then { e.2 with state := .down, width := 0, rate := 0 } else e.2) }

/-- The change of a massif that waits for a multiple of 4,096 cycles (R379). -/
def Power.clockChange (p : Power) : Bool :=
  let clock := fun (s : PowerState) => s == .full || s == .reduced
  clock p.state && p.pending.any fun x => clock x.1

/-- The module takes a count (R370). What it times goes on for as long as before, but for what the spec ties to the count itself: frame
boundaries, clock changes (R369, R379) and deliver-at cycles. -/
def State.loadCount (s : State) (c : Nat) : State :=
  let on := fun (x : Nat) => x + c - s.cycle
  let next := (c / 4096 + 1) * 4096
  let retime := fun (e : Nat × Instr × Args) => match e.2.1 with
    | .slotFrameBoundary => ((c / frameOf e.2.2.a + 1) * frameOf e.2.2.a, e.2)
    | .powerTransitionDone => (if (s.powerOf e.2.2.a).clockChange then next else on e.1, e.2)
    | .timedRelease => e
    | _ => (on e.1, e.2)
  { s with
    cycle := c
    timers := s.timers.map retime
    power := s.power.map fun (e : Nat × Power) =>
      (e.1, { e.2 with pending := e.2.pending.map fun x => (x.1, if e.2.clockChange then next else on x.2) })
    queues := s.queues.map fun (e : Nat × Queue) =>
      (e.1, { e.2 with windowFrom := e.2.windowFrom.map on, packets := e.2.packets.map fun p => { p with deadline := on p.deadline } })
    carried := s.carried.map fun (k : Carried) => { k with deadline := on k.deadline }
    gates := s.gates.map fun (e : Nat × Gate) => (e.1, { e.2 with mover := e.2.mover.map fun m => { m with deadline := on m.deadline } })
    pulling := s.pulling.map fun (p : Pulling) => { p with since := on p.since }
    links := s.links.map fun (e : Nat × Link) => (e.1, { e.2 with busy0 := on e.2.busy0, busy1 := on e.2.busy1 })
    transit := s.transit.map fun (x : Transit) => { x with ready := on x.ready, last := x.last.map fun y => (y.1, on y.2) } }

/-- Whether this module is the time source of its domain: the present module with the lowest index. -/
def Globals.source (g : Globals) : Bool := g.present.all fun m => decide (g.modIdx ≤ m)

/-- DOMAIN_BRING_UP (R24, R370): this module is module `a` of the modules in `parts`, and takes the count `c` of the time source, the
lowest of them, before any group starts. -/
def execDomainBringUp (s : State) : Out :=
  let x := s.args
  s.need x.a 432 (
    if !s.groups.isEmpty then s
    else
      let present := (x.a :: (x.parts.map (·.1)).filter (· < 432)).eraseDups
      let s : State := { s with globals := { s.globals with modIdx := x.a, present := present, missync := false, clkfree := false } }
      (if s.globals.source then s else s.loadCount x.c).downUnfaced)

end Sys2Proof.Machine
end

