-- ==== Sys2Proof/Machine/Power.lean ====
section
/-! DEFINITION. Power states and bring-up (spec/17_faults_determinism_power.md R379, R380, R384). -/

namespace Sys2Proof.Machine

/-! ### Requests (R379) -/

def pwrOk : Nat := 0
def pwrBusy : Nat := 1
def pwrBadstate : Nat := 2
def pwrLockstep : Nat := 3

/-- Tiles that are not at their reset value, with their numbers. -/
def State.tilesAt (s : State) (m : Nat) : List (Nat × Tile) := ((s.cur, s.tile) :: s.tiles).filter fun e => massifOf e.1 == m

/-- A massif is idle. -/
def State.massifIdle (s : State) (m : Nat) : Bool :=
  (s.tilesAt m).all fun e =>
    e.2.place.group.isNone || e.2.place.status == .ended || e.2.place.status == .halted

/-- A tile of a lockstep group stands on the massif. -/
def State.massifLockstep (s : State) (m : Nat) : Bool :=
  s.groups.any fun e => e.2.lockstep && e.2.tiles.any fun t => massifOf t == m

def State.setPower (s : State) (m : Nat) (p : Power) : State := { s with power := put s.power m p }

/-- A transition that ends at a cycle. -/
def State.transition (s : State) (m : Nat) (p : Power) (new : PowerState) (done : Nat) : State :=
  (s.setPower m { p with pending := some (new, done), lastErr := pwrOk }).at_ done .powerTransitionDone { Args.none with a := m }

/-- A REQ of massif `a`: ignored while a transition is in progress. -/
def State.powerRequest (s : State) (k : Nat → Power → State) : Out :=
  let m := s.args.a
  let p := s.powerOf m
  s.needHost m 96 (if p.pending.isSome then s.setPower m { p with lastErr := pwrBusy } else k m p)

/-- A request for one of the clock states. -/
def State.clockRequest (s : State) (new : PowerState) : Out :=
  s.powerRequest fun m p =>
    match p.state with
    | .retention => s.transition m p new (s.cycle + 1536)
    | .off => s.transition m p new (s.cycle + 16384)
    | st =>
      if st = new then s.setPower m { p with lastErr := pwrBadstate }
      else if s.massifLockstep m then s.setPower m { p with lastErr := pwrLockstep }
      else s.transition m p new ((s.cycle / 4096 + 1) * 4096)

/-- POWER_REQ_FULL (R379). -/
def execPowerReqFull (s : State) : Out := s.clockRequest .full

/-- POWER_REQ_REDUCED (R379). -/
def execPowerReqReduced (s : State) : Out := s.clockRequest .reduced

/-- POWER_REQ_RETENTION (R379, R380). -/
def execPowerReqRetention (s : State) : Out :=
  s.powerRequest fun m p =>
    if p.state = .retention ∨ p.state = .off then s.setPower m { p with lastErr := pwrBadstate }
    else if s.massifIdle m then s.transition m p .retention (s.cycle + 1536)
    else s.setPower m { p with lastErr := pwrBusy }

/-- POWER_REQ_OFF (R379): within 1,536 cycles. -/
def execPowerReqOff (s : State) : Out :=
  s.powerRequest fun m p =>
    if p.state = .off then s.setPower m { p with lastErr := pwrBadstate }
    else if s.massifIdle m then
      ({ s with freeCtr := s.freeCtr + 1 }).transition m p .off (s.cycle + Config.freeWord s.freeCtr % 1537)
    else s.setPower m { p with lastErr := pwrBusy }

/-! ### The end of a transition (R379, R380) -/

/-- A cycle of the future in the tile cycles of the new clock. -/
def rescaled (now old new c : Nat) : Nat := if c ≤ now then c else now + (c - now) / old * new

/-- A cycle of the past, as many tile cycles of the new clock ago. -/
def rescaledPast (now old new c : Nat) : Nat := now - (now - c) / old * new

/-- Every tile-internal count in the new clock, gang skew among them. -/
def Tile.rescale (t : Tile) (now old new : Nat) : Tile :=
  let f := rescaled now old new
  { t with
    flights := t.flights.map fun x => { x with due := f x.due }
    mx := { t.mx with pending := t.mx.pending.map fun x => { x with due := f x.due } }
    ctl := { t.ctl with nextIssue := f t.ctl.nextIssue, scatterUntil := f t.ctl.scatterUntil }
    place := { t.place with feed := t.place.feed.map fun x => { x with cycle := rescaledPast now old new x.cycle } }
    io :=
      { t.io with
        stores := t.io.stores.map fun x => { x with due := f x.due }
        amos := t.io.amos.map fun x => { x with due := f x.due }
        reads := t.io.reads.map fun x => { x with due := f x.due }
        sincs := t.io.sincs.map fun x => (f x.1, x.2.1, x.2.2) } }

/-- A change at every tile of a massif. -/
def State.onMassif (s : State) (m : Nat) (f : Tile → Tile) : State :=
  let ts := (List.range (384 * 660)).filter fun t => massifOf t == m && s.tileExists t
  ts.foldl (fun s t => s.setTile t (f (s.getTile t))) s

/-- The words that an exit from retention loses, or that had a double error on entry: (tx, ty, offset) (R380). -/
def State.retentionLoss (s : State) (m : Nat) (words : List (Nat × Nat × Nat)) (zero : Bool) : State :=
  let ctxs := (s.contexts.filter fun e => match find s.partitions e.2.partition with
    | some p => p.massifs.contains m
    | none => false).map (·.1)
  words.foldl (fun s (tx, ty, off) =>
    let n := (m / 8 * 55 + ty) * 384 + m % 8 * 48 + tx
    let o := off / 32 * 32
    let s := if zero then s.onMerr m fun e => { e with retue := satInc e.retue 1 } else s.onMerr m fun e => { e with ue := satInc e.ue 1 }
    let s :=
      if zero then
        let t := s.getTile n
        s.setTile n { t with spad := t.spad.writeCells (cellsAt o (List.replicate 32 0)), ecc := t.ecc.filter fun e => e.1 / 2 != o / 32 }
      else s
    ctxs.foldl (fun s c => s.post (.plain 0x0C c (m + tx * 2 ^ 8 + ty * 2 ^ 14 + o * 2 ^ 20))) s) s

/-- Entry to retention reads every word of the massif's scratchpads: single errors are corrected, double ones are counted and reported as
those in `words` are, and are written with new check bits (R380). -/
def State.recode (s : State) (m : Nat) (words : List (Nat × Nat × Nat)) : State :=
  let hurt := (s.tilesAt m).filter fun e => !e.2.ecc.isEmpty
  let bad := hurt.flatMap fun e => ((e.2.ecc.filter (·.2)).map fun x => (txOf e.1, e.1 / 384 % 55, 16 * x.1 / 32 * 32)).eraseDups
  (hurt.foldl (fun s e => s.setTile e.1 { e.2 with ecc := [] }) s).retentionLoss m (bad ++ words) false

/-- The marked words of a tile as an exit from retention finds them: 32-byte words with at most two bit errors, which are corrected, and the
others, which are lost; a mark is one bit error of a bank word, or two (R380, log 110). -/
def markedWords (ecc : List (Nat × Bool)) : List Nat × List Nat :=
  let bits := fun (w : Nat) => ((ecc.filter fun e => e.1 / 2 == w).map fun e => if e.2 then 2 else 1).sum
  (((ecc.map fun e => e.1 / 2).eraseDups).filter fun w => decide (bits w ≤ 2), ((ecc.map fun e => e.1 / 2).eraseDups).filter fun w => decide (2 < bits w))

/-- Exit from retention (R380): marked words are corrected and counted, or lost, as those in `words` are beside them; `more` have been
corrected beside the marked ones. -/
def State.uncode (s : State) (m more : Nat) (words : List (Nat × Nat × Nat)) : State :=
  let hurt := (s.tilesAt m).filter fun e => !e.2.ecc.isEmpty
  let fixed := (hurt.map fun e => (markedWords e.2.ecc).1.length).sum + more
  let lost := hurt.flatMap fun e => (markedWords e.2.ecc).2.map fun w => (txOf e.1, e.1 / 384 % 55, 32 * w)
  let s := hurt.foldl (fun s e => s.setTile e.1 { e.2 with ecc := [] }) s
  (s.onMerr m fun e => { e with retce := satInc e.retce fixed }).retentionLoss m (lost ++ words) true

/-- Writes held at the massif's edge port go in, in arrival order (R379). -/
def State.releaseEdge (s : State) (m : Nat) : State :=
  let mine := s.parkedAtEdge.filter fun e => e.1 == m
  mine.foldl (fun s e => match e.2 with
    | .remote o => s.arriveOp o
    | .packet q i => s.goOn q i
    | .write t imem off bs => s.placeWrite 0 t imem off bs) { s with parkedAtEdge := s.parkedAtEdge.filter fun e => e.1 != m }

/-- POWER_TRANSITION_DONE (R379, R380): the transition of massif `a` ends. On an exit from retention `c` words have been corrected and
those in `parts` are lost, on an entry those in `parts` had double errors, each beside the words that are marked so. -/
def execPowerTransitionDone (s : State) : Out :=
  let x := s.args
  let m := x.a
  s.need m 96 (
    let p := s.powerOf m
    match p.pending with
    | none => s
    | some (new, done) =>
      if s.cycle < done then s
      else
        let unit := fun (st : PowerState) => if st = .reduced then 2 else 1
        let s := s.setPower m { p with state := new, pending := none }
        let s := match p.state, new with
          | .retention, .off => s
          | .retention, _ => s.uncode m x.c x.parts
          | .off, _ =>
            s.onMassif m fun t => { t with spad := .empty, imem := .empty, ecc := [], iecc := [], stale := [], loopBuf := [], bufFor := none }
          | _, .retention => s.recode m x.parts
          | a, b => if unit a = unit b then s else
            { s with
              tile := if massifOf s.cur = m then s.tile.rescale s.cycle (unit a) (unit b) else s.tile
              tiles := s.tiles.map fun (e : Nat × Tile) => if massifOf e.1 = m then (e.1, e.2.rescale s.cycle (unit a) (unit b)) else e
              timers := s.timers.map fun (e : Nat × Instr × Args) =>
                if e.2.1 == Instr.gangStopSignal && massifOf e.2.2.a == m then (rescaled s.cycle (unit a) (unit b) e.1, e.2) else e }
        let s :=
          if new = .off then
            let lost := fun (t : Tile) => { t with spad := { epoch := some s.nextNum, cells := [] }, imem := { epoch := some (s.nextNum + 1), cells := [] }, ecc := [], iecc := [] }
            { s.onMassif m lost with nextNum := s.nextNum + 2 }
          else s
        (if new = .retention then s else s.releaseEdge m).summit)

/-! ### Bring-up (R384) -/

/-- A link after training with a width and a rate; a width that no link has is a failure (R362, R363). -/
def trained (l w r : Nat) : Link :=
  if w = 16 ∨ w = 8 ∨ w = 4 then
    { Link.zero with state := if w = 16 then .active else .degraded, width := w, rate := if l = cxlPort then (if r = 2 then 2 else 1) else 0 }
  else { Link.zero with state := .failed }

/-- Links that bring-up trains (R363): those that are DOWN enter TRAINING. -/
def State.startTraining (s : State) (which : Nat → Bool) : State :=
  let ls := (List.range linkCount).filter fun l => which l && (s.link_ l).state == .down
  { s with links := ls.foldl (fun k l => put k l { Link.zero with state := .training }) s.links }

/-- The links that are still in TRAINING come out of it at full width unless `outcome` gives another (link, width, rate); `boot` may name one
that fails. -/
def State.endTraining (s : State) (outcome : List (Nat × Nat × Nat)) (boot : BootResult) : State :=
  let of := fun (l : Nat) =>
    if boot = .linkFail l then trained l 0 0
    else match outcome.find? fun x => x.1 == l with
      | some x => trained l x.2.1 x.2.2
      | none => trained l 16 1
  { s with links := s.links.map fun (e : Nat × Link) => if e.2.state = .training then (e.1, of e.1) else e }

/-- Stage 2 fails with an edge in FAILED, stage 3 with a massif that has more than two rows mapped out (R384). -/
def State.badEdge (s : State) : Option Nat := (s.links.find? fun e => isEdge e.1 && e.2.state == .failed).map (·.1)
def Globals.badMassif (g : Globals) (r : BootResult) : Option Nat :=
  match r with
  | .repairFail m => some m
  | _ => (List.range 96).find? fun m => decide (2 < (g.rowsOut m).length)

/-- Module reset (R384): every register at its reset value, device memory without defined contents. The repair record, the place in the
domain, the lineage counters, which are durable (R270), and the flags of CLKSTAT (R370, R373) stay. -/
def State.moduleReset (s : State) : State :=
  { State.reset with
    globals := { Globals.reset with modIdx := s.globals.modIdx, present := s.globals.present, missync := s.globals.missync,
                                    clkfree := s.globals.clkfree, mapped := s.globals.mapped }
    freeCtr := s.freeCtr, nextNum := s.nextNum + 1, dev := { epoch := some s.nextNum, cells := [] }, host := s.host, sent := s.sent
    script := s.script, cairns := s.cairns, cycle := s.cycle, counters := s.counters, released := s.released }

/-- Bring-up is at a stage, whose end follows after a time that the spec does not give (log 111), or has failed for good. -/
def State.bootStage (s : State) (n : Nat) : State :=
  let s := { s with globals := { s.globals with boot := n } }
  if n < 7 then
    { s with freeCtr := s.freeCtr + 1 }.at_ (s.cycle + 1 + Config.freeWord s.freeCtr % 2 ^ 32) .moduleReset { s.args with a := n }
  else s
def State.bootFails (s : State) (n detail : Nat) : State := { s with globals := { s.globals with boot := n, bootDetail := detail } }

/-- Stage 6 (R370, R384): the module has joined its domain's count, which is `ahead` cycles ahead of its own unless it is the time source;
every massif is FULL, and the memories of every tile are zero with valid check bits. -/
def State.joined (s : State) (ahead : Nat) : State :=
  let zero := fun (t : Tile) => { t with spad := .empty, imem := .empty, ecc := [], iecc := [], stale := [], loopBuf := [], bufFor := none }
  let s : State :=
    { s with
      tile := zero s.tile
      tiles := s.tiles.map fun (e : Nat × Tile) => (e.1, zero e.2)
      power := s.power.map fun (e : Nat × Power) => (e.1, { e.2 with state := .full, pending := none }) }
  if s.globals.source then s else s.loadCount (s.cycle + ahead)

/-- The work of a stage of bring-up, at its end (R384): stage 2 trains the CXL port and the edges, then the ridge ports (b = 1). -/
def State.bootWork (s : State) (stage : Nat) : State :=
  let x := s.args
  match stage with
  | 1 => if x.boot = .fwFail then s.bootFails 0x80 0 else ({ s with globals := { s.globals with measured := firmwareOf s.globals.modIdx } }.startTraining
      (fun l => !isRidge l)).bootStage 2
  | 2 =>
    let s := s.endTraining x.parts x.boot
    if x.b = 1 then s.bootStage 3
    else
      match s.badEdge with
      | some l => s.bootFails 0x81 l
      | none => { s.startTraining (fun l => isRidge l && (s.facing l).isSome) with args := { x with b := 1 } }.bootStage 2
  | 3 =>
    match s.globals.badMassif x.boot with
    | some m => s.bootFails 0x83 m
    | none => s.bootStage 4
  | 4 =>
    match x.boot with
    | .selfTestFail m => s.bootFails 0x82 m
    | _ => s.bootStage 5
  | 5 => s.bootStage 6
  | _ => (s.joined x.c).bootStage 7

/-- MODULE_RESET (R14, R384): the machine is reset and bring-up enters its first stage; with `a` a stage of bring-up, that stage ends. `boot`
and the outcomes of training in `parts` say how the stages end, `c` by how much the domain's count is ahead at the join. -/
def execModuleReset (s : State) : Out :=
  let x := s.args
  .next (
    if x.a = 0 then { s.moduleReset with args := { x with b := 0 } }.bootStage 1
    else if x.a < 7 ∧ s.globals.boot = x.a then s.bootWork x.a
    else s)

end Sys2Proof.Machine
end

