-- ==== Sys2Proof/Machine/Registers.lean ====
section
/-! DEFINITION. The control BAR and the notify pages as the host reads them, register writes, and the HDM range (spec/16_link.md
R371-R373; spec/01_stoub_module.md R17; spec/11_queue.md R280, R286, R289; spec/17_faults_determinism_power.md R378-R384). -/

namespace Sys2Proof.Machine

/-! ### Register values (R5, R6) -/

def LinkState.code : LinkState → Nat
  | .down => 0
  | .training => 1
  | .active => 2
  | .degraded => 3
  | .retraining => 4
  | .failed => 5
def PowerState.code : PowerState → Nat
  | .full => 0
  | .reduced => 1
  | .retention => 2
  | .off => 3

/-- LSTAT (R362). -/
def Link.lstat (l : Link) : Nat := l.retries * 2 ^ 32 + l.rate * 2 ^ 16 + l.width * 2 ^ 8 + l.state.code
/-- PWR (R379). -/
def Power.pwr (p : Power) : Nat := p.lastErr * 2 ^ 32 + (if p.pending.isSome then 2 ^ 8 else 0) + p.state.code
/-- MERR and CERR (R378). -/
def Merr.words (e : Merr) : List Nat := [0, e.spadce, e.netce, e.imce, e.ue, e.semLost, e.retce, e.retue]
def Cerr.words (e : Cerr) : List Nat := [e.hbmce, e.hbmue, e.lpce, e.lpue, 0, 0, 0, 0]
/-- CLKSTAT (R373). -/
def Globals.clkstat (g : Globals) : Nat := (if g.missync then 1 else 0) + if g.clkfree then 2 else 0
/-- LIMCTL (R381). -/
def Globals.limctl (g : Globals) : Nat := g.step * 2 ^ 24 + (if g.stagger then 2 ^ 16 else 0) + g.win
/-- BOOTSTAT (R384). -/
def Globals.bootstat (g : Globals) : Nat := g.bootDetail * 2 ^ 48 + g.boot

/-- An interface entry (R289). -/
def Interface.entry (x : Interface) : List Byte :=
  natBytes x.state 1 ++ natBytes x.iflags 1 ++ natBytes x.ctx 2 ++ natBytes x.pasid 4 ++ natBytes 0 8 ++ natBytes x.ires 8 ++ natBytes 0 8 ++
    (x.irq.toList.map fun w => natBytes w.toNat 4).flatten

/-- Massifs with two mapped-out rows. -/
def Globals.reduced (g : Globals) : Nat := (List.range 96).countP fun m => decide (1 < (g.rowsOut m).length)
/-- Bytes 0x000-0x0FF of the grade record (R17). -/
def Globals.gradeFields (g : Globals) : List Byte :=
  let r := g.reduced
  natBytes 1 4 ++ natBytes (if r = 0 then 1 else 2) 1 ++ natBytes 0 3 ++ natBytes (253440 - 48 * r) 4 ++ natBytes r 4 ++
    ((List.range 96).map fun m => natBytes ((g.rowsOut m).getD 0 0xFF) 1 ++ natBytes ((g.rowsOut m).getD 1 0xFF) 1).flatten ++ List.replicate 48 0
/-- The grade record, published in stage 5 of bring-up (R17, R384); before that the model reads zeros (DESIGN CHOICE, log 75). -/
def Globals.grade (g : Globals) : List Byte := if g.boot = 6 ∨ g.boot = 7 then g.gradeFields ++ shaBytes g.gradeFields else List.replicate 288 0

/-- The bytes of a block register at an offset of BAR0 (R372): the block's own bytes and the offset in them. -/
def State.bar0Block (s : State) (o : Nat) : List Byte × Nat :=
  let g := s.globals
  if o < 0x20 then (natBytes g.modIdx 4 ++ natBytes g.clkstat 4 ++ natBytes s.cycle 8 ++ natBytes g.hwBase 8 ++ natBytes g.hdmBase 8, o)
  else if 0x1000 ≤ o ∧ o < 0x1120 then (g.grade, o - 0x1000)
  else if 0x2000 ≤ o ∧ o < 0x2000 + 8 * linkCount then (natBytes (s.link_ ((o - 0x2000) / 8)).lstat 8, o % 8)
  else if 0x4000 ≤ o ∧ o < 0x4010 then (natBytes g.limctl 8 ++ natBytes g.bootstat 8, o - 0x4000)
  else if 0x4800 ≤ o ∧ o < 0x4B00 then (natBytes (s.powerOf ((o - 0x4800) / 8)).pwr 8, o % 8)
  else if 0x5000 ≤ o ∧ o < 0x5C00 then
    (((((find s.merr ((o - 0x5000) / 32)).getD .zero).words).map fun w => natBytes w 4).flatten, o % 32)
  else if 0x6000 ≤ o ∧ o < 0x6C00 then
    (((((find s.cerr ((o - 0x6000) / 32)).getD .zero).words).map fun w => natBytes w 4).flatten, o % 32)
  else if 0x100000 ≤ o ∧ o < 0x108000 then ([s.msixByte (o - 0x100000)], 0)
  else if 0x108000 ≤ o ∧ o < 0x108100 then (natBytes s.pba 256, o - 0x108000)
  else if 0x200000 ≤ o ∧ o < 0x240000 then ((s.interface ((o - 0x200000) / 64)).entry, o % 64)
  else if 0x1000000 ≤ o ∧ o < 0x1600000 then ((s.queue ((o - 0x1000000) / 64)).descriptor, o % 64)
  else ([], 0)

/-- One byte of BAR0 as the host reads it; unlisted offsets read as zero (R372). -/
def State.bar0 (s : State) (o : Nat) : Byte := let b := s.bar0Block o; b.1.getD b.2 0

/-- The register of a notify page's block (R286), as it reads without a claim. -/
def State.notifyRead (s : State) (intf block offset : Nat) : Nat :=
  match s.notifyQueue intf block with
  | none => 2 ^ 64 - 1
  | some (_, q) =>
    if offset = 0x10 then q.wridx else if offset = 0x18 then q.rdidx else if offset = 0x20 then q.doneReg
    else if offset = 0x28 then q.statusWord.toNat else 0

/-! ### REGISTER_WRITE (R5, R372, R373) -/

/-- The value of a field of `n` bytes at `base` after the write of one byte. -/
def patched (old base n o : Nat) (b : Byte) : Nat :=
  if base ≤ o ∧ o < base + n then
    let i := 8 * (o - base)
    old - bitsOf old i 8 * 2 ^ i + b.toNat * 2 ^ i
  else old

/-- One byte written to an interface entry (R289). -/
def Interface.write (x : Interface) (o : Nat) (b : Byte) : Interface :=
  { x with
    iflags := patched x.iflags 1 1 o b % 2
    ctx := patched x.ctx 2 2 o b
    pasid := patched x.pasid 4 4 o b % 2 ^ 20
    irq := Vector.ofFn fun i : Fin 8 => BitVec.ofNat 32 (patched (x.irq[i]).toNat (0x20 + 4 * i.val) 4 o b) &&& 0x800007FF }

/-- One byte written to a queue descriptor that is FREE (R280). -/
def Queue.write (q : Queue) (o : Nat) (b : Byte) : Queue :=
  if q.state ≠ .free ∨ q.busy = true then q
  else
    { q with
      base := patched q.base 0 8 o b, logSize := patched q.logSize 8 1 o b, qflags := patched q.qflags 9 1 o b
      ctx := patched q.ctx 0xA 2 o b, intf := patched q.intf 0xC 2 o b, qsel := patched q.qsel 0xE 1 o b }

/-- One byte written to the MSI-X table: a vector that is unmasked sends the message that pends (R289, R372). -/
def State.msixWrite (s : State) (o : Nat) (b : Byte) : State :=
  let s := { s with msix := s.msix.write o (if o % 16 = 12 then b ^^^ 1 else b) }
  let v := o / 16
  if s.pba.testBit v && !s.vectorMasked v then { s with pba := s.pba - 2 ^ v }.sendVector v else s

/-- One byte written to BAR0: fields that hold what is written. The commands of QCMD, ICMD, LSTAT and PWR are events of their own. -/
def State.bar0Write (s : State) (o : Nat) (b : Byte) : State :=
  let g := s.globals
  if 0x10 ≤ o ∧ o < 0x20 then
    { s with globals := { g with hwBase := patched g.hwBase 0x10 8 o b, hdmBase := patched g.hdmBase 0x18 8 o b } }
  else if 0x4000 ≤ o ∧ o < 0x4008 then
    let w := patched g.limctl 0x4000 8 o b
    { s with globals := { g with step := bitsOf w 24 8, stagger := w.testBit 16, win := bitsOf w 0 13 } }
  else if 0x100000 ≤ o ∧ o < 0x108000 then s.msixWrite (o - 0x100000) b
  else if 0x200000 ≤ o ∧ o < 0x240000 then
    let n := (o - 0x200000) / 64
    let x := s.interface n
    s.setInterface n (x.write (o % 64) b)
  else if 0x1000000 ≤ o ∧ o < 0x1600000 then
    let n := (o - 0x1000000) / 64
    { s with queues := put s.queues n ((s.queue n).write (o % 64) b) }
  else s

/-- The ICMD values of a write of bytes at an offset of BAR0: interface and value. -/
def icmdValues (a : Nat) (bs : List Byte) : List (Nat × Nat) :=
  let at_ := (bs.zipIdx.map fun e => (a + e.2, e.1)).filter fun e => decide (0x200000 ≤ e.1) && decide (e.1 < 0x240000) && decide (e.1 % 64 / 8 = 1)
  let num := fun (o : Nat) => (o - 0x200000) / 64
  ((at_.map fun e => num e.1).eraseDups).map fun n => (n, (at_.filter fun e => num e.1 == n).foldl (fun v e => v + e.2.toNat * 2 ^ (8 * (e.1 % 8))) 0)

/-- An ICMD value that names no command is refused (R290). -/
def State.refuseIcmd (s : State) (a : Nat) (bs : List Byte) : State :=
  ((icmdValues a bs).filter fun e => e.2 != 1 && e.2 != 2 && e.2 != 3).foldl
    (fun s e => s.setInterface e.1 { s.interface e.1 with ires := resBadstate }) s

/-- REGISTER_WRITE (R5, R365, R372): a write of `bytes` at offset `a` of BAR0. -/
def execRegisterWrite (s : State) : Out :=
  let x := s.args
  s.need x.a (2 ^ 25) (if s.hostPort then ((x.bytes.zipIdx).foldl (fun s e => s.bar0Write (x.a + e.2) e.1) s).refuseIcmd x.a x.bytes else s)

/-! ### The HDM range (R371, R377) -/

/-- Whether any granule of a range holds an uncorrectable error; the counters see every error. -/
def State.hostEcc (s : State) (a n : Nat) : State × Bool :=
  ((List.range (n + 1)).map fun i => (a + i) / 64).eraseDups.foldl (fun (s, bad) k =>
    if k * 64 < a + n then
      let (s, e) := s.devEccAt (k * 64)
      (s, bad || e == 2)
    else (s, bad)) (s, false)

/-- HOST_CXL_MEM_ACCESS (R241, R252, R365, R371, R377): the host reads `c` bytes at host physical address `a`, or with the flag writes
`bytes` there; outside the HDM range the address names the host's own memory. -/
def execHostCxlMemAccess (s : State) : Out :=
  let x := s.args
  let o := x.a - s.globals.hdmBase
  let mine := decide (s.globals.hdmBase ≤ x.a) && decide (o < 0x140000000000)
  let own := match ownDpa o with
    | .bad => false
    | _ => true
  .next (
    if !mine then
      (if x.flag then { s with host := s.host.writeCells (cellsAt x.a x.bytes) } else { s with sent := s.sent ++ [.readData (s.host.bytes x.a x.c)] })
    else if !s.hostPort then s
    else if x.flag then (if own then s.dpaWrite o x.bytes else s)
    else if !own then
      let m : Message := .readData (List.replicate x.c 0xFF)
      { s with sent := s.sent ++ [m] }
    else
      let (s, bad) := s.hostEcc o x.c
      let m : Message := if bad then .poison else .readData (s.dpaBytes o x.c)
      { s with sent := s.sent ++ [m] })

end Sys2Proof.Machine
end

