-- ==== Sys2Proof/Machine/Dispatch.lean ====
section
/-! DEFINITION. One arm for each constructor of the syntax: the meaning of every instruction and event. -/

namespace Sys2Proof.Machine

def exec (i : Instr) (s : State) : Host.Outcome State Fault Refusal :=
  match i with
  | .nop l => Sys2Proof.Machine.execNop l s
  | .br l d => Sys2Proof.Machine.execBr l d s
  | .brz l src d => Sys2Proof.Machine.execBrz l src d s
  | .brnz l src d => Sys2Proof.Machine.execBrnz l src d s
  | .jmp l src => Sys2Proof.Machine.execJmp l src s
  | .call l d => Sys2Proof.Machine.execCall l d s
  | .callr l src => Sys2Proof.Machine.execCallr l src s
  | .ret l => Sys2Proof.Machine.execRet l s
  | .loop l src n => Sys2Proof.Machine.execLoop l src n s
  | .loopm l src ii g => Sys2Proof.Machine.execLoopm l src ii g s
  | .brk l src n => Sys2Proof.Machine.execBrk l src n s
  | .yield l => Sys2Proof.Machine.execYield l s
  | .tend l => Sys2Proof.Machine.execTend l s
  | .trap l imm => Sys2Proof.Machine.execTrap l imm s
  | .eret l => Sys2Proof.Machine.execEret l s
  | .ifence l => Sys2Proof.Machine.execIfence l s
  | .rrbset l n => Sys2Proof.Machine.execRrbset l n s
  | .nopre l => Sys2Proof.Machine.execNopre l s
  | .nopreend l => Sys2Proof.Machine.execNopreend l s
  | .waitc l src => Sys2Proof.Machine.execWaitc l src s
  | .halt l => Sys2Proof.Machine.execHalt l s
  | .stg l m => Sys2Proof.Machine.execStg l m s
  | .add f => Sys2Proof.Machine.execAdd f s
  | .sub f => Sys2Proof.Machine.execSub f s
  | .mul f => Sys2Proof.Machine.execMul f s
  | .mulh f => Sys2Proof.Machine.execMulh f s
  | .mulhu f => Sys2Proof.Machine.execMulhu f s
  | .div f => Sys2Proof.Machine.execDiv f s
  | .divu f => Sys2Proof.Machine.execDivu f s
  | .rem f => Sys2Proof.Machine.execRem f s
  | .remu f => Sys2Proof.Machine.execRemu f s
  | .and f => Sys2Proof.Machine.execAnd f s
  | .or f => Sys2Proof.Machine.execOr f s
  | .xor f => Sys2Proof.Machine.execXor f s
  | .andn f => Sys2Proof.Machine.execAndn f s
  | .orn f => Sys2Proof.Machine.execOrn f s
  | .sel f => Sys2Proof.Machine.execSel f s
  | .shl f => Sys2Proof.Machine.execShl f s
  | .shr f => Sys2Proof.Machine.execShr f s
  | .sra f => Sys2Proof.Machine.execSra f s
  | .rotl f => Sys2Proof.Machine.execRotl f s
  | .cmpeq f => Sys2Proof.Machine.execCmpeq f s
  | .cmpne f => Sys2Proof.Machine.execCmpne f s
  | .cmplt f => Sys2Proof.Machine.execCmplt f s
  | .cmpltu f => Sys2Proof.Machine.execCmpltu f s
  | .cmple f => Sys2Proof.Machine.execCmple f s
  | .cmpleu f => Sys2Proof.Machine.execCmpleu f s
  | .min f => Sys2Proof.Machine.execMin f s
  | .max f => Sys2Proof.Machine.execMax f s
  | .minu f => Sys2Proof.Machine.execMinu f s
  | .maxu f => Sys2Proof.Machine.execMaxu f s
  | .clz f => Sys2Proof.Machine.execClz f s
  | .ctz f => Sys2Proof.Machine.execCtz f s
  | .popc f => Sys2Proof.Machine.execPopc f s
  | .ext f => Sys2Proof.Machine.execExt f s
  | .ins f => Sys2Proof.Machine.execIns f s
  | .addi f => Sys2Proof.Machine.execAddi f s
  | .andi f => Sys2Proof.Machine.execAndi f s
  | .ori f => Sys2Proof.Machine.execOri f s
  | .xori f => Sys2Proof.Machine.execXori f s
  | .shli f => Sys2Proof.Machine.execShli f s
  | .shri f => Sys2Proof.Machine.execShri f s
  | .srai f => Sys2Proof.Machine.execSrai f s
  | .cmpeqi f => Sys2Proof.Machine.execCmpeqi f s
  | .cmplti f => Sys2Proof.Machine.execCmplti f s
  | .cmpltui f => Sys2Proof.Machine.execCmpltui f s
  | .movi f => Sys2Proof.Machine.execMovi f s
  | .movhi f => Sys2Proof.Machine.execMovhi f s
  | .movfi f => Sys2Proof.Machine.execMovfi f s
  | .fadd f => Sys2Proof.Machine.execFadd f s
  | .fsub f => Sys2Proof.Machine.execFsub f s
  | .fmul f => Sys2Proof.Machine.execFmul f s
  | .ffma f => Sys2Proof.Machine.execFfma f s
  | .fmin f => Sys2Proof.Machine.execFmin f s
  | .fmax f => Sys2Proof.Machine.execFmax f s
  | .fcmpeq f => Sys2Proof.Machine.execFcmpeq f s
  | .fcmplt f => Sys2Proof.Machine.execFcmplt f s
  | .fcmple f => Sys2Proof.Machine.execFcmple f s
  | .fcvt f => Sys2Proof.Machine.execFcvt f s
  | .fdiv f => Sys2Proof.Machine.execFdiv f s
  | .fsqrt f => Sys2Proof.Machine.execFsqrt f s
  | .tadd f => Sys2Proof.Machine.execTadd f s
  | .tmul f => Sys2Proof.Machine.execTmul f s
  | .tfma f => Sys2Proof.Machine.execTfma f s
  | .amov f => Sys2Proof.Machine.execAmov f s
  | .aaddi f => Sys2Proof.Machine.execAaddi f s
  | .aread f => Sys2Proof.Machine.execAread f s
  | .adelta f => Sys2Proof.Machine.execAdelta f s
  | .lidx f => Sys2Proof.Machine.execLidx f s
  | .csrr f => Sys2Proof.Machine.execCsrr f s
  | .csrw f => Sys2Proof.Machine.execCsrw f s
  | .topo f => Sys2Proof.Machine.execTopo f s
  | .rdcyc f => Sys2Proof.Machine.execRdcyc f s
  | .pany f => Sys2Proof.Machine.execPany f s
  | .pall f => Sys2Proof.Machine.execPall f s
  | .pcnt f => Sys2Proof.Machine.execPcnt f s
  | .ldb f => Sys2Proof.Machine.execLdb f s
  | .ldbu f => Sys2Proof.Machine.execLdbu f s
  | .ldh f => Sys2Proof.Machine.execLdh f s
  | .ldhu f => Sys2Proof.Machine.execLdhu f s
  | .ldw f => Sys2Proof.Machine.execLdw f s
  | .ldwu f => Sys2Proof.Machine.execLdwu f s
  | .ldd f => Sys2Proof.Machine.execLdd f s
  | .stb f => Sys2Proof.Machine.execStb f s
  | .sth f => Sys2Proof.Machine.execSth f s
  | .stw f => Sys2Proof.Machine.execStw f s
  | .std f => Sys2Proof.Machine.execStd f s
  | .vld f => Sys2Proof.Machine.execVld f s
  | .vst f => Sys2Proof.Machine.execVst f s
  | .vlds f => Sys2Proof.Machine.execVlds f s
  | .vsts f => Sys2Proof.Machine.execVsts f s
  | .vgather f => Sys2Proof.Machine.execVgather f s
  | .vscatter f => Sys2Proof.Machine.execVscatter f s
  | .vldb f => Sys2Proof.Machine.execVldb f s
  | .pld f => Sys2Proof.Machine.execPld f s
  | .pst f => Sys2Proof.Machine.execPst f s
  | .kld f => Sys2Proof.Machine.execKld f s
  | .qsave f => Sys2Proof.Machine.execQsave f s
  | .qload f => Sys2Proof.Machine.execQload f s
  | .istore f => Sys2Proof.Machine.execIstore f s
  | .amoadd f => Sys2Proof.Machine.execAmoadd f s
  | .amoand f => Sys2Proof.Machine.execAmoand f s
  | .amoor f => Sys2Proof.Machine.execAmoor f s
  | .amoxor f => Sys2Proof.Machine.execAmoxor f s
  | .amomin f => Sys2Proof.Machine.execAmomin f s
  | .amomax f => Sys2Proof.Machine.execAmomax f s
  | .amominu f => Sys2Proof.Machine.execAmominu f s
  | .amomaxu f => Sys2Proof.Machine.execAmomaxu f s
  | .amoswap f => Sys2Proof.Machine.execAmoswap f s
  | .amocas f => Sys2Proof.Machine.execAmocas f s
  | .amofadd f => Sys2Proof.Machine.execAmofadd f s
  | .amotadd f => Sys2Proof.Machine.execAmotadd f s
  | .rput f => Sys2Proof.Machine.execRput f s
  | .rputv f => Sys2Proof.Machine.execRputv f s
  | .ramo f => Sys2Proof.Machine.execRamo f s
  | .sinc f => Sys2Proof.Machine.execSinc f s
  | .swait f => Sys2Proof.Machine.execSwait f s
  | .sexpect f => Sys2Proof.Machine.execSexpect f s
  | .swaite f => Sys2Proof.Machine.execSwaite f s
  | .sread f => Sys2Proof.Machine.execSread f s
  | .bararr f => Sys2Proof.Machine.execBararr f s
  | .barwait f => Sys2Proof.Machine.execBarwait f s
  | .fence f => Sys2Proof.Machine.execFence f s
  | .fencemark f => Sys2Proof.Machine.execFencemark f s
  | .gpost f => Sys2Proof.Machine.execGpost f s
  | .gwait f => Sys2Proof.Machine.execGwait f s
  | .gtry f => Sys2Proof.Machine.execGtry f s
  | .gread f => Sys2Proof.Machine.execGread f s
  | .vsetf f => Sys2Proof.Machine.execVsetf f s
  | .vadd f => Sys2Proof.Machine.execVadd f s
  | .vsub f => Sys2Proof.Machine.execVsub f s
  | .vmul f => Sys2Proof.Machine.execVmul f s
  | .vfma f => Sys2Proof.Machine.execVfma f s
  | .vfms f => Sys2Proof.Machine.execVfms f s
  | .vfnma f => Sys2Proof.Machine.execVfnma f s
  | .vdiv f => Sys2Proof.Machine.execVdiv f s
  | .vmin f => Sys2Proof.Machine.execVmin f s
  | .vmax f => Sys2Proof.Machine.execVmax f s
  | .vabs f => Sys2Proof.Machine.execVabs f s
  | .vneg f => Sys2Proof.Machine.execVneg f s
  | .vcmpeq f => Sys2Proof.Machine.execVcmpeq f s
  | .vcmplt f => Sys2Proof.Machine.execVcmplt f s
  | .vcmple f => Sys2Proof.Machine.execVcmple f s
  | .vsel f => Sys2Proof.Machine.execVsel f s
  | .vand f => Sys2Proof.Machine.execVand f s
  | .vor f => Sys2Proof.Machine.execVor f s
  | .vxor f => Sys2Proof.Machine.execVxor f s
  | .vshl f => Sys2Proof.Machine.execVshl f s
  | .vshr f => Sys2Proof.Machine.execVshr f s
  | .vsra f => Sys2Proof.Machine.execVsra f s
  | .vqdot f => Sys2Proof.Machine.execVqdot f s
  | .vqadd f => Sys2Proof.Machine.execVqadd f s
  | .vqacc f => Sys2Proof.Machine.execVqacc f s
  | .vqsub f => Sys2Proof.Machine.execVqsub f s
  | .vqrnd f => Sys2Proof.Machine.execVqrnd f s
  | .vqscale f => Sys2Proof.Machine.execVqscale f s
  | .vqclr f => Sys2Proof.Machine.execVqclr f s
  | .vqmovQq f => Sys2Proof.Machine.execVqmovQq f s
  | .vqmovVq f => Sys2Proof.Machine.execVqmovVq f s
  | .vqmovQv f => Sys2Proof.Machine.execVqmovQv f s
  | .vlqmac f => Sys2Proof.Machine.execVlqmac f s
  | .vlqadd f => Sys2Proof.Machine.execVlqadd f s
  | .vlqrnd f => Sys2Proof.Machine.execVlqrnd f s
  | .vlqclr f => Sys2Proof.Machine.execVlqclr f s
  | .vpiv f => Sys2Proof.Machine.execVpiv f s
  | .vcvt f => Sys2Proof.Machine.execVcvt f s
  | .vpack4 f => Sys2Proof.Machine.execVpack4 f s
  | .vunpack4 f => Sys2Proof.Machine.execVunpack4 f s
  | .vperm f => Sys2Proof.Machine.execVperm f s
  | .vrotl f => Sys2Proof.Machine.execVrotl f s
  | .vslide f => Sys2Proof.Machine.execVslide f s
  | .vbcast f => Sys2Proof.Machine.execVbcast f s
  | .viota f => Sys2Proof.Machine.execViota f s
  | .vmov f => Sys2Proof.Machine.execVmov f s
  | .vext f => Sys2Proof.Machine.execVext f s
  | .vins f => Sys2Proof.Machine.execVins f s
  | .vrand f => Sys2Proof.Machine.execVrand f s
  | .vtopk f => Sys2Proof.Machine.execVtopk f s
  | .vdigest f => Sys2Proof.Machine.execVdigest f s
  | .vrecip f => Sys2Proof.Machine.execVrecip f s
  | .vrsqrt f => Sys2Proof.Machine.execVrsqrt f s
  | .vsqrt f => Sys2Proof.Machine.execVsqrt f s
  | .vexp2 f => Sys2Proof.Machine.execVexp2 f s
  | .vlog2 f => Sys2Proof.Machine.execVlog2 f s
  | .vtanh f => Sys2Proof.Machine.execVtanh f s
  | .vsigm f => Sys2Proof.Machine.execVsigm f s
  | .pand f => Sys2Proof.Machine.execPand f s
  | .por f => Sys2Proof.Machine.execPor f s
  | .pxor f => Sys2Proof.Machine.execPxor f s
  | .pnot f => Sys2Proof.Machine.execPnot f s
  | .pset f => Sys2Proof.Machine.execPset f s
  | .mcfg f => Sys2Proof.Machine.execMcfg f s
  | .macc f => Sys2Proof.Machine.execMacc f s
  | .mshift f => Sys2Proof.Machine.execMshift f s
  | .mscale f => Sys2Proof.Machine.execMscale f s
  | .mdrain f => Sys2Proof.Machine.execMdrain f s
  | .mdrainq f => Sys2Proof.Machine.execMdrainq f s
  | .mclr f => Sys2Proof.Machine.execMclr f s
  | .msave f => Sys2Proof.Machine.execMsave f s
  | .mrestore f => Sys2Proof.Machine.execMrestore f s
  | .mbar f => Sys2Proof.Machine.execMbar f s
  | .cqpush f => Sys2Proof.Machine.execCqpush f s
  | .cwait f => Sys2Proof.Machine.execCwait f s
  | .cdone f => Sys2Proof.Machine.execCdone f s
  | .ckick f => Sys2Proof.Machine.execCkick f s
  | .cqres f => Sys2Proof.Machine.execCqres f s
  | .resultLanding => Sys2Proof.Machine.execResultLanding s
  | .storeWrite => Sys2Proof.Machine.execStoreWrite s
  | .trapEntry => Sys2Proof.Machine.execTrapEntry s
  | .waitSatisfied => Sys2Proof.Machine.execWaitSatisfied s
  | .gangStopSignal => Sys2Proof.Machine.execGangStopSignal s
  | .preemptRequest => Sys2Proof.Machine.execPreemptRequest s
  | .taskStart => Sys2Proof.Machine.execTaskStart s
  | .writeQueueDepart => Sys2Proof.Machine.execWriteQueueDepart s
  | .requestQueueDepart => Sys2Proof.Machine.execRequestQueueDepart s
  | .remoteApply => Sys2Proof.Machine.execRemoteApply s
  | .timedRelease => Sys2Proof.Machine.execTimedRelease s
  | .doneshPublication => Sys2Proof.Machine.execDoneshPublication s
  | .gatePublication => Sys2Proof.Machine.execGatePublication s
  | .tokenDivision => Sys2Proof.Machine.execTokenDivision s
  | .gatePostArrival => Sys2Proof.Machine.execGatePostArrival s
  | .waiterRecord => Sys2Proof.Machine.execWaiterRecord s
  | .moveInstall => Sys2Proof.Machine.execMoveInstall s
  | .barrierArrival => Sys2Proof.Machine.execBarrierArrival s
  | .barrierRelease => Sys2Proof.Machine.execBarrierRelease s
  | .kick => Sys2Proof.Machine.execKick s
  | .claim => Sys2Proof.Machine.execClaim s
  | .consumerSweep => Sys2Proof.Machine.execConsumerSweep s
  | .contentWindowExpiry => Sys2Proof.Machine.execContentWindowExpiry s
  | .packetBegin => Sys2Proof.Machine.execPacketBegin s
  | .packetCompletion => Sys2Proof.Machine.execPacketCompletion s
  | .copyV1 => Sys2Proof.Machine.execCopyV1 s
  | .copyV2 => Sys2Proof.Machine.execCopyV2 s
  | .tile2d => Sys2Proof.Machine.execTile2d s
  | .mcast2d => Sys2Proof.Machine.execMcast2d s
  | .fill => Sys2Proof.Machine.execFill s
  | .packetFence => Sys2Proof.Machine.execPacketFence s
  | .mark => Sys2Proof.Machine.execMark s
  | .signal => Sys2Proof.Machine.execSignal s
  | .prefetch => Sys2Proof.Machine.execPrefetch s
  | .migrate => Sys2Proof.Machine.execMigrate s
  | .launch => Sys2Proof.Machine.execLaunch s
  | .launchDepsMet => Sys2Proof.Machine.execLaunchDepsMet s
  | .launchCheck => Sys2Proof.Machine.execLaunchCheck s
  | .placementDecision => Sys2Proof.Machine.execPlacementDecision s
  | .groupLoaded => Sys2Proof.Machine.execGroupLoaded s
  | .launchDone => Sys2Proof.Machine.execLaunchDone s
  | .sliceEnd => Sys2Proof.Machine.execSliceEnd s
  | .watchdog => Sys2Proof.Machine.execWatchdog s
  | .groupSave => Sys2Proof.Machine.execGroupSave s
  | .groupResume => Sys2Proof.Machine.execGroupResume s
  | .contextSuspended => Sys2Proof.Machine.execContextSuspended s
  | .fatalTeardown => Sys2Proof.Machine.execFatalTeardown s
  | .ctxCreate => Sys2Proof.Machine.execCtxCreate s
  | .ctxSuspend => Sys2Proof.Machine.execCtxSuspend s
  | .ctxResume => Sys2Proof.Machine.execCtxResume s
  | .ctxDestroy => Sys2Proof.Machine.execCtxDestroy s
  | .seal => Sys2Proof.Machine.execSeal s
  | .restore => Sys2Proof.Machine.execRestore s
  | .rehome => Sys2Proof.Machine.execRehome s
  | .placeSet => Sys2Proof.Machine.execPlaceSet s
  | .slotSet => Sys2Proof.Machine.execSlotSet s
  | .slotFrameBoundary => Sys2Proof.Machine.execSlotFrameBoundary s
  | .mapEntry => Sys2Proof.Machine.execMapEntry s
  | .mapRange => Sys2Proof.Machine.execMapRange s
  | .mapRoots => Sys2Proof.Machine.execMapRoots s
  | .mapRings => Sys2Proof.Machine.execMapRings s
  | .unmap => Sys2Proof.Machine.execUnmap s
  | .invalidate => Sys2Proof.Machine.execInvalidate s
  | .harvest => Sys2Proof.Machine.execHarvest s
  | .faultResume => Sys2Proof.Machine.execFaultResume s
  | .gateCreate => Sys2Proof.Machine.execGateCreate s
  | .gateOpen => Sys2Proof.Machine.execGateOpen s
  | .gateClose => Sys2Proof.Machine.execGateClose s
  | .gateSetacl => Sys2Proof.Machine.execGateSetacl s
  | .gateMove => Sys2Proof.Machine.execGateMove s
  | .gateRevoke => Sys2Proof.Machine.execGateRevoke s
  | .gateFree => Sys2Proof.Machine.execGateFree s
  | .gateFreefwd => Sys2Proof.Machine.execGateFreefwd s
  | .queueCreate => Sys2Proof.Machine.execQueueCreate s
  | .queueDestroy => Sys2Proof.Machine.execQueueDestroy s
  | .queueReset => Sys2Proof.Machine.execQueueReset s
  | .interfaceBind => Sys2Proof.Machine.execInterfaceBind s
  | .interfaceRevoke => Sys2Proof.Machine.execInterfaceRevoke s
  | .interfaceRelease => Sys2Proof.Machine.execInterfaceRelease s
  | .interfaceRevoked => Sys2Proof.Machine.execInterfaceRevoked s
  | .linkCmdRetrain => Sys2Proof.Machine.execLinkCmdRetrain s
  | .linkCmdDown => Sys2Proof.Machine.execLinkCmdDown s
  | .linkCmdTrain => Sys2Proof.Machine.execLinkCmdTrain s
  | .peerTraining => Sys2Proof.Machine.execPeerTraining s
  | .trainingResult => Sys2Proof.Machine.execTrainingResult s
  | .crcRetry => Sys2Proof.Machine.execCrcRetry s
  | .syncFlit => Sys2Proof.Machine.execSyncFlit s
  | .powerReqFull => Sys2Proof.Machine.execPowerReqFull s
  | .powerReqReduced => Sys2Proof.Machine.execPowerReqReduced s
  | .powerReqRetention => Sys2Proof.Machine.execPowerReqRetention s
  | .powerReqOff => Sys2Proof.Machine.execPowerReqOff s
  | .powerTransitionDone => Sys2Proof.Machine.execPowerTransitionDone s
  | .registerWrite => Sys2Proof.Machine.execRegisterWrite s
  | .hostCxlMemAccess => Sys2Proof.Machine.execHostCxlMemAccess s
  | .pullRequest => Sys2Proof.Machine.execPullRequest s
  | .pullReceived => Sys2Proof.Machine.execPullReceived s
  | .pullTimeout => Sys2Proof.Machine.execPullTimeout s
  | .pullsComplete => Sys2Proof.Machine.execPullsComplete s
  | .lineageRequest => Sys2Proof.Machine.execLineageRequest s
  | .remoteRecordQuery => Sys2Proof.Machine.execRemoteRecordQuery s
  | .homeunreach => Sys2Proof.Machine.execHomeunreach s
  | .moduleReset => Sys2Proof.Machine.execModuleReset s
  | .domainBringUp => Sys2Proof.Machine.execDomainBringUp s
  | .partitionChangeReport => Sys2Proof.Machine.execPartitionChangeReport s

end Sys2Proof.Machine
end

