-- ==== Sys2Proof/Machine/Bundle.lean ====
section
/-! DEFINITION. The issue phase of a tile in a cycle: fetch, the checks of a bundle, its syllables, and what comes in place of a bundle
(spec/02_tile.md R42, R43, R53; spec/04_bundles.md R78-R80; spec/05_scalar_control.md R127-R147; spec/13_group.md R310-R313). -/

namespace Sys2Proof.Machine

/-! ### Fetch (R42, R43, R139, R377) -/

/-- One of the versions that fetch may see. -/
def pickBundle (n : Nat) (d : Bundle) : List Bundle → Bundle
  | [] => d
  | [b] => b
  | b :: r => if Config.freeBool n then b else pickBundle (n + 1) d r

/-- The loop buffer's copy of a bundle, for the innermost level. -/
def Tile.buffered (t : Tile) (pc : Nat) : Option Bundle :=
  match t.ctl.levels with
  | _ :: r => if t.bufFor = some r.length then find t.loopBuf (pc / 32) else none
  | [] => none

/-- The versions of a bundle that an issue may use: the buffer's copy where the level has one, and there, or without one, what instruction
memory holds or held before a write that fetch need not see yet (R43, R139). -/
def Tile.versions (t : Tile) (pc : Nat) : List Bundle :=
  ((t.buffered pc).toList ++ t.bundleAt pc :: (t.stale.filter fun e => e.1 == pc / 32).map (·.2.2)).eraseDups

/-- The first pass of a level with an empty buffer captures its bundles. -/
def Tile.capture (t : Tile) (pc : Nat) (b : Bundle) : Tile :=
  match t.ctl.levels with
  | l :: r =>
    if t.bufFor = some r.length ∧ l.first ≤ pc ∧ pc ≤ l.last ∧ (find t.loopBuf (pc / 32)).isNone then
      { t with loopBuf := put t.loopBuf (pc / 32) b }
    else t
  | [] => t

/-- One of a bundle's versions, captured where a pass captures. -/
def State.pickFetch (s : State) (pc : Nat) (l : List Bundle) : State × Option Bundle :=
  let b := pickBundle s.freeCtr (s.tile.bundleAt pc) l
  ({ s with freeCtr := s.freeCtr + (l.length - 1), tile := s.tile.capture pc b }, some b)

/-- The bundle at `pc`: the state after the fetch, and none when an uncorrectable error of instruction memory ends the tile. A bundle that the
loop buffer holds is fetched from there, whatever has become of its place in memory (R43). -/
def State.fetch (s : State) (pc : Nat) : State × Option Bundle :=
  match s.tile.buffered pc, find s.tile.iecc (pc / 32) with
  | some b, some _ => s.pickFetch pc [b]
  | none, some true => ((s.onMerr (massifOf s.cur) fun m => { m with ue := satInc m.ue 1 }).fatal causeEccUncorrected, none)
  | none, some false =>
    ((s.onTile fun t => { t with iecc := erase t.iecc (pc / 32) }).onMerr (massifOf s.cur) fun m => { m with imce := satInc m.imce 1 }).pickFetch pc
      (s.tile.versions pc)
  | _, none => s.pickFetch pc (s.tile.versions pc)

/-! ### Stages (R82, R132) -/

/-- The stage of a syllable under the bundle's K syllable. -/
def stageOf (k : Option Instr) (i : Nat) : Nat :=
  match k with
  | some (.stg _ m) => if i = 0 then 0 else (m.extractLsb' (3 * (i - 1)) 3).toNat
  | _ => 0

/-- The LOOPM level whose body holds the bundle, where it is the innermost level of all: under a LOOP that stands open above it R132's stages do
not apply (log 120). -/
def bodyLevel (levels : List Level) (pc : Nat) : Option Level :=
  match levels with
  | l :: _ => if l.loopm ∧ l.first ≤ pc ∧ pc ≤ l.last then some l else none
  | [] => none

/-- K syllables that a LOOPM body may hold. -/
def bodyK : Option Instr → Bool
  | none => true
  | some (.nop _) => true
  | some (.stg _ _) => true
  | some (.brk _ _ _) => true
  | _ => false

/-- What R132 says of a bundle's syllables: a trap (cause, syllable), or those that are not squashed. -/
def stageCheck (levels : List Level) (pc : Nat) (l : Syllables) : Except (Nat × Nat) Syllables :=
  match bodyLevel levels pc with
  | none => .ok l
  | some v =>
    let k := find l 0
    if !bodyK k then .error (causeIllegalOp, 0)
    else
      match l.find? fun e => decide (v.stages ≤ stageOf k e.1) with
      | some e => .error (causeIllegalOperand, e.1)
      | none =>
        .ok (l.filter fun e =>
          let st := stageOf k e.1
          e.1 == 0 || (decide (st ≤ v.pass) && decide (v.baseIt + v.pass - st < v.limit)))

/-! ### The syllables of a bundle -/

/-- What executing syllables gives: the state, and the traps met with their syllables. -/
inductive Ran where
  | ok (s : State) (traps : List (Nat × TrapInfo))
  | stop (o : Out)

/-- Syllables in order; one that traps leaves no effect (R80, R141). -/
def runSyllables : Syllables → State → List (Nat × TrapInfo) → Ran
  | [], s, traps => .ok s traps
  | (k, i) :: rest, s, traps =>
    match exec i { (s.onTile fun t => { t with slot := k }) with lastTrap := none } with
    | .next s' =>
      match s'.lastTrap with
      | some x => runSyllables rest s (traps ++ [(k, x)])
      | none => runSyllables rest s' traps
    | o => .stop o

/-- The trap of the lowest-numbered syllable. -/
def firstTrap : List (Nat × TrapInfo) → Option (Nat × TrapInfo)
  | [] => none
  | e :: r =>
    match firstTrap r with
    | some f => if f.1 < e.1 then some f else some e
    | none => some e

/-- The syllable whose results first pass 32 in flight (R143, R146). -/
def overFlow (before : Tile) (after : Tile) : Option Nat :=
  if after.inFlight ≤ 32 then none
  else
    let fresh := after.flights.filter fun f => decide (before.nextId ≤ f.id)
    (List.range 8).find? fun k =>
      decide (32 < before.inFlight + ((fresh.filter fun f => decide (f.syl ≤ k)).map Flight.weight).sum)

/-- A wait that holds a gang for the condition of each of its tiles (R311). -/
def gangWait : Instr → Bool
  | .swait _ => true
  | .swaite _ => true
  | .barwait _ => true
  | .gwait _ => true
  | .cwait _ => true
  | _ => false

/-- The operand of a K syllable that a gang's lead sends with the bundle (R310). -/
def leadOperand (t : Tile) (l : Syllables) : W64 :=
  match find l 0 with
  | some (.ret _) => t.scalar 63
  | some i => (((readsOf i).sc.head?).map t.scalar).getD 0
  | none => 0

/-- The tile of a gang's member whose bundle has no effect (R312): of the K syllable, which is the lead's, it follows the control flow alone
(R310); in a handler the tile is about to end. `s1` is the state in which the bundle executes. -/
def State.followLead (s s1 : State) (l : Syllables) : State :=
  if s.tile.ctl.handler then s else
  let s := s.onCtl fun c => { c with transfer := none, lastPc := c.pc }
  match find l 0 with
  | none => s
  | some i =>
    match exec i { (s1.onTile fun t => { t with slot := 0 }) with lastTrap := none } with
    | .next s' =>
      if s'.lastTrap.isSome then s
      else s'.onTile fun t => { t with flights := s.tile.flights, lat := s.tile.lat, lit := s.tile.lit, kval := s.tile.kval }
    | _ => s

/-- The syllables of a bundle that has been checked, executed at the tile in focus: syllables 1-7 and then K; the successor follows,
and the next bundle issues one tile cycle later. -/
def State.executeBundle (s : State) (b : Bundle) (kval : Option W64) (request : Option Bool) (l : Syllables) : Ran :=
  let old := s.ctl.transfer
  let levels := s.ctl.levels
  let s1 := (s.onTile fun t => { t with lit := Bundle.literal b, kval := kval }).onCtl fun c => { c with transfer := none, lastPc := c.pc }
  let order := l.filter (fun e => e.1 != 0) ++ l.filter (fun e => e.1 == 0)
  match runSyllables order s1 [] with
  | .stop o => .stop o
  | .ok s2 traps =>
    let base := if request.isSome then s.followLead s1 l else s
    match firstTrap traps, overFlow s.tile s2.tile with
    | some (k, x), _ => .ok ((base.onTile fun t => { t with slot := k }).takeTrap x) traps
    | none, some k =>
      let s' := (base.onTile fun t => { t with slot := k }).raise causeIllegalBundle 0
      .ok s' ((s'.lastTrap.toList).map (k, ·))
    | none, none =>
      let s3 := (s2.onTile fun t => { t with lit := none, kval := none, slot := 0 }).onCtl fun c => { c with nextIssue := s.after 1 }
      let st := s3.tile.place.status
      .ok (if st = .starting ∨ st = .ended then s3 else s3.advance old levels (request.getD s3.ctl.requested)) []

/-! ### The events of a cycle -/

/-- The first entry of a list that is due, with the list without it. -/
def takeDue (c : Nat) (ok : Instr → Bool) : List (Nat × Instr × Args) → Option ((Instr × Args) × List (Nat × Instr × Args))
  | [] => none
  | e :: r =>
    if e.1 ≤ c ∧ ok e.2.1 = true then some (e.2, r)
    else (takeDue c ok r).map fun x => (x.1, e :: x.2)

/-- Releases of timed operations come before the other arrivals of a cycle (R170). -/
def isRelease : Instr → Bool
  | .timedRelease => true
  | _ => false

/-- The order of one cycle's events at a gate (R334): commands and all else, posts, publication. -/
def eventRank : Instr → Nat
  | .gatePostArrival => 1
  | .gatePublication => 2
  | _ => 0

/-- The first event that is due, of the timers, else of the script. -/
def State.takeEvent (s : State) (ok : Instr → Bool) : Option ((Instr × Args) × State) :=
  match takeDue s.cycle ok s.timers with
  | some (e, r) => some (e, { s with timers := r })
  | none => (takeDue s.cycle ok s.script).map fun x => (x.1, { s with script := x.2 })

/-- The event that executes next: a release, else one by its rank. -/
def State.nextEvent (s : State) : Option ((Instr × Args) × State) :=
  match s.takeEvent isRelease with
  | some e => some e
  | none =>
    match s.takeEvent fun i => eventRank i == 0 with
    | some e => some e
    | none =>
      match s.takeEvent fun i => eventRank i == 1 with
      | some e => some e
      | none => s.takeEvent fun i => eventRank i == 2

/-- The events that are due in the current cycle, at most `n` of them. -/
def State.runEvents : Nat → State → State
  | 0, s => s
  | n + 1, s =>
    match s.nextEvent with
    | none => s
    | some ((i, x), s) =>
      match exec i { s with args := x } with
      | .next s' => s'.runEvents n
      | _ => s

/-! ### Gangs (R310-R312) -/

/-- A broadcast entry; those that every member has passed are dropped. -/
def State.broadcast (s : State) (f : Fed) : State :=
  let seen := s.tile.place.members.foldl (fun m t => if t = s.cur then m else min m (s.getTile t).place.index) f.index
  s.onPlace fun p => { p with feed := p.feed.filter (fun e => decide (seen ≤ e.index)) ++ [f], index := f.index + 1 }

/-- The head of the cycle's list is done. -/
def State.pop (s : State) : State := { s with todo := s.todo.drop 1 }

/-- An outcome with the head of the list done. -/
def popped : Out → Out
  | .next s => .next s.pop
  | o => o

/-- The waits that a halt or a trap re-enters at a stall. -/
def Control.reenter (c : Control) (stalled : Bool) : List Wait :=
  if stalled then (if c.waits.isEmpty then [.cycle 0] else c.waits) else []

/-- A gang's stop at the tile in focus: it halts, or takes trap entry with its own condition, be it one that it holds, or the one that
fixed the stop. -/
def State.stopHere (s : State) (i : TrapInfo) (stalled : Bool) : Out :=
  if i.cause = 0 then .next (s.preempted (s.ctl.reenter stalled))
  else
    let s := s.onCtl fun c =>
      let held := c.landing.map fun j => { j with epc := if stalled then c.lastPc else c.pc }
      { c with entry := some ((c.entry <|> held).getD { i with self := false, rewait := [] }), landing := none }
    exec .trapEntry { s with args := { Args.none with flag := true, b := if stalled then 1 else 0 } }

/-- A stop at which the tile halts in the cycle of the bundle before it (R137, R316). -/
def Fed.halts (f : Fed) : Bool := f.stop.any fun i => i.cause == 0 && i.rewait.isEmpty

/-- What the lead has issued that reaches the member in focus next, when its cycle has come. -/
def State.nextFed (s : State) : Option Fed :=
  let p := s.tile.place
  ((s.getTile p.lead).place.feed.find? fun f => f.index == p.index).filter fun f => decide (f.cycle + p.delta * s.unit ≤ s.cycle)

/-- A member of a gang issues the lead's bundle in its cycle, or reaches the stop (R310, R312). -/
def State.feedPhase (s : State) (f : Fed) : Out :=
  let s := (s.onCtl fun c => { c with pc := f.pc, levels := f.levels }).onPlace fun p => { p with index := f.index + 1 }
  match f.stop with
  | some i => popped (s.stopHere i !i.rewait.isEmpty)
  | none =>
    let s := s.onPlace fun p => { p with status := if p.status = .starting then .issuing else p.status }
    let l := decoded (decodeAll f.words)
    let early := s.cycle < s.ctl.scatterUntil ∧ isMemory (f.words.syllable 3)
    if early then
      let s1 := s.onTile fun t => { t with lit := Bundle.literal f.words, kval := some f.kval }
      .next ((((s.followLead s1 l).onTile fun t => { t with slot := 3 }).raise causeIllegalBundle 0).onCtl fun c =>
        { c with nextIssue := s.after 1 }).pop
    else
      match stageCheck f.levels f.pc l with
      | .error (cause, k) => .next ((s.onTile fun t => { t with slot := k }).raise cause 0).pop
      | .ok l =>
        match s.executeBundle f.words (some f.kval) (some f.request) l with
        | .stop o => o
        | .ok s' _ =>
          let s' := s'.onCtl fun c => { c with nextIssue := s.after 1 }
          .next (if (s'.nextFed.filter Fed.halts).isSome then s' else s'.pop)

/-- In lockstep mode a member tests the conditions of its next task in the cycle in which that task's first bundle issues there; one that
does not hold is TASK_LATE, at that bundle (R311, R314). -/
def State.lateStart (s : State) (f : Fed) : State :=
  let p := s.tile.place
  let late := p.status == .starting && f.stop.isNone && s.ctl.landing.isNone && s.ctl.entry.isNone &&
    ((p.group.bind (find s.groups)).any fun g => g.lockstep && (g.kernel.tasks[p.task]?).any fun k => !s.taskReady k s.cur)
  if late then (s.onCtl fun c => { c with pc := f.pc }).noteLanding causeTaskLate 0 else s

/-- The issue phase of a member. -/
def State.memberPhase (s : State) : Out :=
  let s := match s.nextFed with
    | some f => s.lateStart f
    | none => s
  let c := s.ctl
  let due := s.nextFed.filter fun f => f.halts || decide (c.nextIssue ≤ s.cycle)
  if c.leaving ∧ c.nextIssue ≤ s.cycle then .next s.leaveTrap
  else if c.landing.isSome ∧ c.waits.isEmpty ∧ !c.handler then
    (if c.entry.isSome then .next (s.onCtl fun c => { c with landing := none }) else exec .trapEntry { s with args := .none })
  else
    match due with
    | some f => if c.waits.isEmpty || f.stop.isSome then s.feedPhase f else popped (exec .waitSatisfied s)
    | none => if c.waits.isEmpty || s.cycle < c.nextIssue then .next s.pop else popped (exec .waitSatisfied s)

/-- The issue phase of the member in focus, which may come again in the cycle, to its end. -/
def State.memberRun : Nat → State → State
  | 0, s => s
  | n + 1, s =>
    if s.todo.isEmpty then s
    else match s.memberPhase with
      | .next s' => s'.memberRun n
      | _ => s

/-- The next cycle as it comes to the tile in focus: its events, and what the links carry. -/
def State.cycleOn (s : State) : State :=
  let t := s.cur
  let s := { s with cycle := s.cycle + 1, todo := [(t, .land), (t, .store), (t, .issue), (t, .post)] }
  ((s.runEvents (s.timers.length + s.script.length + 8)).focus t).advanceTransit

/-- The member in focus as it will stand `n` tile cycles on, before its issue phase, by what its gang has issued, what its own tile holds and
what is on its way to it or due: the cycles in which it lags behind its lead (R310, R311). -/
def State.ahead : Nat → State → State
  | 0, s => s
  | n + 1, s =>
    let s := ({ s with todo := [(s.cur, .issue)] }.memberRun 8).otherPorts
    let s := if s.unit = 1 then s.cycleOn else s.cycleOn.cycleOn
    s.land.lsWrites.ahead n

/-- A member of the gang whose lead is in focus, as it stands when the lead's bundle of this cycle would reach it. -/
def State.memberThen (s : State) (t : Nat) : State :=
  let s := s.focus t
  s.ahead s.tile.place.delta

/-- The gang's wait is over (R311): with its own delay every member has issued what the lead has issued and its wait has ended, so that the
lead's next bundle issues at max(u - delta) + 1 (log 32). -/
def State.gangClear (s : State) : Bool :=
  s.tile.place.members.all fun t =>
    if t = s.cur then s.ctl.waits.isEmpty
    else
      let x := s.memberThen t
      x.tile.place.index == s.tile.place.index && x.ctl.waits.isEmpty && decide (x.ctl.nextIssue ≤ x.cycle)

/-- The lead stands in a wait: one of the gang, or its own WAITC (R312, R316). -/
def State.gangStalled (s : State) : Bool := (s.tile.place.gated && !s.gangClear) || !s.ctl.waits.isEmpty

/-- The lead's own pre-emption stops the gang at its next bundle, with no trap (R316). -/
def State.haltGang (s : State) : State :=
  s.onPlace fun p =>
    { p with stop := some (p.stop.getD
        { index := p.index, rank := p.rank, cycle := s.cycle,
          info := { cause := 0, tval := 0, epc := 0, resume := 0, self := false, rewait := [] } }) }

/-- The lead reaches the stop. -/
def State.leadStop (s : State) (g : GangStop) : Out :=
  let stalled := s.gangStalled
  let p := s.tile.place
  let f : Fed :=
    { cycle := s.cycle, index := p.index, pc := s.ctl.pc, words := 0, kval := 0, levels := s.ctl.levels, request := false
      stop := some { g.info with rewait := if stalled then [.cycle 0] else [] } }
  ((s.broadcast f).onPlace fun p => { p with stop := none, gated := false }).stopHere g.info stalled

/-- The lead halts its gang in the cycle of the halt point's bundle. -/
def State.stopGang (s : State) : Out :=
  let s := s.haltGang
  match s.tile.place.stop with
  | some g => popped (s.leadStop g)
  | none => .next s.pop

/-- The bundle that has just issued is a halt point of the tile's request, and no trap comes after it (R137). -/
def State.haltsNow (s : State) : Bool := s.ctl.haltPoint && s.ctl.requested && s.ctl.entry.isNone

/-! ### One issue phase -/

/-- A bundle issues at the tile in focus, which is alone or the lead of its gang. -/
def State.issueBundle (s : State) : Out :=
  let c := s.ctl
  let pc := c.pc
  if pc % 32 ≠ 0 ∨ 0x10000 ≤ pc then .next (s.raiseTarget c.source pc pc)
  else
    match s.fetch pc with
    | (s, none) => .next s.pop
    | (s, some b) =>
      let bad := fun (cause k : Nat) => Host.Outcome.next ((s.onTile fun t => { t with slot := k }).raise cause 0)
      match checkBundle s.tile.mx.mode b with
      | .error (cause, k) => bad cause k
      | .ok l =>
        if s.cycle < c.scatterUntil ∧ isMemory (b.syllable 3) then bad causeIllegalBundle 3
        else
          match stageCheck c.levels pc l with
          | .error (cause, k) => bad cause k
          | .ok l =>
            let kval := leadOperand { s.tile with lit := Bundle.literal b } l
            match s.executeBundle b none none l with
            | .stop o => o
            | .ok s' (_ :: _) => .next s'
            | .ok s' [] =>
              if s'.tile.ganged then
                let f : Fed :=
                  { cycle := s.cycle, index := s.tile.place.index, pc := pc, words := b, kval := kval, levels := c.levels
                    request := s'.ctl.requested, stop := none }
                let gated := l.any fun e => gangWait e.2
                let s' := (s'.broadcast f).onPlace fun p => { p with gated := gated }
                if s'.haltsNow && !gated then s'.stopGang else .next s'.pop
              else if s'.haltsNow then .next (s'.preempted s'.ctl.waits).pop
              else .next s'.pop

/-- A waiting tile tests its waits; one that a request finds still waiting halts (R137). -/
def State.waitPhase (s : State) (alone : Bool) : Out :=
  match exec .waitSatisfied s with
  | .next s =>
    if s.ctl.waits.isEmpty || !s.ctl.requested then .next s.pop
    else if alone then .next (s.preempted s.ctl.waits).pop
    else .next s.haltGang
  | o => o

/-- The other tiles of the gang at which a condition of the next task does not hold in the cycle of its first bundle there (R313); in
lockstep mode each of them tests its own when that cycle comes. -/
def State.startLate (s : State) : List Nat :=
  if !s.tile.ganged || ((s.tile.place.group.bind (find s.groups)).any (·.lockstep)) then []
  else match s.nextTask with
    | some k => s.tile.place.members.filter fun t => t != s.cur && !(s.memberThen t).taskReady k t
    | none => []

/-- A tile between tasks starts the next one when it may; its first bundle issues in the same cycle. -/
def State.startPhase (s : State) : Out :=
  match exec .taskStart { s with args := { Args.none with parts := s.startLate.map fun t => (t, 0, 0) } } with
  | .next s' => if s'.tile.place.status = .starting then .next s'.pop else .next s'
  | o => o

/-- The issue phase of a tile that is alone or leads its gang. A trap of the gang that arises between tasks is taken at the first bundle of
the next one, the bundle that the lead would issue (R312). -/
def State.leadPhase (s : State) : Out :=
  let c := s.ctl
  let p := s.tile.place
  let alone := !s.tile.ganged
  match p.stop, p.status with
  | some g, .starting =>
    if g.info.cause = 0 then popped (s.leadStop g)
    else if !c.waits.isEmpty then (if s.cycle < c.nextIssue then .next s.pop else popped (exec .waitSatisfied s))
    else if p.gated ∧ !s.gangClear then .next s.pop
    else s.startPhase
  | some g, _ => if s.cycle < c.nextIssue ∧ p.status = .issuing then .next s.pop else popped (s.leadStop g)
  | none, .starting =>
    if !c.waits.isEmpty then (if s.cycle < c.nextIssue then .next s.pop else s.waitPhase alone)
    else if p.gated ∧ !s.gangClear then (if c.requested then .next s.haltGang else .next s.pop)
    else if c.requested then (if alone then .next (s.preempted []).pop else .next s.haltGang) else s.startPhase
  | none, .waiting => if s.cycle < c.nextIssue then .next s.pop else s.waitPhase alone
  | none, _ =>
    if s.cycle < c.nextIssue then .next s.pop
    else if c.leaving then .next (s.leaveTrap.onCtl Control.applyRequest)
    else if p.gated ∧ !s.gangClear then (if c.requested then .next s.haltGang else .next s.pop)
    else if s.haltsNow then (if alone then .next (s.preempted []).pop else .next s.haltGang)
    else if c.entry.isSome ∨ (c.landing.isSome ∧ !c.handler) then exec .trapEntry { s with args := .none }
    else s.issueBundle

/-- The issue phase of the tile in focus; it may come again in the same cycle, until the head of the list is done. -/
def State.issuePhase (s : State) : Out :=
  match s.tile.place.status with
  | .idle => .next s.pop
  | .ended => .next s.pop
  | .halted => .next s.pop
  | _ => if s.tile.ganged && s.tile.place.lead != s.cur then s.memberPhase else s.leadPhase

end Sys2Proof.Machine
end

