-- ==== Sys2Proof/Machine/Cycle.lean ====
section
/-! DEFINITION. A cycle of the module: the events that are due, the phases of its tiles, and the next cycle. -/

namespace Sys2Proof.Machine

/-- Whether a tile has anything to do in a cycle. -/
def Tile.active (t : Tile) : Bool :=
  t.place.status != .idle || !t.flights.isEmpty || !t.mx.pending.isEmpty || !t.io.stores.isEmpty || !t.io.amos.isEmpty || !t.io.reads.isEmpty ||
    !t.io.sincs.isEmpty || !t.io.inbound.isEmpty

/-- The tiles that have phases in a cycle, by rising number, a gang's lead before its members: in REDUCED, even cycles only (R379). -/
def State.activeTiles (s : State) : List Nat :=
  sortBy id ((((s.cur, s.tile) :: s.tiles).filter fun e => e.2.active && decide (s.cycle % s.unitAt (massifOf e.1) = 0)).map (·.1))

/-- The tiles whose queues have a head that may leave. -/
def State.ready (s : State) (f : Tile → Option Nat) : List Nat :=
  (((s.cur, s.tile) :: s.tiles).filter fun e => match f e.2 with
    | some c => decide (c ≤ s.cycle)
    | none => false).map (·.1)

/-- A request held by a NOPRE region is counted (R259). -/
def Tile.countHeld (t : Tile) : Tile :=
  if t.ctl.preempt.isSome && t.ctl.nopre && t.place.status != .halted then t.onCtl fun c => { c with held := c.held + 1 } else t

/-- Gates that divide their tokens in a cycle (R333). -/
def State.dividing (s : State) : List Nat := (s.gates.filter fun e => e.2.tokens != 0 && e.2.win != 0 && s.cycle % e.2.win == 0).map (·.1)

/-- The next cycle: its events are entered; after them the links carry what waits, and every active tile has its four phases. -/
def State.tick (s : State) : State :=
  let s : State := { s with cycle := s.cycle + 1, tile := s.tile.countHeld, tiles := s.tiles.map fun (e : Nat × Tile) => (e.1, e.2.countHeld) }
  let s := s.sendSync
  let s := if s.cycle % 51200 = 0 then s.at_ s.cycle .consumerSweep .none else s
  let s := s.dividing.foldl (fun s n => s.at_ s.cycle .tokenDivision { Args.none with a := n }) s
  let s := (s.ready fun t => t.io.writes.head?.map (·.ready)).foldl
    (fun s n => s.at_ s.cycle .writeQueueDepart { Args.none with a := n }) s
  let s := (s.ready fun t => t.io.requests.head?.map (·.ready)).foldl
    (fun s n => s.at_ s.cycle .requestQueueDepart { Args.none with a := n }) s
  let ts := s.activeTiles
  { s with todo := (s.cur, .links) :: ts.map (·, .land) ++ ts.map (·, .store) ++ ts.map (·, .issue) ++ ts.map (·, .post) }

/-- One phase of a cycle: of the links, or of a tile. -/
def State.phase (s : State) (t : Nat) (p : Phase) : Host.Outcome State Fault Refusal :=
  let s := s.focus t
  match p with
  | .links => .next s.pop.advanceTransit
  | .land => exec .resultLanding s.pop
  | .store => exec .storeWrite { s.pop with args := .none }
  | .issue => s.issuePhase
  | .post => exec .storeWrite { s.pop with args := { Args.none with flag := true } }

/-- A bundle with one syllable. -/
def oneSyllable (k : Nat) (w : W32) : Bundle := (w.setWidth 256) <<< (32 * k)

end Sys2Proof.Machine
end

