-- ==== Sys2Proof/Machine/Step.lean ====
section
/-! DEFINITION. One step of the module, and the placing of one instruction where the next step fetches it. -/

namespace Sys2Proof.Machine

/-- One step: an event that is due, else the next phase of the cycle, else the next cycle. -/
def step (s : State) : Host.Outcome State Fault Refusal :=
  match s.nextEvent with
  | some ((i, x), s) => exec i { s with args := x }
  | none =>
    match s.todo with
    | (t, p) :: _ => s.phase t p
    | [] => .next s.tick

/-! ### Placing an instruction -/

/-- The tile in focus runs alone from offset 0, and its next step issues the bundle there: the instruction word stands in the first slot
that decodes it, every other syllable is NOP. -/
def State.withFetchWord (s : State) (_ w : Nat) : State :=
  let k := match firstSlot tableSlots (BitVec.ofNat 32 w) with
    | some (sl, _) => sl.index
    | none => 0
  let b := oneSyllable k (BitVec.ofNat 32 w)
  { s with
    timers := []
    script := []
    todo := [(s.cur, .issue)]
    tile :=
      { s.tile with
        imem := s.tile.imem.writeCells (cellsAt 0 (natBytes b.toNat 32))
        iecc := []
        stale := []
        loopBuf := []
        bufFor := none
        place := { s.tile.place with status := .issuing, members := [], lead := s.cur }
        ctl :=
          { s.tile.ctl with
            pc := 0, source := 0, levels := [], transfer := none, nextIssue := s.cycle, waits := [], waited := none, skip := none,
            haltPoint := false, entry := none, landing := none, leaving := false, scatterUntil := 0 } } }

end Sys2Proof.Machine
end

