-- ==== Sys2Proof/Safety.lean ====
section
/-! DEFINITION. The terms that claims use: the canonical form of every memory of a state, a run that never stops, a result put in
flight, a noted latch, and a taken trap, each with every field that it changes written out. -/

namespace Sys2Proof.Machine

/-- The two memories of a tile are canonical. -/
def Tile.memOk (t : Tile) : Bool := t.spad.wf && t.imem.wf

/-- The memories of the tiles that a sealed image holds are canonical. -/
def Cairn.memOk (k : Cairn) : Bool := k.groups.all fun g => g.saved.all Tile.memOk

/-- Those of the image that an event brings are. -/
def Args.memOk (x : Args) : Bool := x.cairn.toList.all Cairn.memOk

/-- Every memory of the module is canonical: device, host and MSI-X bytes, both memories of every tile and of every saved tile, and
those of the sealed images that the module has written, is about to write, or that an event brings. -/
def State.memOk (s : State) : Bool :=
  s.dev.wf && s.host.wf && s.msix.wf && s.tile.memOk && s.tiles.all (fun e => e.2.memOk) &&
    s.groups.all (fun e => e.2.saved.all Tile.memOk) && s.cairns.all Cairn.memOk && s.sealing.all (fun e => e.2.memOk) && s.args.memOk &&
    s.script.all (fun e => e.2.2.memOk) && s.timers.all (fun e => e.2.2.memOk)

/-- A run of `n` steps answers a state: no step stops. -/
def Runs (n : Nat) (s t : State) : Prop := Host.Core.run Sys2Proof.core n s = .next t

/-- One more result in flight at the tile in focus, due `l` tile cycles from now (spec/02_tile.md R50); nothing else changes. -/
def State.withResult (s : State) (l : Nat) (d : Dest) (p : Payload) (fl : Flags) (nwb : Bool) (k : Option Latch) : State :=
  { s with
    tile :=
      { s.tile with
        flights := s.tile.flights ++
          [{ due := s.cycle + l * s.unit, issued := s.cycle, id := s.tile.nextId, syl := s.tile.slot, dest := d, payload := p, flags := fl,
             nwb := nwb, latch := k }]
        nextId := s.tile.nextId + 1 } }

/-- TSTAT.LATCHLOST set when a lost latch was read (R35); nothing else changes. -/
def State.withLost (s : State) (lost : Bool) : State :=
  if lost then { s with tile := { s.tile with csr := { s.tile.csr with tstat := s.tile.csr.tstat ||| Flag.LATCHLOST.setWidth 32 } } } else s

/-- The tile in focus is in no handler and alone in its gang, and its kernel has a handler at `h`: a trap is taken at once. -/
def State.trapsAt (s : State) (h : Nat) : Prop :=
  s.tile.ctl.handler = false ∧ s.tile.place.members.length ≤ 1 ∧ s.tile.place.entryPoint = some h

/-- What an issue-kind trap of the executing syllable reports (spec/05_scalar_control.md R146): its cause, and in TVAL the syllable and a
32-bit value. -/
def State.report (s : State) (cause hi : Nat) : TrapInfo :=
  { cause := cause, tval := BitVec.ofNat 64 (s.tile.slot + hi % 2 ^ 32 * 2 ^ 32), epc := s.tile.ctl.pc, resume := s.tile.ctl.pc, self := true,
    rewait := [] }

/-- The tile in focus takes that trap. -/
def State.trapped (s : State) (cause hi : Nat) : State := { s with lastTrap := some (s.report cause hi) }.enterTrap (s.report cause hi)

/-- The tile in focus, in a handler, ends with DOUBLE_TRAP and that cause in SCAUSE (R148). -/
def State.doubleTrapped (s : State) (cause : Nat) : State := { s with lastTrap := some (s.report cause 0) }.fatalAt 0x18 cause s.tile.ctl.pc

/-- The latch of the scalar slot that executes (R35). -/
def State.ownLatch (s : State) : Latch := if s.tile.slot = 1 then .b0 else .b1

/-- What a memory form does to its registers (spec/04_bundles.md R88, spec/06_memory_sync_ops.md R151): the index operand of mode 0b10 is
read, and mode 0b01 adds `step` to the base register, one cycle later. -/
def State.addressed (s : State) (f : Mem) (step : Nat) : State :=
  let t := s.withLost (decide (f.mode = 2) && s.tile.scalarLost f.index)
  if f.mode = 1 then
    t.withResult 1 (.a f.base.toNat) (.word (BitVec.ofNat 64 (((rd s.tile.regs.a f.base.toNat).toNat + step) % 2 ^ 32))) 0 false none
  else t

/-- One more store that is due `l` tile cycles from now; nothing else changes. -/
def State.withStore (s : State) (l : Nat) (k : StoreKind) (cs : List Host.Cell) : State :=
  { s with
    tile :=
      { s.tile with
        io := { s.tile.io with stores := s.tile.io.stores ++ [{ due := s.cycle + l * s.unit, issued := s.cycle, kind := k, cells := cs }] } } }

/-- One more read of a result that spans cycles. -/
def State.withRead (s : State) (l id : Nat) (cs : List (Nat × Nat)) : State :=
  { s with
    tile := { s.tile with io := { s.tile.io with reads := s.tile.io.reads ++ [{ due := s.cycle + l * s.unit, flight := id, cells := cs }] } } }

/-- One more entry of the write queue, with the next operation number; it may leave two tile cycles later (spec/09_memory_model.md
R245). -/
def State.withWrite (s : State) (k : Nat → OutKind) : State :=
  { s with
    tile :=
      { s.tile with
        nextId := s.tile.nextId + 1
        io := { s.tile.io with writes := s.tile.io.writes ++ [{ ready := s.cycle + 2, kind := k s.tile.nextId }] } } }

/-- One more entry of the request queue, with the next operation number. -/
def State.withRequest (s : State) (k : Nat → ReqKind) : State :=
  { s with
    tile :=
      { s.tile with
        nextId := s.tile.nextId + 1
        io :=
          { s.tile.io with requests := s.tile.io.requests ++ [{ ready := s.cycle + 2, kind := k s.tile.nextId, parked := false }] } } }

/-- The ports of the tile in focus replaced; nothing else changes. -/
def State.withIo (s : State) (p : Ports) : State := { s with tile := { s.tile with io := p } }

/-- The tile in focus waits (spec/02_tile.md R53). -/
def State.withWait (s : State) (w : Wait) : State :=
  { s with
    tile :=
      { s.tile with
        place := { s.tile.place with status := .waiting }
        ctl := { s.tile.ctl with waits := s.tile.ctl.waits ++ [w] } } }

/-- Semaphore `n` of the tile in focus replaced. -/
def State.withSem (s : State) (n : Nat) (x : Semaphore) : State := { s with tile := { s.tile with sems := wr s.tile.sems n x } }

/-- A fence on `paths` at `scope` (spec/06_memory_sync_ops.md R174): its markers in the queues that it names and, where there is one, its
record; nothing else changes. -/
def State.withFence (s : State) (paths : BitVec 6) (scope : Nat) : State :=
  let w := paths.getLsbD 1
  let r := paths.getLsbD 2 || paths.getLsbD 4
  let id := s.tile.nextId
  let p := s.tile.io
  { s with
    tile :=
      { s.tile with
        nextId := id + 1
        io :=
          { p with
            writes := if w then p.writes ++ [{ ready := s.cycle + 2, kind := .fence id }] else p.writes
            requests := if r then p.requests ++ [{ ready := s.cycle + 2, kind := .fence id, parked := false }] else p.requests
            fences :=
              if w || r then
                p.fences ++ [{ id := id, paths := paths, scope := scope, issued := s.cycle }]
              else p.fences } } }

/-- The queues have room for a fence's markers. -/
def State.fenceRoom (s : State) (paths : BitVec 6) : Prop :=
  (paths.getLsbD 1 = true → s.tile.io.writes.length < 32) ∧
    ((paths.getLsbD 2 || paths.getLsbD 4) = true → s.tile.io.requests.length < 16)

/-- Packet `p` of queue `qn` is a command of kind `k` that may execute: the module is READY, its turn has come, it has no SEMEN and no
reserved byte, and it has not ended with a status word that waits (spec/10_context.md R264, R265). -/
def State.accepts (s : State) (k qn : Nat) (q : Queue) (p : Packet) : Prop :=
  s.args.a < 98304 ∧ s.globals.boot = 7 ∧ s.commandPacket (· == k) = some (qn, q, p) ∧ pkSemen p.bytes = false ∧ fieldOf p.bytes 19 1 = 0 ∧
    p.next ≠ statusHeld

end Sys2Proof.Machine
end

