-- ==== Sys2Proof/Certificates/Slice0/Obligations.lean ====
section
/-! DEFINITION. The statements for the provers: what instructions, events and the machine do, from the numbered rules of spec/. -/

open Sys2Proof Sys2Proof.Machine

/-- Decoding an encoded instruction gives it back (spec/04_bundles.md R78-R105). For every instruction with a syllable encoding and every value of its operands that is well formed, its encoding decodes in its slot to the same instruction. -/
def Obligations.EncodeDecode : Prop :=
  ∀ (i : Instr) (k : Slot), i.home = some k → i.WellFormed → decodeSlot k i.encode = .ok i

/-- A decoded word is the encoding of its instruction (spec/04_bundles.md R79-R105). In every slot, a word that decodes gives a well-formed instruction whose encoding is that word: no bit of a syllable is ignored. -/
def Obligations.DecodeEncode : Prop :=
  ∀ (k : Slot) (w : W32) (i : Instr), decodeSlot k w = .ok i → i.WellFormed ∧ i.encode = w

/-- The all-zero syllable is NOP in every slot (R79). The all-zero syllable decodes to NOP in every slot, in the K slot with the LIT bit set too, and executing NOP changes nothing; opcode 0x00 with any other bit set is ILLEGAL_OP, in the slot and in a bundle; the all-zero bundle holds no syllable that acts. -/
def Obligations.NopSyllable : Prop :=
  (∀ k : Slot, decodeSlot k 0 = .ok (.nop false)) ∧ decodeSlot .K 0x80000000 = .ok (.nop true) ∧
    (∀ (l : Bool) (s : State), exec (.nop l) s = .next s) ∧
    (∀ (k : Slot) (w : W32), slotOpcode k w = 0 → w ≠ 0 → (k = .K → w ≠ 0x80000000) → decodeSlot k w = .error .illegalOp) ∧
    (∀ (mode : Nat) (b : Bundle) (k : Nat), firstError .illegalOp (decodeAll b) = some k → checkBundle mode b = .error (0x01, k)) ∧
    ∀ mode, ∃ l, checkBundle mode 0 = .ok l ∧ ∀ e ∈ l, e.2 = .nop false

/-- Words of the encoding tables decode to their instructions (spec/04_bundles.md R81-R105). Written from the fields of the encoding tables, a word of each syllable form (RG, I20, branch, memory, vector, matrix, sync, RI, atomic, remote and copy) decodes to the instruction it stands for. -/
def Obligations.DecodedWords : Prop :=
  decodeSlot .SA 0x011435F0 = .ok (.add { dst := 5, srcA := 6, srcB := 0x5F, pred := 0, nwb := false }) ∧
  decodeSlot .SA 0xF09FFFFE = .ok (.movi { dst := 9, imm := 0xFFFFE }) ∧
  decodeSlot .K 0x8309FFFF = .ok (.brnz true 4 0x1FFFF) ∧
  decodeSlot .LS 0x051C8010 = .ok (.ldw { reg := 7, base := 2, mode := 0, off := 2, pred := 0 }) ∧
  decodeSlot .VA 0x020C2420 = .ok (.vadd { dst := 3, srcA := 4, srcB := 0x42, pred := 0, nwb := false }) ∧
  decodeSlot .VB 0x24043800 = .ok (.pset { dst := 1, srcA := 7, srcB := 0, pred := 0, nwb := false }) ∧
  decodeSlot .MX 0x01081009 = .ok (.mcfg { srcA := 4, srcB := 4, row := 0, plane := false, flags := 9 }) ∧
  decodeSlot .LS 0x39005018 = .ok (.swait { dst := 0, srcA := 10, obj := 3, scope := 0 }) ∧
  decodeSlot .SB 0x282427FF = .ok (.addi { dst := 9, srcA := 4, imm := 0x7FF }) ∧
  decodeSlot .LS 0x201C6060 = .ok (.amoadd { dst := 7, base := 1, size := 2, srcB := 3, es := 0, pred := 0 }) ∧
  decodeSlot .LS 0x30109038 = .ok (.rput { data := 4, place := 9, mid := 3, sig := true, chan := 0, timed := false }) ∧
  decodeSlot .CP 0x01082839 = .ok (.cqpush { reg := 2, srcB := 5, bnd := 7, pred := 1 })

/-- Memory reads what was written, and equal memories are equal data (spec/00_scope.md R3). In a canonical memory, a value written as n bytes reads back as the value modulo 256 to the n, its lowest byte stands at the lowest address, and every byte outside the n bytes reads as before. Two canonical memories with the same unlisted bytes that read alike at every address are the same data. That a memory is a list in one canonical form, and so the clause that memories which read alike are equal data, is the model's choice (log 71, DESIGN CHOICE). -/
def Obligations.LittleEndian : Prop :=
  (∀ (m : Memory) (a n w : Nat), m.wf = true →
    (m.writeNat a n w).nat a n = w % 256 ^ n ∧ (0 < n → ((m.writeNat a n w).read a).toNat = w % 256) ∧
      ∀ k, k < a ∨ a + n ≤ k → (m.writeNat a n w).read k = m.read k) ∧
  (∀ m k : Memory, m.wf = true → k.wf = true → m.epoch = k.epoch → (∀ a, m.read a = k.read a) → m = k)

/-- Every step keeps every memory in its canonical form (spec/02_tile.md R42, spec/02_tile.md R44, spec/01_stoub_module.md R20). From every state whose memories (device, host and MSI-X bytes, the scratchpad and instruction memory of every tile, saved tile images, and those of sealed images) are canonical, a step that answers a next state leaves every memory canonical. The canonical form is the model's (log 71). -/
def Obligations.MemoryStaysCanonical : Prop :=
  ∀ s t : State, s.memOk = true → step s = .next t → t.memOk = true

/-- Integer addition, multiplication and division (R115). With its predicate on, each of ADD, SUB, MUL, MULH, MULHU, DIV, DIVU, REM and REMU puts its exact result modulo 2^64 in flight with its latency, division by zero included, and changes nothing else but LATCHLOST of a lost operand latch. -/
def Obligations.IntegerArithmetic : Prop :=
  ∀ (s : State) (f : RG), s.tile.predOn f.pred = true →
    let a := s.tile.scalar f.srcA
    let b := s.tile.scalar f.srcB
    let res := fun (l : Nat) (w : W64) => (Host.Outcome.next ((s.withLost (s.tile.scalarLost f.srcA || s.tile.scalarLost f.srcB)).withResult l
      (.s f.dst.toNat s.tile.ctl.handler) (.word w) 0 f.nwb (some s.ownLatch)) : Out)
    exec (.add f) s = res 1 (.ofInt 64 (a.toInt + b.toInt)) ∧ exec (.sub f) s = res 1 (.ofInt 64 (a.toInt - b.toInt)) ∧
    exec (.mul f) s = res 3 (.ofInt 64 (a.toInt * b.toInt)) ∧ exec (.mulh f) s = res 3 (.ofInt 64 (a.toInt * b.toInt / 2 ^ 64)) ∧
    exec (.mulhu f) s = res 3 (.ofNat 64 (a.toNat * b.toNat / 2 ^ 64)) ∧
    exec (.div f) s = res 18 (if b = 0 then .ofInt 64 (-1) else .ofInt 64 (a.toInt.tdiv b.toInt)) ∧
    exec (.divu f) s = res 18 (if b = 0 then .ofInt 64 (-1) else .ofNat 64 (a.toNat / b.toNat)) ∧
    exec (.rem f) s = res 18 (if b = 0 then a else .ofInt 64 (a.toInt.tmod b.toInt)) ∧
    exec (.remu f) s = res 18 (if b = 0 then a else .ofNat 64 (a.toNat % b.toNat)) ∧
    (a.toInt = -2 ^ 63 → b.toInt = -1 → exec (.div f) s = res 18 (.ofInt 64 (-2 ^ 63)) ∧ exec (.rem f) s = res 18 0)

/-- Bitwise operations, shifts, compares, minimum and maximum, and the immediate instructions (R114, R117, R118). With its predicate on, each of AND, OR, XOR, ANDN, ORN, SEL, the shifts, the compares and the minima and maxima puts its result in flight with latency 1; bits, shift amounts modulo 64 and signed and unsigned orders are those of the table. ADDI, ANDI, ORI, XORI, the immediate shifts and compares, MOVI, MOVHI and MOVFI put their result in flight with latency 1 for every state and operand; the immediate is sign-extended, MOVHI keeps the low 12 bits of the destination register. -/
def Obligations.LogicAndImmediates : Prop :=
  (∀ (s : State) (f : RG), s.tile.predOn f.pred = true →
    let a := s.tile.scalar f.srcA
    let b := s.tile.scalar f.srcB
    let res := fun (l : Nat) (w : W64) => (Host.Outcome.next ((s.withLost (s.tile.scalarLost f.srcA || s.tile.scalarLost f.srcB)).withResult l
      (.s f.dst.toNat s.tile.ctl.handler) (.word w) 0 f.nwb (some s.ownLatch)) : Out)
    let d := s.tile.sreg f.dst.toNat
    let n := b.toNat % 64
    let truth := fun (p : Bool) => (if p then 1 else 0 : W64)
    exec (.and f) s = res 1 (a &&& b) ∧ exec (.or f) s = res 1 (a ||| b) ∧
    exec (.xor f) s = res 1 (a ^^^ b) ∧ exec (.andn f) s = res 1 (a &&& ~~~b) ∧
    exec (.orn f) s = res 1 (a ||| ~~~b) ∧ exec (.sel f) s = res 1 (if d = 0 then b else a) ∧
    exec (.shl f) s = res 1 (.ofNat 64 (a.toNat * 2 ^ n)) ∧ exec (.shr f) s = res 1 (.ofNat 64 (a.toNat / 2 ^ n)) ∧
    exec (.sra f) s = res 1 (.ofInt 64 (a.toInt / 2 ^ n)) ∧
    exec (.rotl f) s = res 1 (.ofNat 64 (a.toNat * 2 ^ n % 2 ^ 64 + a.toNat / 2 ^ (64 - n))) ∧
    exec (.cmpeq f) s = res 1 (truth (decide (a.toNat = b.toNat))) ∧ exec (.cmpne f) s = res 1 (truth (decide (a.toNat ≠ b.toNat))) ∧
    exec (.cmplt f) s = res 1 (truth (decide (a.toInt < b.toInt))) ∧ exec (.cmpltu f) s = res 1 (truth (decide (a.toNat < b.toNat))) ∧
    exec (.cmple f) s = res 1 (truth (decide (a.toInt ≤ b.toInt))) ∧ exec (.cmpleu f) s = res 1 (truth (decide (a.toNat ≤ b.toNat))) ∧
    exec (.min f) s = res 1 (.ofInt 64 (min a.toInt b.toInt)) ∧ exec (.max f) s = res 1 (.ofInt 64 (max a.toInt b.toInt)) ∧
    exec (.minu f) s = res 1 (.ofNat 64 (min a.toNat b.toNat)) ∧ exec (.maxu f) s = res 1 (.ofNat 64 (max a.toNat b.toNat))) ∧
  (∀ (s : State) (f : RI) (g : I20),
    let a := s.tile.scalar f.srcA
    let i := f.imm.toInt
    let n := f.imm.toNat % 64
    let truth := fun (p : Bool) => (if p then 1 else 0 : W64)
    let put := fun (t : State) (r : BitVec 6) (w : W64) => (Host.Outcome.next (t.withResult 1 (.s r.toNat s.tile.ctl.handler) (.word w) 0 false
      (some s.ownLatch)) : Out)
    let res := put (s.withLost (s.tile.scalarLost f.srcA)) f.dst
    exec (.addi f) s = res (.ofInt 64 (a.toInt + i)) ∧ exec (.andi f) s = res (a &&& .ofInt 64 i) ∧
    exec (.ori f) s = res (a ||| .ofInt 64 i) ∧ exec (.xori f) s = res (a ^^^ .ofInt 64 i) ∧
    exec (.shli f) s = res (.ofNat 64 (a.toNat * 2 ^ n)) ∧ exec (.shri f) s = res (.ofNat 64 (a.toNat / 2 ^ n)) ∧
    exec (.srai f) s = res (.ofInt 64 (a.toInt / 2 ^ n)) ∧ exec (.cmpeqi f) s = res (truth (decide (a.toInt = i))) ∧
    exec (.cmplti f) s = res (truth (decide (a.toInt < i))) ∧
    exec (.cmpltui f) s = res (truth (decide (a.toNat < (BitVec.ofInt 64 i).toNat))) ∧
    exec (.movi g) s = put s g.dst (.ofInt 64 g.imm.toInt) ∧
    exec (.movhi g) s = put s g.dst (.ofInt 64 (BitVec.ofNat 32 (g.imm.toNat * 4096 + (s.tile.sreg g.dst.toNat).toNat % 4096)).toInt) ∧
    exec (.movfi g) s = put s g.dst (.ofNat 64 (g.imm.toNat * 4096)))

/-- Bit counts, extraction and insertion (R116). With its predicate on, CLZ, CTZ, POPC, EXT and INS put their result in flight with latency 1: the counts by the position of the set bits, the bitfields by their position b[5:0] and length b[12:6] taken as at most 64. -/
def Obligations.CountsAndBitfields : Prop :=
  ∀ (s : State) (f : RG), s.tile.predOn f.pred = true →
    let a := s.tile.scalar f.srcA
    let b := s.tile.scalar f.srcB
    let res := fun (l : Nat) (w : W64) => (Host.Outcome.next ((s.withLost (s.tile.scalarLost f.srcA || s.tile.scalarLost f.srcB)).withResult l
      (.s f.dst.toNat s.tile.ctl.handler) (.word w) 0 f.nwb (some s.ownLatch)) : Out)
    let d := s.tile.sreg f.dst.toNat
    let pos := b.toNat % 64
    let len := min (b.toNat / 64 % 128) 64
    exec (.clz f) s = res 1 (.ofNat 64 (if a = 0 then 64 else 63 - a.toNat.log2)) ∧
    (∃ c, exec (.ctz f) s = res 1 (.ofNat 64 c) ∧ c ≤ 64 ∧ (∀ i, i < c → a.getLsbD i = false) ∧ (c < 64 → a.getLsbD c = true)) ∧
    exec (.popc f) s = res 1 (.ofNat 64 ((List.range 64).countP fun i => a.getLsbD i)) ∧
    exec (.ext f) s = res 1 (.ofNat 64 (a.toNat / 2 ^ pos % 2 ^ len)) ∧
    (∃ w : W64, exec (.ins f) s = res 1 w ∧
      ∀ i, i < 64 → w.getLsbD i = if pos ≤ i ∧ i < pos + len then a.getLsbD (i - pos) else d.getLsbD i)

/-- A predicated-off instruction has no effect (R112, R150, R163, R181, R184, R192, R197, R203, R206, R230). With bit 0 of its predicate register clear, every scalar RG instruction, every scalar load and store, every local atomic, the whole-predicated LS, VA and VB instructions and the five CP instructions leave the state as it is. -/
def Obligations.PredicatedOff : Prop :=
  ∀ (s : State),
    (∀ f : RG, s.tile.predOn f.pred = false →
      ∀ i ∈ [Instr.add f, .sub f, .mul f, .mulh f, .mulhu f, .div f, .divu f, .rem f, .remu f, .and f, .or f, .xor f, .andn f, .orn f, .sel f, .shl f,
        .shr f, .sra f, .rotl f, .cmpeq f, .cmpne f, .cmplt f, .cmpltu f, .cmple f, .cmpleu f, .min f, .max f, .minu f, .maxu f, .clz f, .ctz f,
        .popc f, .ext f, .ins f, .fadd f, .fsub f, .fmul f, .ffma f, .fdiv f, .fsqrt f, .fmin f, .fmax f, .fcmpeq f, .fcmplt f, .fcmple f, .fcvt f,
        .tadd f, .tmul f, .tfma f, .amov f, .aread f, .adelta f, .rdcyc f, .pany f, .pall f, .pcnt f], exec i s = .next s) ∧
    (∀ f : Mem, s.tile.predOn f.pred = false →
      ∀ i ∈ [Instr.ldb f, .ldbu f, .ldh f, .ldhu f, .ldw f, .ldwu f, .ldd f, .stb f, .sth f, .stw f, .std f, .pld f, .pst f, .kld f, .qsave f,
        .qload f, .istore f], exec i s = .next s) ∧
    (∀ f : Atomic, s.tile.predOn f.pred = false →
      ∀ i ∈ [Instr.amoadd f, .amoand f, .amoor f, .amoxor f, .amomin f, .amomax f, .amominu f, .amomaxu f, .amoswap f, .amocas f, .amofadd f,
        .amotadd f], exec i s = .next s) ∧
    (∀ f : RG, s.tile.predOn f.pred = false →
      ∀ i ∈ [Instr.vsetf f, .vqadd f, .vqsub f, .vqclr f, .vqscale f, .vqmovQq f, .vqmovVq f, .vqmovQv f, .vext f, .vins f, .vdigest f, .vlqclr f],
        exec i s = .next s) ∧
    (∀ f : Copy, s.tile.predOn f.pred = false →
      ∀ i ∈ [Instr.cqpush f, .cwait f, .cdone f, .ckick f, .cqres f], exec i s = .next s)

/-- FP32 scalar instructions, FCVT and the tapered scalar instructions round the exact result once (R37, R64, R113, R119, R120, R121). With its predicate on and a rounding in force, each FP32 scalar instruction puts the word of its exact result, rounded once, in flight with the flags of the operands and of the rounding; the compares deliver 0 or 1, with NV for a signalling NaN, and for FCMPLT and FCMPLE for any NaN. With its predicate on, FCVT rounds the value of its source word to the other format once and extends it by the format; TADD, TMUL and TFMA round the exact result to DFMT once with latency 5; a format or a rounding that is reserved is ILLEGAL_OPERAND. That FFMA sets NV for zero times infinity with a quiet NaN as the third operand is the model's choice (log 101, DESIGN CHOICE). That a reserved RMODE is ILLEGAL_OPERAND for an integer result too, which nearest even would round anyway, is the model's reading (log 15, DEDUCED). -/
def Obligations.ScalarFormats : Prop :=
  (∀ (s : State) (f : RG) (r : Rounding), s.tile.predOn f.pred = true → s.tile.rounding fp32 = some r →
    let a := f32 (s.tile.scalar f.srcA)
    let b := f32 (s.tile.scalar f.srcB)
    let d := f32 (s.tile.sreg f.dst.toNat)
    let tid := match r with
      | .nearest => false
      | .stochastic _ _ => s.tile.scalarLost s.tile.tids
    let two := s.tile.scalarLost f.srcA || s.tile.scalarLost f.srcB
    let put := fun (t : State) (l : Nat) (w : Nat) (fl : Flags) => (Host.Outcome.next (t.withResult l (.s f.dst.toNat s.tile.ctl.handler)
      (.word (.ofNat 64 w)) fl f.nwb (some s.ownLatch)) : Out)
    let res := fun (l : Nat) (fl : Flags) (x : OpRes) =>
      put ((s.withLost tid).withLost two) l (x.deliver true fp32 r.scalarWord).1 (fl ||| (x.deliver true fp32 r.scalarWord).2)
    let truth := fun (p : Bool) => if p then 1 else 0
    let nan := a.1.isNan || b.1.isNan
    exec (.fadd f) s = res 4 (a.2 ||| b.2) (vadd a.1 b.1) ∧ exec (.fsub f) s = res 4 (a.2 ||| b.2) (vadd a.1 b.1.neg) ∧
    exec (.fmul f) s = res 4 (a.2 ||| b.2) (vmul a.1 b.1) ∧ exec (.ffma f) s = res 4 (a.2 ||| b.2 ||| d.2) (vfma a.1 b.1 d.1) ∧
    exec (.fdiv f) s = res 14 (a.2 ||| b.2) (vdiv true a.1 b.1) ∧
    (f.srcB = 0 → exec (.fsqrt f) s = res 14 (a.2 ||| b.2) (vsqrt true a.1)) ∧
    exec (.fmin f) s = put (s.withLost two) 4 (fp32.rnd (vminmax false false false a.1 b.1) none).1 (a.2 ||| b.2) ∧
    exec (.fmax f) s = put (s.withLost two) 4 (fp32.rnd (vminmax true false false a.1 b.1) none).1 (a.2 ||| b.2) ∧
    exec (.fcmpeq f) s = put (s.withLost two) 4 (truth (!nan && a.1.eqv b.1)) (a.2 ||| b.2) ∧
    exec (.fcmplt f) s = put (s.withLost two) 4 (truth (!nan && a.1.lt b.1)) (a.2 ||| b.2 ||| if nan then Flag.NV else 0) ∧
    exec (.fcmple f) s = put (s.withLost two) 4 (truth (!nan && (a.1.lt b.1 || a.1.eqv b.1))) (a.2 ||| b.2 ||| if nan then Flag.NV else 0)) ∧
  (∀ (s : State) (f : RG), s.tile.predOn f.pred = true →
    let a := s.tile.scalar f.srcA
    let b := s.tile.scalar f.srcB
    let d := s.tile.sreg f.dst.toNat
    let tid := fun (r : Rounding) => match r with
      | .nearest => false
      | .stochastic _ _ => s.tile.scalarLost s.tile.tids
    let put := fun (t : State) (l : Nat) (w : W64) (fl : Flags) => (Host.Outcome.next (t.withResult l (.s f.dst.toNat s.tile.ctl.handler) (.word w) fl
      f.nwb (some s.ownLatch)) : Out)
    (∀ (other : Fmt) (r : Rounding), Fmt.ofCode (f.srcB.toNat % 32) = some other →
      let src := if f.srcB.getLsbD 6 then fp32 else other
      let dst := if f.srcB.getLsbD 6 then other else fp32
      s.tile.rounding dst = some r →
        let x := src.xval (a.toNat % 2 ^ src.width)
        exec (.fcvt f) s = put ((s.withLost (tid r)).withLost (s.tile.scalarLost f.srcA)) 4 (Fmt.toScalar dst (dst.rnd x.1 r.scalarWord).1)
          (x.2 ||| (dst.rnd x.1 r.scalarWord).2)) ∧
    (∀ (fa fb fd : Fmt) (r : Rounding), s.tile.taperedFmts = some (fa, fb, fd) → s.tile.rounding fd = some r →
      let x := (fa.xval a.toNat).1
      let y := (fb.xval b.toNat).1
      let z := (fd.xval d.toNat).1
      let res := fun (o : OpRes) =>
        put ((s.withLost (tid r)).withLost (s.tile.scalarLost f.srcA || s.tile.scalarLost f.srcB)) 5
          (.ofNat 64 (o.deliver false fd r.scalarWord).1) (o.deliver false fd r.scalarWord).2
      exec (.tadd f) s = res (vadd x y) ∧ exec (.tmul f) s = res (vmul x y) ∧ exec (.tfma f) s = res (vfma x y z)) ∧
    (∀ h, s.trapsAt h → s.tile.taperedFmts = none →
      exec (.tadd f) s = .next (s.trapped 0x02 0) ∧ exec (.tmul f) s = .next (s.trapped 0x02 0) ∧ exec (.tfma f) s = .next (s.trapped 0x02 0)) ∧
    (∀ h fa fb fd, s.trapsAt h → s.tile.taperedFmts = some (fa, fb, fd) → s.tile.rounding fd = none →
      exec (.tadd f) s = .next (s.trapped 0x02 0) ∧ exec (.tmul f) s = .next (s.trapped 0x02 0) ∧ exec (.tfma f) s = .next (s.trapped 0x02 0)) ∧
    (∀ h, s.trapsAt h → Fmt.ofCode (f.srcB.toNat % 32) = none → exec (.fcvt f) s = .next (s.trapped 0x02 0)) ∧
    (∀ h other, s.trapsAt h → Fmt.ofCode (f.srcB.toNat % 32) = some other → s.tile.rounding (if f.srcB.getLsbD 6 then other else fp32) = none →
      exec (.fcvt f) s = .next (s.trapped 0x02 0)))

/-- Address registers, the loop update table and loop indices (R122, R130). AMOV and AADDI put 32 bits for an address register in flight, AREAD the sign-extended delta of a register and a level, ADELTA a new delta of 32 bits that loop-backs of the next cycle use, and LIDX BASEIT + PASS of an active level counted from the outermost, or zero. That NWB suppresses the write of ADELTA (log 26) and that its result lands in its slot's latch (log 82) are the model's readings (DEDUCED). -/
def Obligations.AddressInstructions : Prop :=
  ∀ (s : State) (f : RG) (g : RI),
    let put := fun (t : State) (d : Dest) (w : W64) (nwb : Bool) (k : Option Latch) => (Host.Outcome.next (t.withResult 1 d (.word w) 0 nwb k) : Out)
    let a := s.withLost (s.tile.scalarLost f.srcA)
    (s.tile.predOn f.pred = true →
      exec (.amov f) s = put a (.a f.dst.toNat) (.ofNat 64 ((s.tile.scalar f.srcA).toNat % 2 ^ 32)) f.nwb (some s.ownLatch) ∧
      exec (.aread f) s = put s (.s f.dst.toNat s.tile.ctl.handler)
        (.ofInt 64 (rd s.tile.regs.table (6 * f.srcA.toNat + f.srcB.toNat)).toInt) f.nwb (some s.ownLatch) ∧
      exec (.adelta f) s = put a (.table f.dst.toNat f.srcB.toNat) (.ofNat 64 ((s.tile.scalar f.srcA).toNat % 2 ^ 32)) f.nwb (some s.ownLatch)) ∧
    exec (.aaddi g) s = put (s.withLost (s.tile.scalarLost g.srcA)) (.a g.dst.toNat)
      (.ofNat 64 ((((s.tile.scalar g.srcA).toNat : Int) + g.imm.toInt) % 2 ^ 32).toNat) false (some s.ownLatch) ∧
    exec (.lidx g) s = put s (.s g.dst.toNat s.tile.ctl.handler)
      (match s.tile.ctl.levels.reverse[g.imm.toNat]? with
        | some l => .ofNat 64 (l.baseIt + l.pass)
        | none => 0) false (some s.ownLatch)

/-- CSRR and CSRW, the landing of a write, and their traps (R36, R37, R38, R39, R123). CSRR puts the value of each control register in flight: VFMT, TSTAT, TEN, RRB, SEED, CLAMPCOUNT, TCAUSE, EPC, and in a handler SBK0-7, the program bank of s56-s63. CSRW of VFMT, TSTAT, TEN, SEED and, in a handler, SBK0-7 takes effect one cycle later: VFMT keeps no reserved bit, a write of TSTAT clears the bits written as one, TEN keeps its low eight bits, SBK0-7 write s56-s63 of the program bank. Outside a handler SBK0-7 raise PRIV, and so does CSRW of a read-only register; every other number is ILLEGAL_OPERAND with the number in TVAL. That a CSRW result reaches its slot's latch is the model's reading (log 82). -/
def Obligations.ControlRegisters : Prop :=
  ∀ (s : State) (f : RI),
    let n := f.imm.toNat
    let w := s.tile.scalar f.srcA
    let res := fun (w : Nat) => exec (.csrr f) s =
      .next (s.withResult 1 (.s f.dst.toNat s.tile.ctl.handler) (.word (.ofNat 64 w)) 0 false (some s.ownLatch))
    let put := fun (d : Dest) => exec (.csrw f) s = .next ((s.withLost (s.tile.scalarLost f.srcA)).withResult 1 d (.word w) 0 false (some s.ownLatch))
    (n = 0x001 → res s.tile.csr.vfmt.toNat) ∧ (n = 0x002 → res s.tile.csr.tstat.toNat) ∧ (n = 0x003 → res s.tile.csr.ten.toNat) ∧
    (n = 0x004 → res s.tile.regs.rrb.toNat) ∧ (n = 0x005 → res s.tile.csr.seed.toNat) ∧ (n = 0x006 → res s.tile.csr.clamp.toNat) ∧
    (n = 0x010 → res s.tile.csr.tcause.toNat) ∧ (n = 0x011 → res s.tile.csr.epc.toNat) ∧
    (∀ k, k < 8 → n = 0x040 + k → s.tile.ctl.handler = true → res (rd s.tile.regs.s (56 + k)).toNat) ∧
    (∀ k h, k < 8 → n = 0x040 + k → s.trapsAt h → exec (.csrr f) s = .next (s.trapped 0x17 n)) ∧
    (∀ h, s.trapsAt h → n ∉ [0x001, 0x002, 0x003, 0x004, 0x005, 0x006, 0x010, 0x011] → (n < 0x040 ∨ 0x048 ≤ n) →
      exec (.csrr f) s = .next (s.trapped 0x02 n) ∧ exec (.csrw f) s = .next (s.trapped 0x02 n)) ∧
    (n = 0x001 → put (.vfmt 0xFFFFFFFF)) ∧ (n = 0x002 → put .tstat) ∧ (n = 0x003 → put .ten) ∧ (n = 0x005 → put .seed) ∧
    (∀ k, k < 8 → n = 0x040 + k → s.tile.ctl.handler = true → put (.sbk k)) ∧
    (∀ h, s.trapsAt h → n ∈ [0x004, 0x006, 0x010, 0x011, 0x040, 0x041, 0x042, 0x043, 0x044, 0x045, 0x046, 0x047] →
      exec (.csrw f) s = .next (s.trapped 0x17 n)) ∧
    (∀ x : Flight, x.payload = .word w →
      (x.dest = .vfmt 0xFFFFFFFF → (landCsr s.tile.csr s.tile.csr x).vfmt = w.setWidth 32 &&& 0x01FF7FFF) ∧
      (x.dest = .tstat → (landCsr s.tile.csr s.tile.csr x).tstat = s.tile.csr.tstat &&& ~~~(w.setWidth 32)) ∧
      (x.dest = .ten → (landCsr s.tile.csr s.tile.csr x).ten = w.setWidth 32 &&& 0xFF) ∧ (x.dest = .seed → (landCsr s.tile.csr s.tile.csr x).seed = w) ∧
      ∀ (r0 r : Regs) (k : Nat), k < 8 → x.nwb = false → x.dest = .sbk k → rd (landReg r0 r x).1.s (56 + k) = w ∧
        (∀ j, j ≠ 56 + k → rd (landReg r0 r x).1.s j = rd r.s j) ∧ (landReg r0 r x).1.v = r.v ∧ (landReg r0 r x).2 = 0)

/-- Exact values, the operations on them, and rounding once (R56, R58, R60, R63, R64, R65, R66, R185, R186, R207). The finite values of an operation are exact: sums, products, quotients, fused products and reciprocals are those of the rationals. Rounding a positive magnitude to FP32, BF16 or FP16 takes the multiple m of the unit in the last place at or below it, or the next one: m + 1 when the tail is above one half, or one half and m odd; with a random word, when the 32-bit tail plus the word carries. The word decodes to that multiple, with NX for a tail, UF for a tail below the least normal number, and an infinity with OF and NX past the largest. A tapered magnitude within its range rounds in the same way on its bit string of regime, exponent and fraction, and saturates with RANGE beyond it; each tapered word decodes to the value whose bit string it is, and its negative to the negative value. An integer format takes the nearest even integer and saturates with RANGE. An operation undefined on the reals delivers NaR or NaN with INV, zero with NV in an integer format. -/
def Obligations.RoundedOnce : Prop :=
  let rat := fun (v : Val) => (v.num : ℚ) / v.den
  let up := fun (m : Nat) (t : ℚ) (z : Option Nat) => match z with
    | none => 1 / 2 < t ∨ (t = 1 / 2 ∧ m % 2 = 1)
    | some z => (2 : ℤ) ^ 32 ≤ ⌊t * 2 ^ 32⌋ + z
  let steps := fun (m r : Nat) (t : ℚ) (z : Option Nat) => 0 ≤ t ∧ t < 1 ∧ ((up m t z ∧ r = m + 1) ∨ (¬ up m t z ∧ r = m))
  (∀ (s t : Bool) (n d m e k h : Nat) (u ieee : Bool), 0 < d → 0 < e → 0 < h →
    let a := Val.fin s n d
    let b := Val.fin t m e
    let isExact := fun (r : OpRes) (q : ℚ) => r.flags = 0 ∧ r.undef = false ∧ ∃ (s : Bool) (n d : Nat), 0 < d ∧ r.val = .fin s n d ∧ rat r.val = q
    isExact (vadd a b) (rat a + rat b) ∧ isExact (vmul a b) (rat a * rat b) ∧ (0 < m → isExact (vdiv ieee a b) (rat a / rat b)) ∧
    isExact (vfma a b (.fin u k h)) (rat a * rat b + rat (.fin u k h)) ∧ (0 < n → isExact (vrecip ieee a) (1 / rat a))) ∧
  (∀ F ∈ [(32, 24, 8), (16, 8, 8), (16, 11, 5)], ∀ (s : Bool) (a b : Nat) (z : Option Nat), 0 < a → 0 < b →
    let x := (a : ℚ) / b
    let D := Fmt.ieee F.1 F.2.1 F.2.2
    let emax : ℤ := 2 ^ (F.2.2 - 1) - 1
    let w := D.rnd (.fin s a b) z
    ∃ (l : ℤ) (m r : Nat) (t : ℚ), (2 : ℚ) ^ l ≤ x ∧ x < 2 ^ (l + 1) ∧
      let u := (2 : ℚ) ^ (max l (1 - emax) - F.2.1 + 1)
      x = (m + t) * u ∧ steps m r t z ∧ w.1 < 2 ^ F.1 ∧
      (2 ^ (emax + 1) ≤ r * u → D.xval w.1 = (.inf s, 0)) ∧
      (r * u < 2 ^ (emax + 1) → ∃ n d : Nat, 0 < d ∧ D.xval w.1 = (.fin s n d, 0) ∧ (n : ℚ) / d = r * u) ∧
      w.2 = (if t = 0 then 0 else Flag.NX) ||| (if t ≠ 0 ∧ x < 2 ^ (1 - emax) then Flag.UF else 0) |||
        (if 2 ^ (emax + 1) ≤ r * u then Flag.OF ||| Flag.NX else 0)) ∧
  (∀ n ∈ ([4, 8, 16, 32] : List Nat), ∀ es : Nat, es < 4 → ∀ z : Option Nat,
    let D := Fmt.tap n es
    let len := fun (k : ℤ) => if 0 ≤ k then k + 2 else 1 - k
    let cut := fun (k : ℤ) (e : Nat) (f : ℚ) => ((if 0 ≤ k then (2 : ℚ) ^ (k + 2) - 2 else 1) * 2 ^ es + e + f) * 2 ^ ((n : ℤ) - 1 - len k - es)
    let real := fun (k : ℤ) (e : Nat) (f : ℚ) => (2 : ℚ) ^ (k * 2 ^ es + e) * (1 + f)
    let top := (2 : ℚ) ^ (2 ^ es * (n - 2))
    D.xval 0 = (.zero, 0) ∧ D.xval (2 ^ (n - 1)) = (.nan, 0) ∧ D.rnd .nan z = (2 ^ (n - 1), 0) ∧ (∀ s b, D.rnd (.fin s 0 b) z = (0, 0)) ∧
    (∀ w : Nat, 0 < w → w < 2 ^ (n - 1) → D.xval (2 ^ n - w) = ((D.xval w).1.neg, 0) ∧
      ∃ (k : ℤ) (e : Nat) (f : ℚ), e < 2 ^ es ∧ 0 ≤ f ∧ f < 1 ∧ rat (D.xval w).1 = real k e f ∧ (w : ℚ) = cut k e f) ∧
    ∀ a b : Nat, 0 < a → 0 < b →
      let x := (a : ℚ) / b
      let w := D.rnd (.fin false a b) z
      D.rnd (.fin true a b) z = ((2 ^ n - w.1) % 2 ^ n, w.2) ∧ (top < x → w = (2 ^ (n - 1) - 1, Flag.RANGE)) ∧ (x < 1 / top → w = (1, Flag.RANGE)) ∧
      (1 / top ≤ x → x ≤ top → ∃ (k : ℤ) (e : Nat) (f : ℚ) (m r : Nat) (t : ℚ), e < 2 ^ es ∧ 0 ≤ f ∧ f < 1 ∧ x = real k e f ∧ cut k e f = m + t ∧ steps m r t z ∧ w = (r, 0))) ∧
  (∀ (n : Nat) (sg s : Bool) (a b : Nat) (z : Option Nat), 0 < n → 0 < b →
    let lo : ℤ := if sg then -2 ^ (n - 1) else 0
    let hi : ℤ := if sg then 2 ^ (n - 1) - 1 else 2 ^ n - 1
    ∃ (m r : Nat) (t : ℚ), (a : ℚ) / b = m + t ∧ steps m r t none ∧
      let i : ℤ := if s then -(r : ℤ) else r
      (Fmt.int sg n).rnd (.fin s a b) z = (((max lo (min hi i)) % 2 ^ n).toNat, if lo ≤ i ∧ i ≤ hi then 0 else Flag.RANGE)) ∧
  ∀ (r : OpRes) (ieee : Bool) (D : Fmt) (z : Option Nat),
    (r.undef = true → r.deliver ieee D z = ((D.rnd .nan none).1, if D.isInt then Flag.NV else Flag.INV)) ∧
    (r.undef = false → ieee = true → r.deliver ieee D z = ((D.rnd r.val z).1, (D.rnd r.val z).2 ||| r.flags))

/-- TOPO, RDCYC and the predicate summaries (R125). TOPO puts the named field of the tile's place in flight, RDCYC the global cycle counter of the issue cycle, and PANY, PALL and PCNT whether any, whether all and how many elements of a predicate are active at the width of their code. -/
def Obligations.TopologyAndSummaries : Prop :=
  ∀ (s : State) (f : RG) (g : RI),
    let p := s.tile.place
    let put := fun (d : BitVec 6) (w : Nat) (nwb : Bool) => (Host.Outcome.next (s.withResult 1 (.s d.toNat s.tile.ctl.handler) (.word (.ofNat 64 w)) 0 nwb
      (some s.ownLatch)) : Out)
    let field := fun (n w : Nat) => g.imm.toNat = n → exec (.topo g) s = put g.dst w false
    let m := s.tile.preg (f.srcA.toNat % 8)
    let k := f.srcB.toNat
    let step := if k = 1 then 2 else if k = 2 then 4 else 1
    let on := (List.range (256 / step)).countP fun e => m.getLsbD (step * e)
    field 0 p.gx ∧ field 1 p.gy ∧ field 2 p.gw ∧ field 3 p.gh ∧ field 4 p.glast ∧ field 5 (p.gw * (p.gh - 1) + p.glast) ∧
    field 6 (p.gy * p.gw + p.gx) ∧ field 7 (s.cur % 384) ∧ field 8 (s.cur / 384) ∧ field 9 s.globals.modIdx ∧
    field 10 (p.dx % 256 + 2 ^ 8 * (p.dy % 256) + 2 ^ 16 * (p.gangW % 256) + 2 ^ 24 * (p.gangH % 256)) ∧ field 11 p.partition ∧ field 12 p.ctx ∧
    field 13 p.kseq ∧
    (s.tile.predOn f.pred = true → exec (.rdcyc f) s = put f.dst s.cycle f.nwb) ∧
    (s.tile.predOn f.pred = true →
      exec (.pany f) s = put f.dst (if on = 0 then 0 else 1) f.nwb ∧ exec (.pall f) s = put f.dst (if on = 256 / step then 1 else 0) f.nwb ∧
      exec (.pcnt f) s = put f.dst (if k = 3 then 2 * on else on) f.nwb)

/-- Scalar loads and stores, and the traps of an access outside the scratchpad or not aligned (R52, R88, R146, R151, R153). With its predicate on and its bytes inside the scratchpad and aligned, a scalar load puts the little-endian bytes at its offset, sign- or zero-extended, in flight for its register with latency 3; the offset follows the address mode, and mode 0b01 adds the access size to the base register. With its predicate on and its bytes inside the scratchpad and aligned, a scalar store enters the low bytes of its register for its offset, to be written one cycle later; no register, flag or byte of memory changes at issue but the base register of mode 0b01. A scalar load or store whose bytes do not lie in the scratchpad takes SPAD_RANGE with its offset in TVAL, and one inside whose offset is no multiple of its size takes MISALIGNED_ACCESS; no result and no store is entered. -/
def Obligations.ScalarAccesses : Prop :=
  (∀ (s : State) (f : Mem), s.tile.predOn f.pred = true → s.tile.ecc = [] →
    let a := rd s.tile.regs.a f.base.toNat
    let o := fun (n : Nat) => s.tile.offset f n
    let ok := fun (n : Nat) => o n + n ≤ 0x60000 ∧ o n % n = 0
    let res := fun (n : Nat) (w : Int) => (Host.Outcome.next ((s.addressed f n).withResult 3 (.s f.reg.toNat s.tile.ctl.handler) (.word (.ofInt 64 w)) 0 false
      (some .b2)) : Out)
    let v := fun (n : Nat) => s.tile.spad.nat (o n) n
    (∀ n, (f.mode = 0 → (o n : Int) = (a.toNat + f.off.toInt * n) % 2 ^ 32) ∧ (f.mode = 1 → o n = a.toNat) ∧
      (f.mode = 2 → o n = (a.toNat + (s.tile.scalar f.index).toNat) % 2 ^ 32)) ∧
    (ok 1 → exec (.ldb f) s = res 1 (BitVec.ofNat 8 (v 1)).toInt ∧ exec (.ldbu f) s = res 1 (v 1)) ∧
    (ok 2 → exec (.ldh f) s = res 2 (BitVec.ofNat 16 (v 2)).toInt ∧ exec (.ldhu f) s = res 2 (v 2)) ∧
    (ok 4 → exec (.ldw f) s = res 4 (BitVec.ofNat 32 (v 4)).toInt ∧ exec (.ldwu f) s = res 4 (v 4)) ∧
    (ok 8 → exec (.ldd f) s = res 8 (v 8))) ∧
  (∀ (s : State) (f : Mem), s.tile.predOn f.pred = true →
    let o := fun (n : Nat) => s.tile.offset f n
    let ok := fun (n : Nat) => o n + n ≤ 0x60000 ∧ o n % n = 0
    let res := fun (n : Nat) => (Host.Outcome.next ((s.addressed f n).withStore 1 .spad (cellsAt (o n) (natBytes (s.tile.sreg f.reg.toNat).toNat n))) : Out)
    (ok 1 → exec (.stb f) s = res 1) ∧ (ok 2 → exec (.sth f) s = res 2) ∧ (ok 4 → exec (.stw f) s = res 4) ∧ (ok 8 → exec (.std f) s = res 8)) ∧
  (∀ (s : State) (f : Mem) (h : Nat), s.tile.predOn f.pred = true → s.trapsAt h →
    let t := s.withLost (decide (f.mode = 2) && s.tile.scalarLost f.index)
    let o := fun (n : Nat) => s.tile.offset f n
    let forms := [(Instr.ldb f, 1), (.ldbu f, 1), (.ldh f, 2), (.ldhu f, 2), (.ldw f, 4), (.ldwu f, 4), (.ldd f, 8), (.stb f, 1), (.sth f, 2), (.stw f, 4),
      (.std f, 8)]
    ∀ p ∈ forms, (0x60000 < o p.2 + p.2 → exec p.1 s = .next (t.trapped 0x05 (o p.2))) ∧
      (o p.2 + p.2 ≤ 0x60000 → o p.2 % p.2 ≠ 0 → exec p.1 s = .next (t.trapped 0x06 (o p.2))))

/-- STORE_WRITE writes the due stores (spec/02_tile.md R45, spec/02_tile.md R52, spec/06_memory_sync_ops.md R162). STORE_WRITE of the load/store port writes the bytes of a due store of the scratchpad at their addresses and removes it; that of the other ports, with nothing else due there, does the same for a matrix write and for a write of the instruction memory; every byte that no due store names reads as before in the first, and so does every register. -/
def Obligations.StoreWrites : Prop :=
  (∀ (s : State) (x : Store), s.args.flag = false → s.tile.io.stores = [x] → x.due ≤ s.cycle → x.kind = .spad →
    ∃ t, exec .storeWrite s = .next t ∧ t.tile.spad = s.tile.spad.writeCells x.cells ∧ t.tile.io.stores = [] ∧
      t = { s with tile := { s.tile with spad := t.tile.spad, ecc := t.tile.ecc, io := { s.tile.io with stores := [] } } }) ∧
  (∀ (s : State) (x : Store), s.args.flag = true → s.tile.io.stores = [x] → x.due ≤ s.cycle → s.tile.io.reads = [] → s.tile.io.amos = [] →
    s.tile.io.inbound = [] →
    (x.kind = .imem → ∃ t, exec .storeWrite s = .next t ∧ t.tile.imem = s.tile.imem.writeCells x.cells ∧ t.tile.io.stores = [] ∧
      t.tile.spad = s.tile.spad ∧ t.tile.regs = s.tile.regs) ∧
    (x.kind = .feed → ∃ t, exec .storeWrite s = .next t ∧ t.tile.spad = s.tile.spad.writeCells x.cells ∧ t.tile.io.stores = [] ∧
      t.tile.imem = s.tile.imem ∧ t.tile.regs = s.tile.regs)) ∧
  ∀ (s t : State), s.args.flag = false → exec .storeWrite s = .next t →
    t.tile.regs = s.tile.regs ∧ t.tile.csr = s.tile.csr ∧ t.tile.ctl = s.tile.ctl ∧ t.tile.mx = s.tile.mx ∧ t.tile.flights = s.tile.flights ∧
      t.tiles = s.tiles ∧ t.dev = s.dev ∧ t.host = s.host ∧
      ∀ a, (∀ x ∈ s.tile.io.stores, x.due ≤ s.cycle → ∀ c ∈ x.cells, c.1 ≠ a) →
        t.tile.spad.read a = s.tile.spad.read a ∧ t.tile.imem.read a = s.tile.imem.read a

/-- Vector, predicate, constant and quire loads and stores (R150, R151, R154, R155, R159, R160, R161, R162). With its bytes inside the scratchpad and aligned, each of VLD, VST, PLD, PST, KLD, QSAVE, QLOAD and ISTORE puts the bytes read in flight or enters the bytes of its register as a store, under the byte enables of its predicate for VLD and VST and bundle by bundle for ISTORE; otherwise it takes SPAD_RANGE or MISALIGNED_ACCESS with its offset, and so does VLDB. That ISTORE checks the range of the bundles up to the last whose predicate bit is 1 is the model's reading (log 17, DEDUCED). -/
def Obligations.VectorLoadsStores : Prop :=
  ∀ (s : State) (f : Mem), s.tile.ecc = [] →
    let o := s.tile.offset f 16
    let m := s.tile.preg f.pred.toNat
    let v := s.tile.vreg f.reg.toNat
    let fits := fun (n : Nat) => o + n ≤ 0x60000 ∧ o % 16 = 0
    let load := fun (n l : Nat) (d : Dest) (p : Payload) (k : Option Latch) => (Host.Outcome.next ((s.addressed f n).withResult l d p 0 false k) : Out)
    let store := fun (n l : Nat) (k : StoreKind) (cs : List Host.Cell) => (Host.Outcome.next ((s.addressed f n).withStore l k cs) : Out)
    let cells := fun (w n : Nat) => cellsAt o (natBytes w n)
    (fits 256 → exec (.vld f) s = load 256 4 (.v (s.tile.phys f.reg.toNat)) (.lanes m (.ofNat 2048 (s.tile.spad.nat o 256))) (some .vb2) ∧
      exec (.vst f) s = store 256 2 .spad ((cells v.toNat 256).filter fun c => m.getLsbD (c.1 - o))) ∧
    (s.tile.predOn f.pred = true →
      (fits 32 → exec (.pld f) s = load 32 3 (.p f.reg.toNat) (.bits (BitVec.allOnes 256) (.ofNat 256 (s.tile.spad.nat o 32))) none ∧
        exec (.pst f) s = store 32 1 .spad (cells (s.tile.preg f.reg.toNat).toNat 32)) ∧
      (fits 128 → exec (.kld f) s = load 128 4 .bank (.consts (.ofNat 1024 (s.tile.spad.nat o 128))) none ∧
        exec (.qsave f) s = store 128 2 .spad (cells (rd s.tile.regs.q f.reg.toNat).toNat 128) ∧
        exec (.qload f) s = load 128 4 (.q f.reg.toNat) (.quire (.ofNat 1024 (s.tile.spad.nat o 128))) none) ∧
      ((∀ i, i < 8 → m.getLsbD (32 * i) = true → o + 32 * (i + 1) ≤ 0x10000) → o % 32 = 0 →
        exec (.istore f) s = store 256 2 .imem ((cells v.toNat 256).filter fun c => m.getLsbD (32 * ((c.1 - o) / 32))))) ∧
    ∀ h, s.trapsAt h →
      let t := s.withLost (decide (f.mode = 2) && s.tile.scalarLost f.index)
      (∀ i ∈ [(Instr.vld f, 256), (.vst f, 256), (.vldb f, 320)],
        (0x60000 < o + i.2 → exec i.1 s = .next (t.trapped 0x05 o)) ∧
        (o + i.2 ≤ 0x60000 → o % 16 ≠ 0 → exec i.1 s = .next (t.trapped 0x06 o))) ∧
      (s.tile.predOn f.pred = true → ∀ i ∈ [(Instr.pld f, 32), (.pst f, 32), (.kld f, 128), (.qsave f, 128), (.qload f, 128)],
        (0x60000 < o + i.2 → exec i.1 s = .next (t.trapped 0x05 o)) ∧
        (o + i.2 ≤ 0x60000 → o % 16 ≠ 0 → exec i.1 s = .next (t.trapped 0x06 o))) ∧
      (s.tile.predOn f.pred = true →
        (∀ i, i < 8 → m.getLsbD (32 * i) = true → 0x10000 < o + 32 * (i + 1) → exec (.istore f) s = .next (t.trapped 0x05 o)) ∧
        ((∀ i, i < 8 → m.getLsbD (32 * i) = true → o + 32 * (i + 1) ≤ 0x10000) → o % 32 ≠ 0 → exec (.istore f) s = .next (t.trapped 0x06 o)))

/-- Strided, indexed and block loads and stores (R156, R157, R158). With their offsets inside the scratchpad, aligned and, in each group, in distinct banks, VLDS and VSTS move 16 words at their stride, VGATHER and VSCATTER move the active 4-byte elements of four groups, one group a cycle, and VLDB reads the 256 element bytes and 64 exponent bytes of eight 40-byte blocks; the first offset that is outside, not aligned or in a bank that its group names twice takes SPAD_RANGE or MISALIGNED_ACCESS. That range and alignment come before bank conflicts, and which offset TVAL names, are the model's readings (log 18, DEDUCED). -/
def Obligations.StridedAndIndexed : Prop :=
  ∀ (s : State) (f : Mem), s.tile.ecc = [] →
    let a := (rd s.tile.regs.a f.base.toNat).toNat
    let m := s.tile.preg f.pred.toNat
    let v := s.tile.vreg f.reg.toNat
    let d := (s.tile.scalar f.index).toNat % 2 ^ 32
    let w := fun (i : Nat) => (a + i * d) % 2 ^ 32
    let dst := Dest.v (s.tile.phys f.reg.toNat)
    let e := fun (j : Nat) => ((List.range 16).map (16 * j + ·)).filterMap fun k =>
      if m.getLsbD (4 * k) then some (k, (a + elem (s.tile.vector f.index 32) 32 k) % 2 ^ 32) else none
    let at_ := fun (j : Nat) => (e j).flatMap fun x => (List.range 4).map fun b => (x.2 + b, 4 * x.1 + b)
    let lost := s.withLost (s.tile.vectorLost f.index)
    let apart := ∀ j, j < 4 → (∀ x ∈ e j, x.2 + 4 ≤ 0x60000 ∧ x.2 % 4 = 0) ∧
      ∀ x ∈ e j, ∀ y ∈ e j, x.2 / 16 % 16 = y.2 / 16 % 16 → x.2 / 16 = y.2 / 16
    let o := s.tile.offset f 16
    let id := s.tile.nextId
    ((∀ i, i < 16 → w i + 16 ≤ 0x60000) → a % 16 = 0 → d % 32 = 16 →
      exec (.vlds f) s = .next ((s.withLost (s.tile.scalarLost f.index)).withResult 4 dst
        (.lanes m (.ofNat 2048 (packGo 128 (fun i => s.tile.spad.nat (w i) 16) 16))) 0 false (some .vb2)) ∧
      exec (.vsts f) s = .next ((s.withLost (s.tile.scalarLost f.index)).withStore 2 .spad
        (((List.range 256).filter m.getLsbD).map fun j => (w (j / 16) + j % 16, BitVec.ofNat 8 (byteOf v j))))) ∧
    (apart →
      exec (.vgather f) s = .next (((((lost.withResult 8 dst (.lanes (elemLanes m 32) 0) 0 false (some .vb2)).withRead 0 id (at_ 0)).withRead 1 id
        (at_ 1)).withRead 2 id (at_ 2)).withRead 3 id (at_ 3)) ∧
      ∃ t, exec (.vscatter f) s = .next t ∧ t.tile.ctl.scatterUntil = s.cycle + 5 * s.unit ∧ t.tile.spad = s.tile.spad ∧ t.tile.regs = s.tile.regs ∧
        t.tile.io.stores = s.tile.io.stores ++ (List.range 4).map fun j =>
          { due := s.cycle + (2 + j) * s.unit, issued := s.cycle, kind := .spad,
            cells := (e j).flatMap fun x => cellsAt x.2 (natBytes (elem v 32 x.1) 4) }) ∧
    (∀ k : PReg, (∀ j, j < 256 → k.getLsbD j = (decide (64 ≤ j) || m.getLsbD (4 * j))) → o + 320 ≤ 0x60000 → o % 16 = 0 →
      ∃ t, exec (.vldb f) s = .next t ∧ t.tile.ctl.scatterUntil = s.cycle + 2 * s.unit ∧ t.tile.regs = s.tile.regs ∧ t.tile.spad = s.tile.spad ∧
      (t.tile.flights.map fun x => (x.id, x.dest, x.payload, x.due, x.latch)).take (s.tile.flights.length + 2) =
        (s.tile.flights.map fun x => (x.id, x.dest, x.payload, x.due, x.latch)) ++ [(id, dst, .lanes m 0, s.cycle + 4 * s.unit, some .vb2),
          (id + 1, .v (s.tile.phys (f.reg.toNat + 1)), .lanes k 0, s.cycle + 4 * s.unit, none)] ∧
      let when := fun (a : Nat) => if a < o + 256 then s.cycle else s.cycle + s.unit
      (∀ j, j < 256 → ∃ r ∈ t.tile.io.reads, r.flight = id ∧ r.due = when (o + 40 * (j / 32) + j % 32) ∧ (o + 40 * (j / 32) + j % 32, j) ∈ r.cells) ∧
      ∀ j, j < 64 → ∃ r ∈ t.tile.io.reads, r.flight = id + 1 ∧ r.due = when (o + 40 * (j / 8) + 32 + j % 8) ∧
        (o + 40 * (j / 8) + 32 + j % 8, j) ∈ r.cells) ∧
    ∀ h, s.trapsAt h →
      let u := s.withLost (s.tile.scalarLost f.index)
      let all := (List.range 4).flatMap e
      (∀ i, i < 16 → (∀ j, j < i → w j + 16 ≤ 0x60000) → 0x60000 < w i + 16 →
        exec (.vlds f) s = .next (u.trapped 0x05 (w i)) ∧ exec (.vsts f) s = .next (u.trapped 0x05 (w i))) ∧
      ((∀ i, i < 16 → w i + 16 ≤ 0x60000) → a % 16 ≠ 0 →
        exec (.vlds f) s = .next (u.trapped 0x06 (w 0)) ∧ exec (.vsts f) s = .next (u.trapped 0x06 (w 0))) ∧
      ((∀ i, i < 16 → w i + 16 ≤ 0x60000) → a % 16 = 0 → d % 32 ≠ 16 →
        exec (.vlds f) s = .next (u.trapped 0x06 (w 1)) ∧ exec (.vsts f) s = .next (u.trapped 0x06 (w 1))) ∧
      (∀ x, all.find? (fun x => decide (0x60000 < x.2 + 4)) = some x →
        exec (.vgather f) s = .next (lost.trapped 0x05 x.2) ∧ exec (.vscatter f) s = .next (lost.trapped 0x05 x.2)) ∧
      (∀ x, (∀ y ∈ all, y.2 + 4 ≤ 0x60000) → all.find? (fun x => x.2 % 4 != 0) = some x →
        exec (.vgather f) s = .next (lost.trapped 0x06 x.2) ∧ exec (.vscatter f) s = .next (lost.trapped 0x06 x.2)) ∧
      (∀ j x, j < 4 → (∀ y ∈ all, y.2 + 4 ≤ 0x60000 ∧ y.2 % 4 = 0) →
        (∀ i, i < j → ∀ y ∈ e i, ∀ z ∈ e i, y.2 / 16 % 16 = z.2 / 16 % 16 → y.2 / 16 = z.2 / 16) →
        (e j).find? (fun y => (e j).any fun z => z.2 / 16 % 16 == y.2 / 16 % 16 && z.2 / 16 != y.2 / 16) = some x →
        exec (.vgather f) s = .next (lost.trapped 0x06 x.2) ∧ exec (.vscatter f) s = .next (lost.trapped 0x06 x.2))

/-- Local atomics issue, and act at their bank (R48, R146, R151, R163, R164). With its predicate on and its operand inside the scratchpad and aligned, each local atomic enters its bank operation for two cycles later and its result, the old value, for six cycles later; the operation, the width, the exponent size, the operand and the compare value are those of its form; one whose operand does not lie in the scratchpad takes SPAD_RANGE, one inside at an offset that is no multiple of its size MISALIGNED_ACCESS, and neither enters anything. When a local atomic is due, its memory operand becomes the value of its operation on the old one, every other byte of the scratchpad reads as before, and its result in flight takes the old value. The value of each operation is the sum modulo 2^w, AND, OR, XOR, the signed or unsigned minimum or maximum, the FP32 or tapered sum rounded once to nearest even, the operand, and for a compare-and-swap the operand when the old value is the compare value. -/
def Obligations.Atomics : Prop :=
  (∀ (s : State) (f : Atomic), s.tile.predOn f.pred = true →
    let o := (rd s.tile.regs.a f.base.toNat).toNat
    let w := if f.size = 3 then 64 else 32
    let fits := fun (bits : Nat) => o + bits / 8 ≤ 0x60000 ∧ o % (bits / 8) = 0
    let res := fun (op bits es : Nat) =>
      let t := (s.withLost (s.tile.scalarLost f.srcB)).withResult 6 (.s f.dst.toNat s.tile.ctl.handler) .unread 0 false (some .b2)
      (Host.Outcome.next (t.withIo { t.tile.io with amos := t.tile.io.amos ++
        [{ due := s.cycle + 2 * s.unit, addr := o, flight := s.tile.nextId,
           alu := { op := op, bits := bits, es := es, value := (s.tile.scalar f.srcB).toNat, cmp := (s.tile.sreg f.dst.toNat).toNat } }] }) : Out)
    (fits w → exec (.amoadd f) s = res 0 w 0 ∧ exec (.amoand f) s = res 1 w 0 ∧ exec (.amoor f) s = res 2 w 0 ∧ exec (.amoxor f) s = res 3 w 0 ∧
      exec (.amomin f) s = res 4 w 0 ∧ exec (.amomax f) s = res 5 w 0 ∧ exec (.amominu f) s = res 6 w 0 ∧ exec (.amomaxu f) s = res 7 w 0 ∧
      exec (.amoswap f) s = res 10 w 0 ∧ exec (.amocas f) s = res 11 w 0) ∧
    (fits 32 → exec (.amofadd f) s = res 8 32 0) ∧
    (fits (8 * 2 ^ f.size.toNat) → exec (.amotadd f) s = res 9 (8 * 2 ^ f.size.toNat) f.es.toNat) ∧
    (∀ h, s.trapsAt h →
      ∀ p ∈ [(Instr.amoadd f, w / 8), (.amoand f, w / 8), (.amoor f, w / 8), (.amoxor f, w / 8), (.amomin f, w / 8), (.amomax f, w / 8),
        (.amominu f, w / 8), (.amomaxu f, w / 8), (.amoswap f, w / 8), (.amocas f, w / 8), (.amofadd f, 4), (.amotadd f, 2 ^ f.size.toNat)],
        (0x60000 < o + p.2 → exec p.1 s = .next ((s.withLost (s.tile.scalarLost f.srcB)).trapped 0x05 o)) ∧
        (o + p.2 ≤ 0x60000 → o % p.2 ≠ 0 → exec p.1 s = .next ((s.withLost (s.tile.scalarLost f.srcB)).trapped 0x06 o)))) ∧
  (∀ (s : State) (x : Amo) (r : Flight), s.tile.ecc = [] → s.tile.spad.wf = true → s.tile.flights = [r] → r.id = x.flight → r.payload = .unread →
    let n := x.alu.bits / 8
    let old := s.tile.spad.nat x.addr n
    let t := s.runAmo x
    t.tile.spad.nat x.addr n = aluResult x.alu old % 256 ^ n ∧ (∀ k, k < x.addr ∨ x.addr + n ≤ k → t.tile.spad.read k = s.tile.spad.read k) ∧
      t.tile.flights = [{ r with payload := .word (.ofNat 64 old) }] ∧ t.tile.regs = s.tile.regs ∧ t.cycle = s.cycle ∧
      let w := x.alu.bits
      let v := x.alu.value % 2 ^ w
      let so := (BitVec.ofNat w old).toInt
      let sv := (BitVec.ofNat w v).toInt
      let new := aluResult x.alu old
      0 < w →
      (x.alu.op = 0 → new = (old + v) % 2 ^ w) ∧ (x.alu.op = 1 → new = old &&& v) ∧ (x.alu.op = 2 → new = old ||| v) ∧
      (x.alu.op = 3 → new = old ^^^ v) ∧
      (w % 8 = 0 → (x.alu.op = 4 → (new = old ∨ new = v) ∧ (BitVec.ofNat w new).toInt = min so sv) ∧
        (x.alu.op = 5 → (new = old ∨ new = v) ∧ (BitVec.ofNat w new).toInt = max so sv)) ∧
      (x.alu.op = 6 → new = min old v) ∧ (x.alu.op = 7 → new = max old v) ∧
      (x.alu.op = 8 → new = ((vadd (fp32.xval old).1 (fp32.xval v).1).deliver true fp32 none).1) ∧
      (x.alu.op = 9 → new = ((Fmt.tap w x.alu.es).rnd (vadd (tdecode old w x.alu.es) (tdecode v w x.alu.es)).val none).1) ∧
      (x.alu.op = 10 → new = v) ∧ (x.alu.op = 11 → new = if old = x.alu.cmp % 2 ^ w then v else old))

/-- Remote writes and remote atomics enter the write queue (R165, R166, R167, R169). With a legal place, an aligned offset and room in the write queue, RPUT, RPUTV and RAMO enter one operation with their bytes or their atomic, their semaphore, their channel and their delivery cycle; of each of the three a bad place is PLACE_FAULT, an offset that is not aligned MISALIGNED_ACCESS and a full queue QUEUE_FULL; RAMO's tapered add traps with ILLEGAL_OPERAND unless DFMT names T32. -/
def Obligations.RemoteOperations : Prop :=
  ∀ (s : State) (f : Remote) (q : PlaceAt) (o : Nat),
    let w := s.tile.sreg f.place.toNat
    let x := (s.tile.sreg f.data.toNat).toNat
    let op := f.mid.toNat / 16
    let bits := if f.mid.getLsbD 3 then 64 else 32
    let room := s.tile.io.writes.length < 32
    let res := fun (kind : RemoteKind) (sem : Option Nat) =>
      let t := s.withWrite fun id => .remote
        { id := id, src := s.cur, destModule := q.module, dest := q.tile, offset := o, kind := kind, sem := sem, cls := f.chan.toNat,
          deliver := if f.timed then some (s.tile.sreg (f.place.toNat + 1)).toNat else none }
      (Host.Outcome.next (t.withIo { t.tile.io with remotes := t.tile.io.remotes ++ [s.tile.nextId] }) : Out)
    let mid := if f.sig then some f.mid.toNat else none
    (s.place w 8 false = some (q, o) → o % 8 = 0 → room → exec (.rput f) s = res (.put (natBytes x 8)) mid) ∧
    (s.place w 256 false = some (q, o) → o % 16 = 0 → room → exec (.rputv f) s = res (.put (natBytes (s.tile.vreg f.data.toNat).toNat 256)) mid) ∧
    (s.place w (bits / 8) f.sig = some (q, o) → o % (bits / 8) = 0 → room → op ≠ 9 →
      exec (.ramo f) s = res (.atomic { op := op, bits := bits, es := 0, value := x, cmp := 0 }) (if f.sig then some (bitsOf w.toNat 48 8) else none)) ∧
    (∀ es, s.place w (bits / 8) f.sig = some (q, o) → o % (bits / 8) = 0 → room → op = 9 → s.tile.dFmt = some (.tap 32 es) →
      exec (.ramo f) s = res (.atomic { op := 9, bits := bits, es := es, value := x, cmp := 0 }) (if f.sig then some (bitsOf w.toNat 48 8) else none)) ∧
    (∀ h, s.trapsAt h → op = 9 → (∀ es, s.tile.dFmt ≠ some (.tap 32 es)) → exec (.ramo f) s = .next (s.trapped 0x02 0)) ∧
    ∀ h, s.trapsAt h → ∀ i ∈ [(Instr.rput f, 8, 8, false), (.rputv f, 256, 16, false), (.ramo f, bits / 8, bits / 8, f.sig)],
      (i.1 = .ramo f → op = 9 → ∃ es, s.tile.dFmt = some (.tap 32 es)) →
        (s.place w i.2.1 i.2.2.2 = none → exec i.1 s = .next (s.trapped 0x0D w.toNat)) ∧
        (s.place w i.2.1 i.2.2.2 = some (q, o) → o % i.2.2.1 ≠ 0 → exec i.1 s = .next (s.trapped 0x06 o)) ∧
        (s.place w i.2.1 i.2.2.2 = some (q, o) → o % i.2.2.1 = 0 → ¬ room → exec i.1 s = .next (s.trapped 0x19 0))

/-- Semaphore instructions (R171, R172). SINC enters its increment for the next cycle; SWAIT subtracts its value when the count has reached it and waits otherwise; SEXPECT adds to the expect value and takes SEM_OVF when that leaves 24 bits; SWAITE subtracts the expect value and clears it when the count has reached it; SREAD puts expect above count in flight. -/
def Obligations.SemaphoreInstructions : Prop :=
  ∀ (s : State) (f : Sync),
    let k := (s.tile.scalar f.srcA).toNat % 2 ^ 32
    let n := f.obj.toNat
    let x := rd s.tile.sems n
    let t := s.withLost (s.tile.scalarLost f.srcA)
    exec (.sinc f) s = .next (t.withIo { s.tile.io with sincs := s.tile.io.sincs ++ [(s.cycle + s.unit, n, k)] }) ∧
    exec (.swait f) s = .next (if k ≤ x.count.toNat then t.withSem n { x with count := .ofNat 32 (x.count.toNat - k) } else t.withWait (.sem n k)) ∧
    (x.expect.toNat + k < 2 ^ 24 → exec (.sexpect f) s = .next (t.withSem n { x with expect := .ofNat 24 (x.expect.toNat + k) })) ∧
    (∀ h, s.trapsAt h → 2 ^ 24 ≤ x.expect.toNat + k → exec (.sexpect f) s = .next (s.trapped 0x0C 0)) ∧
    exec (.swaite f) s = .next (if x.expect.toNat ≤ x.count.toNat then s.withSem n { count := .ofNat 32 (x.count.toNat - x.expect.toNat), expect := 0 }
      else s.withWait (.semExpect n)) ∧
    exec (.sread f) s = .next (s.withResult 1 (.s f.dst.toNat s.tile.ctl.handler) (.word (.ofNat 64 (x.count.toNat + 2 ^ 32 * x.expect.toNat))) 0 false
      (some .b2))

/-- Barrier arrivals, barrier waits and fences, with the clamp of SYSTEM scope (R173, R174, R176, R177, R228). With no pending phase and room in the write queue, BARARR and MBAR enter an arrival that waits for the local and, for MBAR, the matrix writes, and record the local phase as pending; BARWAIT passes when the phase is not pending or has advanced; FENCE enters a marker in each queue that its paths name and FENCEMARK in both; an arrival at a pending phase is ILLEGAL_OPERAND, and any of the four that finds a queue full QUEUE_FULL. FENCE with SYSTEM scope in a tile without hypervisor privilege takes SCOPE_CLAMP when the policy of its context is strict; otherwise it acts with PARTITION scope, counts in CLAMPCOUNT and sets SCOPECLAMP one cycle later; with hypervisor privilege it is never clamped. That the check of a pending phase comes before the check for room is the model's reading (log 29, DEDUCED). That the clamp is checked whatever room the queues have is the model's reading (log 29, DEDUCED). -/
def Obligations.ArrivalsAndFences : Prop :=
  (∀ (s : State) (f : Sync) (g : Beat),
    let b := f.obj.toNat
    let room := s.tile.io.writes.length < 32
    let arrival := fun (bar : Nat) (mx : Bool) =>
      let t := s.withWrite fun id => .arrive id bar s.cycle mx
      (Host.Outcome.next (t.withIo { t.tile.io with
        pending := wr s.tile.io.pending bar (some (rd s.tile.io.lphase bar))
        remotes := if mx then s.tile.io.remotes else s.tile.io.remotes ++ [s.tile.nextId] }) : Out)
    let paths := f.obj.setWidth 6
    (rd s.tile.io.pending b = none → room → exec (.bararr f) s = arrival b false) ∧
    (rd s.tile.io.pending g.flags.toNat = none → room → exec (.mbar g) s = arrival g.flags.toNat true) ∧
    (∀ h, s.trapsAt h → ∀ i ∈ [(Instr.bararr f, b), (.mbar g, g.flags.toNat)],
      (∀ p, rd s.tile.io.pending i.2 = some p → exec i.1 s = .next (s.trapped 0x02 0)) ∧
      (rd s.tile.io.pending i.2 = none → ¬ room → exec i.1 s = .next (s.trapped 0x19 0))) ∧
    (rd s.tile.io.pending b = none → exec (.barwait f) s = .next s) ∧
    (∀ p, rd s.tile.io.pending b = some p → rd s.tile.io.lphase b ≠ p →
      exec (.barwait f) s = .next (s.withIo { s.tile.io with pending := wr s.tile.io.pending b none })) ∧
    (∀ p, rd s.tile.io.pending b = some p → rd s.tile.io.lphase b = p → exec (.barwait f) s = .next (s.withWait (.barrier b))) ∧
    ((f.scope = 4 → s.tile.place.hvpriv = true) → s.fenceRoom paths → exec (.fence f) s = .next (s.withFence paths f.scope.toNat)) ∧
    (∀ h, s.trapsAt h → ¬ s.fenceRoom paths → (f.scope = 4 → s.tile.place.hvpriv = true) → exec (.fence f) s = .next (s.trapped 0x19 0)) ∧
    (∀ h, s.trapsAt h → ¬ (room ∧ s.tile.io.requests.length < 16) → exec (.fencemark f) s = .next (s.trapped 0x19 0)) ∧
    (room → s.tile.io.requests.length < 16 → exec (.fencemark f) s = .next { s with tile := { s.tile with
      nextId := s.tile.nextId + 1
      io := { s.tile.io with
        writes := s.tile.io.writes ++ [{ ready := s.cycle + 2, kind := .mark s.tile.nextId }]
        requests := s.tile.io.requests ++ [{ ready := s.cycle + 2, kind := .mark s.tile.nextId, parked := false }] } } })) ∧
  (∀ (s : State) (f : Sync), f.scope = 4 →
    let strict := s.effPolicy (s.ctxPath s.tile.place.ctx)
    let paths := f.obj.setWidth 6
    (s.tile.place.hvpriv = true → s.fenceRoom paths → exec (.fence f) s = .next (s.withFence paths 4)) ∧
    (∀ h, s.tile.place.hvpriv = false → s.trapsAt h → strict = 1 → exec (.fence f) s = .next (s.trapped 0x0E 0)) ∧
    (s.tile.place.hvpriv = false → strict ≠ 1 → s.fenceRoom paths → exec (.fence f) s =
      let n := s.tile.csr.clamp.toNat + 1
      let t := s.withFence paths 3
      let u := { t with tile := { t.tile with csr := { t.tile.csr with clamp := if n < 2 ^ 32 then .ofNat 32 n else BitVec.allOnes 32 } } }
      .next (u.withResult 1 .tstat (.word 0) Flag.SCOPECLAMP false none)))

/-- Gate instructions (R178, R179). At a shadow that grants the right, GPOST takes one token and enters a post, GWAIT passes when the published sequence has reached its target and waits otherwise, GTRY answers whether it has and GREAD the sequence; a revoked gate answers 2 and all ones, a GWAIT there takes GATE_DENIED with a frame that re-enters the wait; a gate that is unknown or without the right is GATE_DENIED, and so is a TARGET that is not zero in GPOST or GREAD; one without a token is GATE_RATE, and a full request queue QUEUE_FULL. That GPOST on a REVOKED shadow passes its checks (log 19) and that the checks of the gate come before the check for room (log 29) are the model's readings (DEDUCED). -/
def Obligations.GateInstructions : Prop :=
  ∀ (s : State) (f : Sync) (y : Shadow),
    let w := (s.tile.scalar f.srcA).toNat
    let id := w % 2 ^ 32
    let t := s.withLost (s.tile.scalarLost f.srcA)
    let known := id < 2 ^ 21 ∧ s.globals.present.contains (id / 2 ^ 12) = true ∧ s.shadow id (massifOf s.cur) = some y
    let right := y.rightsOf s.tile.place.ctx
    let ls := fun (v : W64) => (Host.Outcome.next (t.withResult 1 (.s f.dst.toNat s.tile.ctl.handler) (.word v) 0 false (some .b2)) : Out)
    let reached := decide ((y.seq.toNat % 2 ^ 32 + 2 ^ 32 - w / 2 ^ 32) % 2 ^ 32 < 2 ^ 31)
    (known → w < 2 ^ 32 → right.1 = true → y.state ≠ .closed → y.tokens ≠ some 0 → s.tile.io.requests.length < 16 →
      ∃ u, exec (.gpost f) s = .next u ∧ u.tile.io.posts = s.tile.io.posts ++ [s.tile.nextId] ∧ u.tile.regs = s.tile.regs ∧ u.tile.spad = s.tile.spad ∧
        u.tile.io.requests = s.tile.io.requests ++
          [{ ready := s.cycle + 2, kind := .post s.tile.nextId id s.cycle, parked := false }] ∧
        u.shadows = s.shadows.map fun z => if z.gate = y.gate ∧ z.massif = y.massif then { y with tokens := y.tokens.map (· - 1) } else z) ∧
    (known → right.2 = true → y.state ≠ .revoked →
      exec (.gwait f) s = .next (if reached then t else t.withWait (.gate (s.tile.scalar f.srcA))) ∧
      exec (.gtry f) s = ls (if reached then 1 else 0) ∧ (w < 2 ^ 32 → exec (.gread f) s = ls y.seq)) ∧
    (known → right.2 = true → y.state = .revoked → exec (.gtry f) s = ls 2 ∧ (w < 2 ^ 32 → exec (.gread f) s = ls (BitVec.allOnes 64))) ∧
    (∀ h, s.trapsAt h → known →
      (w < 2 ^ 32 → right.1 = false ∨ y.state = .closed → exec (.gpost f) s = .next (t.trapped 0x0F id)) ∧
      (w < 2 ^ 32 → right.1 = true → y.state ≠ .closed → y.tokens = some 0 → exec (.gpost f) s = .next (t.trapped 0x10 id)) ∧
      (right.2 = false → exec (.gwait f) s = .next (t.trapped 0x0F id) ∧ exec (.gtry f) s = .next (t.trapped 0x0F id) ∧
        (w < 2 ^ 32 → exec (.gread f) s = .next (t.trapped 0x0F id)))) ∧
    (∀ h, s.trapsAt h → known → right.2 = true → y.state = .revoked →
      let i := { t.report 0x0F id with rewait := [.gate (s.tile.scalar f.srcA)] }
      exec (.gwait f) s = .next ({ t with lastTrap := some i }.enterTrap i)) ∧
    (∀ h, s.trapsAt h → 2 ^ 32 ≤ w → exec (.gpost f) s = .next (t.trapped 0x0F id) ∧ exec (.gread f) s = .next (t.trapped 0x0F id)) ∧
    (∀ h, s.trapsAt h → known → w < 2 ^ 32 → right.1 = true → y.state ≠ .closed → y.tokens ≠ some 0 → 16 ≤ s.tile.io.requests.length →
      exec (.gpost f) s = .next (t.trapped 0x19 0)) ∧
    (∀ h, s.trapsAt h → 2 ^ 21 ≤ id ∨ s.globals.present.contains (id / 2 ^ 12) = false ∨ s.shadow id (massifOf s.cur) = none →
      ∀ i ∈ [Instr.gpost f, .gwait f, .gtry f, .gread f], exec i s = .next (t.trapped 0x0F id))

/-- A vector result holds its elements (spec/07_vector.md R181, spec/07_vector.md R182, spec/06_memory_sync_ops.md R152). A vector result of width w has 2,048/w elements: what an instruction puts in flight holds the result of each active element in that element and zero elsewhere, its flags are those of the active elements, and at landing an inactive element keeps the bytes of the destination. -/
def Obligations.ElementResults : Prop :=
  (∀ (w n : Nat) (act : Nat → Bool) (f : Nat → Nat × Flags), 0 < w → w * n = 2048 → ∀ e, e < n →
    elem (mapElems w act f).1 w e = (if act e then (f e).1 % 2 ^ w else 0) ∧
      ∀ i : Nat, i < 11 → ((mapElems w act f).2.getLsbD i = true ↔ ∃ k, k < n ∧ act k = true ∧ (f k).2.getLsbD i = true)) ∧
  ∀ (p : PReg) (x y : VReg) (i : Nat), i < 2048 → (merge p x y).getLsbD i = if p.getLsbD (i / 8) then x.getLsbD i else y.getLsbD i

/-- Element-wise vector arithmetic (R180, R182, R185, R186). With formats of one width and a rounding in force, VADD, VSUB, VMUL, VFMA, VFMS, VFNMA, VDIV, VMIN, VMAX, VABS and VNEG deliver in every active element the exact result rounded once to DFMT, with the flags of operands and roundings, two cycles later when every format is an integer format where the table says so, four otherwise, and sixteen for VDIV. That NV is set for zero times infinity whose third operand is a quiet NaN is the model's choice (log 101, DESIGN CHOICE). -/
def Obligations.VectorArithmetic : Prop :=
  ∀ (s : State) (f : RG) (w : Nat) (fa fb fd : Fmt) (r : Rounding), s.tile.aFmt = some fa → s.tile.bFmt = some fb → s.tile.dFmt = some fd →
    8 ≤ w → fa.width = w → fb.width = w → fd.width = w → s.tile.rounding fd = some r →
    let m := s.tile.preg f.pred.toNat
    let tid := match r with
      | .nearest => false
      | .stochastic _ _ => s.tile.scalarLost s.tile.tids
    let dst := Dest.v (s.tile.phys f.dst.toNat)
    let a := fun e => fa.xval (elem (s.tile.vector f.srcA w) w e)
    let b := fun e => fb.xval (elem (s.tile.vector f.srcB w) w e)
    let d := fun e => fd.xval (elem (s.tile.vreg f.dst.toNat) w e)
    let two := s.tile.vectorLost f.srcA || s.tile.vectorLost f.srcB
    let res := fun (lost : Bool) (l : Nat) (x : Nat → Nat × Flags) =>
      let v := mapElems w (activeEl m w) x
      (Host.Outcome.next (((s.withLost lost).withLost tid).withResult l dst (.lanes (elemLanes m w) v.1) v.2 f.nwb (some .vb0)) : Out)
    let round := fun (ieee : Bool) (e : Nat) (fl : Flags) (x : OpRes) =>
      let u := x.deliver ieee fd (r.word e)
      (u.1, fl ||| u.2)
    let i2 := fa.isIeee || fb.isIeee
    let l2 := if fa.isInt && fb.isInt && fd.isInt then 2 else 4
    let l1 := if fa.isInt && fd.isInt then 2 else 4
    let bin := fun (l : Nat) (op : Val → Val → OpRes) => res two l fun e => round i2 e ((a e).2 ||| (b e).2) (op (a e).1 (b e).1)
    let tern := fun (op : Val → Val → Val → OpRes) =>
      res two 4 fun e => round (i2 || fd.isIeee) e ((a e).2 ||| (b e).2 ||| (d e).2)
        (if !fd.isIeee && (d e).1.isNan then .ofVal .nan else op (a e).1 (b e).1 (d e).1)
    let un := fun (op : Val → Val) => res (s.tile.vectorLost f.srcA) l1 fun e => round fa.isIeee e (a e).2 (.ofVal (op (a e).1))
    exec (.vadd f) s = bin l2 vadd ∧ exec (.vsub f) s = bin l2 (fun x y => vadd x y.neg) ∧ exec (.vmul f) s = bin l2 vmul ∧
    exec (.vfma f) s = tern vfma ∧ exec (.vfms f) s = tern (fun x y z => vfma x y z.neg) ∧ exec (.vfnma f) s = tern (fun x y z => vfma x.neg y z) ∧
    exec (.vdiv f) s = bin 16 (vdiv i2) ∧ exec (.vmin f) s = bin l2 (fun x y => .ofVal (vminmax false fa.isTap fb.isTap x y)) ∧
    exec (.vmax f) s = bin l2 (fun x y => .ofVal (vminmax true fa.isTap fb.isTap x y)) ∧
    exec (.vabs f) s = un Val.abs ∧ exec (.vneg f) s = un Val.neg

/-- Vector formats that do not fit are ILLEGAL_OPERAND (R37, R180, R189, R191, R194, R198, R202, R207). An element-wise instruction, a compare, VPIV or a special function whose formats have no common element width takes ILLEGAL_OPERAND and delivers nothing, and so do VQDOT with operands of two widths and the shifts, VIOTA and VQRND with a 4-bit or reserved DFMT; the instructions among them that round take it for a rounding that R37 reserves. The rounding clause covers a reserved RMODE, whatever the result format, and a reserved TIDS under SR; that a reserved RMODE is illegal for an integer DFMT too is the model's reading (log 15, DEDUCED). -/
def Obligations.VectorFormatsIllegal : Prop :=
  ∀ (s : State) (f : RG) (h : Nat), s.trapsAt h →
    (commonWidth [s.tile.aFmt, s.tile.bFmt, s.tile.dFmt] = none →
      ∀ i ∈ [Instr.vadd f, .vsub f, .vmul f, .vfma f, .vfms f, .vfnma f, .vdiv f, .vmin f, .vmax f, .vpiv f], exec i s = .next (s.trapped 0x02 0)) ∧
    (commonWidth [s.tile.aFmt, s.tile.dFmt] = none →
      ∀ i ∈ [Instr.vabs f, .vneg f, .vrecip f, .vrsqrt f, .vsqrt f, .vexp2 f, .vlog2 f, .vtanh f, .vsigm f], exec i s = .next (s.trapped 0x02 0)) ∧
    (commonWidth [s.tile.aFmt, s.tile.bFmt] = none →
      ∀ i ∈ [Instr.vcmpeq f, .vcmplt f, .vcmple f, .vqdot f], exec i s = .next (s.trapped 0x02 0)) ∧
    (commonWidth [s.tile.dFmt] = none → ∀ i ∈ [Instr.vshl f, .vshr f, .vsra f, .viota f, .vqrnd f], exec i s = .next (s.trapped 0x02 0)) ∧
    (∀ (fd : Fmt), s.tile.dFmt = some fd → s.tile.rounding fd = none →
      (commonWidth [s.tile.aFmt, s.tile.bFmt, some fd] ≠ none →
        ∀ i ∈ [Instr.vadd f, .vsub f, .vmul f, .vfma f, .vfms f, .vfnma f, .vdiv f, .vmin f, .vmax f, .vpiv f], exec i s = .next (s.trapped 0x02 0)) ∧
      (commonWidth [s.tile.aFmt, some fd] ≠ none →
        ∀ i ∈ [Instr.vabs f, .vneg f, .vrecip f, .vrsqrt f, .vsqrt f, .vexp2 f, .vlog2 f, .vtanh f, .vsigm f], exec i s = .next (s.trapped 0x02 0)) ∧
      (8 ≤ fd.width → ∀ i ∈ [Instr.viota f, .vqrnd f], exec i s = .next (s.trapped 0x02 0)))

/-- Vector compares, selection, logic, shifts, format writes and pivots (R184, R187, R188, R189, R198). VSETF writes the selected fields of VFMT one cycle later; VSEL takes the bytes of its first operand where the selector is set; VAND, VOR and VXOR act on raw bits; the shifts fill or saturate beyond the width; the compares deliver a predicate whose active lanes say whether the relation holds; VPIV delivers in each element the pivot rounded and a clear flag, or a set flag with NaR or NaN for a pivot that is no number, or with the regulariser's magnitude under the pivot's sign for one below the threshold. That VSETF's result reaches the slot's latch (log 82) and that it has no destination for NWB to suppress (log 113) and the flags and order of VPIV (log 20) are the model's readings. -/
def Obligations.VectorLogicAndCompare : Prop :=
  ∀ (s : State) (f : RG),
    let m := s.tile.preg f.pred.toNat
    let dst := Dest.v (s.tile.phys f.dst.toNat)
    let two := s.withLost (s.tile.vectorLost f.srcA || s.tile.vectorLost f.srcB)
    let res := fun (p : PReg) (v : VReg) => (Host.Outcome.next (two.withResult 2 dst (.lanes p v) 0 f.nwb (some .vb0)) : Out)
    (s.tile.predOn f.pred = true → exec (.vsetf f) s = .next ((s.withLost (s.tile.scalarLost f.srcA)).withResult 1 (.vfmt (vsetfMask f.srcB.toNat))
      (.word (s.tile.scalar f.srcA)) 0 false (some .vb0))) ∧
    (∀ a b, s.tile.vecRaw f.srcA s.tile.aFmt = some a → s.tile.vecRaw f.srcB s.tile.bFmt = some b →
      exec (.vsel f) s = res (BitVec.allOnes 256) (merge m a b) ∧ exec (.vand f) s = res m (a &&& b) ∧ exec (.vor f) s = res m (a ||| b) ∧
      exec (.vxor f) s = res m (a ^^^ b) ∧
      ∀ fd : Fmt, s.tile.dFmt = some fd → 8 ≤ fd.width →
        let w := fd.width
        let sh := fun (op : Nat → Nat → Nat) => res (elemLanes m w) (mapElems w (activeEl m w) fun e => (op (elem a w e) (elem b w e), 0)).1
        exec (.vshl f) s = sh (fun x n => if n < w then x * 2 ^ n % 2 ^ w else 0) ∧ exec (.vshr f) s = sh (fun x n => if n < w then x / 2 ^ n else 0) ∧
        exec (.vsra f) s = sh (fun x n => intWord (signedOf x w / (2 ^ min n w : Nat)) w)) ∧
    (∀ (fa fb : Fmt) (w : Nat), s.tile.aFmt = some fa → s.tile.bFmt = some fb → 8 ≤ w → fa.width = w → fb.width = w →
      let a := fun e => fa.xval (elem (s.tile.vector f.srcA w) w e)
      let b := fun e => fb.xval (elem (s.tile.vector f.srcB w) w e)
      let ieee := fa.isIeee || fb.isIeee
      let fl := fun (ordered : Bool) => (mapElems w (activeEl m w) fun e =>
        (0, (a e).2 ||| (b e).2 ||| (if ieee && ordered && ((a e).1.isNan || (b e).1.isNan) then Flag.NV else 0))).2
      let cmp := fun (eq lt : Bool) (ordered : Bool) => (Host.Outcome.next (two.withResult 2 (.p f.dst.toNat)
        (.bits (elemLanes m w) (lanesWhere w fun e => activeEl m w e && relation ieee eq lt (a e).1 (b e).1)) (fl ordered) f.nwb (some .vb0)) : Out)
      exec (.vcmpeq f) s = cmp true false false ∧ exec (.vcmplt f) s = cmp false true true ∧ exec (.vcmple f) s = cmp true true true) ∧
    (∀ (fa fb fd : Fmt) (w : Nat) (r : Rounding), s.tile.aFmt = some fa → s.tile.bFmt = some fb → s.tile.dFmt = some fd → 8 ≤ w → fa.width = w →
      fb.width = w → fd.width = w → s.tile.rounding fd = some r →
      let one := fun e => pivot fa fb fd (r.word e) (elem (s.tile.vector f.srcA w) w e) (elem (s.tile.vector f.srcB w) w e)
        (elem (s.tile.vreg f.dst.toNat) w e)
      let v := mapElems w (fun _ => true) fun e => ((one e).2.1, (one e).2.2)
      let tid := match r with
        | .nearest => false
        | .stochastic _ _ => s.tile.scalarLost s.tile.tids
      exec (.vpiv f) s = .next (((two.withLost tid).withResult 4 dst (.lanes (BitVec.allOnes 256) v.1) v.2 f.nwb (some .vb0)).withResult 4
        (.p f.pred.toNat) (.bits (BitVec.allOnes 256) (lanesWhere w fun e => (one e).1)) 0 false none)) ∧
    ∀ (fa fb fd : Fmt) (z : Option Nat) (a b d : Nat),
      let x := fa.xval a
      let y := fb.xval b
      let r := fd.xval d
      let p := pivot fa fb fd z a b d
      (x.1.isNan = true → p = (true, (fd.rnd .nan none).1, x.2 ||| y.2 ||| (fd.rnd .nan none).2)) ∧
      (x.1.isNan = false → y.1.isNan = false → x.1.abs.lt y.1 = true →
        let w := fd.rnd (if x.1.isNeg then r.1.abs.neg else r.1.abs) z
        p = (true, w.1, x.2 ||| y.2 ||| r.2 ||| w.2)) ∧
      (x.1.isNan = false → y.1.isNan = true ∨ x.1.abs.lt y.1 = false → p = (false, (fd.rnd x.1 z).1, x.2 ||| y.2 ||| (fd.rnd x.1 z).2))

/-- Quire instructions (R190, R191, R192, R193, R194). VQDOT and VQACC put the exact sum of the active products or elements in flight as a contribution to a quire, VQADD and VQSUB the value of a quire or its negative, VQSCALE a quire times a power of two, VQCLR zero, VQMOV bits between quires and vector registers, and VQRND a quire rounded once into every active element. That VQRND raises the flags of its rounding under a mask without an active element too is the model's reading (log 25, DEDUCED). -/
def Obligations.QuireInstructions : Prop :=
  ∀ (s : State) (f : RG),
    let q := rd s.tile.regs.q (f.srcA.toNat % 8)
    let m := s.tile.preg f.pred.toNat
    let put := fun (t : State) (l : Nat) (p : Payload) (fl : Flags) => (Host.Outcome.next (t.withResult l (.q f.dst.toNat) p fl f.nwb (some .vb0)) : Out)
    let dst := Dest.v (s.tile.phys f.dst.toNat)
    (∀ (fa fb : Fmt) (w : Nat), s.tile.aFmt = some fa → s.tile.bFmt = some fb → 8 ≤ w → fa.width = w → fb.width = w →
      let a := fun e => fa.xval (elem (s.tile.vector f.srcA w) w e)
      let b := fun e => fb.xval (elem (s.tile.vector f.srcB w) w e)
      let dot := sumTerms (activeEl m w) (fun e => ((quireProduct (a e).1 (b e).1).1, (a e).2 ||| (b e).2 ||| (quireProduct (a e).1 (b e).1).2)) (2048 / w)
      exec (.vqdot f) s = put (s.withLost (s.tile.vectorLost f.srcA || s.tile.vectorLost f.srcB)) 8 (.quireAdd dot.1) dot.2) ∧
    (∀ (fa : Fmt) (w : Nat), s.tile.aFmt = some fa → 8 ≤ w → fa.width = w →
      let a := fun e => fa.xval (elem (s.tile.vector f.srcA w) w e)
      let sum := sumTerms (activeEl m w) (fun e => ((quireTerm (a e).1).1, (a e).2 ||| (quireTerm (a e).1).2)) (2048 / w)
      exec (.vqacc f) s = put (s.withLost (s.tile.vectorLost f.srcA)) 8 (.quireAdd sum.1) sum.2) ∧
    (s.tile.predOn f.pred = true →
      exec (.vqadd f) s = put s 4 (.quireAdd (quireInt 1024 q.toNat)) 0 ∧
      exec (.vqsub f) s = put s 4 (.quireAdd ((quireInt 1024 q.toNat).map fun x => -x)) 0 ∧
      exec (.vqclr f) s = put s 2 (.quire 0) 0 ∧ exec (.vqmovQq f) s = put s 2 (.quire q) 0 ∧
      exec (.vqmovVq f) s = .next (s.withResult 2 dst (.lanes (BitVec.allOnes 256) (q.setWidth 2048)) 0 f.nwb (some .vb0)) ∧
      (∀ a, s.tile.vecRaw f.srcA s.tile.aFmt = some a →
        exec (.vqmovQv f) s = put (s.withLost (s.tile.vectorLost f.srcA)) 2 (.quire (a.setWidth 1024)) 0) ∧
      (let k := signedOf ((s.tile.scalar f.srcB).toNat % 2 ^ 16) 16
       (-1023 ≤ k → k ≤ 1023 → exec (.vqscale f) s =
          put (s.withLost (s.tile.scalarLost f.srcB)) 4 (.quire (scaleQuire q k).1) (scaleQuire q k).2) ∧
        ∀ h, s.trapsAt h → k < -1023 ∨ 1023 < k → exec (.vqscale f) s = .next (s.trapped 0x02 0))) ∧
    (∀ (fd : Fmt) (r : Rounding) (z : Val), s.tile.dFmt = some fd → 8 ≤ fd.width → s.tile.rounding fd = some r → s.tile.quireScale f.srcB = some z →
      let u := qround 1024 (quireInt 1024 q.toNat) z fd (r.word 0)
      let tid := match r with
        | .nearest => false
        | .stochastic _ _ => s.tile.scalarLost s.tile.tids
      exec (.vqrnd f) s = .next (((s.withLost (f.srcB != 0 && s.tile.scalarLost f.srcB)).withLost tid).withResult 5 dst
        (.lanes (elemLanes m fd.width) (repeated fd.width u.1)) u.2 f.nwb (some .vb0)))

/-- Lane-quire instructions (R148, R195, R196, R197, R227). Outside a handler, or in one that owns the matrix state, VLQMAC and VLQADD put the raw operands with their inactive elements zero in flight for the plane, four cycles later, VLQCLR clears the plane two cycles later, and VLQRND rounds each active lane and clears it when asked; formats of two widths, a 4-bit format and a view wider than the lane take ILLEGAL_OPERAND; in a handler without ownership of the matrix state the first three take MX_OWNED whatever their predicate holds, and VLQCLR with its predicate on: the tile ends with DOUBLE_TRAP and MX_OWNED in SCAUSE. That VLQADD runs with a view wider than the lane, and that NWB suppresses the change of the plane, are the model's readings (log 24). -/
def Obligations.LaneQuires : Prop :=
  ∀ (s : State) (f : RG),
    let m := s.tile.preg f.pred.toNat
    let p := f.dst.getLsbD 0
    let c := s.tile.csr.vfmt.toNat
    let tid := fun (r : Rounding) => match r with
      | .nearest => false
      | .stochastic _ _ => s.tile.scalarLost s.tile.tids
    let u := { s with tile := { s.tile with mx := if s.tile.ctl.handler then { s.tile.mx with restored := [] } else s.tile.mx } }
    (s.tile.ctl.handler = false ∨ s.tile.mx.owned = true →
      (∀ (fa fb : Fmt) (w : Nat), s.tile.aFmt = some fa → s.tile.bFmt = some fb → 8 ≤ w → fa.width = w → fb.width = w →
        fa.view ≤ laneView w → fb.view ≤ laneView w →
        exec (.vlqmac f) s = .next ((u.withLost (s.tile.vectorLost f.srcA || s.tile.vectorLost f.srcB)).withResult 4 (.acc p)
          (.laneAdd true (c % 32) (c / 32 % 32) (merge (elemLanes m w) (s.tile.vector f.srcA w) 0) (merge (elemLanes m w) (s.tile.vector f.srcB w) 0))
          0 f.nwb none)) ∧
      (∀ (fa : Fmt) (w : Nat), s.tile.aFmt = some fa → 8 ≤ w → fa.width = w →
        exec (.vlqadd f) s = .next ((u.withLost (s.tile.vectorLost f.srcA)).withResult 4 (.acc p)
          (.laneAdd false (c % 32) (c / 32 % 32) (merge (elemLanes m w) (s.tile.vector f.srcA w) 0) 0) 0 f.nwb none)) ∧
      (s.tile.predOn f.pred = true → exec (.vlqclr f) s = .next (u.withResult 2 (.acc p) (.word 0) 0 f.nwb none)) ∧
      (∀ (fd : Fmt) (r : Rounding) (z : Val), s.tile.dFmt = some fd → 8 ≤ fd.width → s.tile.rounding fd = some r → s.tile.quireScale f.srcB = some z →
        let w := fd.width
        let acc := if f.srcA.getLsbD 0 then s.tile.mx.acc1 else s.tile.mx.acc0
        let v := mapElems w (activeEl m w) fun e => qround (32 * w) (quireInt (32 * w) (slice acc.toNat (32 * w) e)) z fd (r.word e)
        let t := ((u.withLost (f.srcB != 0 && s.tile.scalarLost f.srcB)).withLost (tid r)).withResult 5 (.v (s.tile.phys f.dst.toNat)) (.lanes (elemLanes m w) v.1) v.2 f.nwb
          (some .vb0)
        (f.srcA.getLsbD 1 = false → exec (.vlqrnd f) s = .next t) ∧
        (f.srcA.getLsbD 1 = true → ∃ a0 a1, exec (.vlqrnd f) s = .next { t with tile := { t.tile with mx := { t.tile.mx with acc0 := a0, acc1 := a1 } } } ∧
          (f.srcA.getLsbD 0 = true → a0 = s.tile.mx.acc0) ∧ (f.srcA.getLsbD 0 = false → a1 = s.tile.mx.acc1) ∧
          ∀ e, e < 2048 / w → slice (if f.srcA.getLsbD 0 then a1 else a0).toNat (32 * w) e =
            if activeEl m w e then 0 else slice acc.toNat (32 * w) e))) ∧
    (∀ (h : Nat), s.trapsAt h →
      (commonWidth [s.tile.aFmt, s.tile.bFmt] = none → exec (.vlqmac f) s = .next (s.trapped 0x02 0)) ∧
      (∀ (fa fb : Fmt) (w : Nat), s.tile.aFmt = some fa → s.tile.bFmt = some fb → 8 ≤ w → fa.width = w → fb.width = w →
        laneView w < fa.view ∨ laneView w < fb.view → exec (.vlqmac f) s = .next (s.trapped 0x02 0)) ∧
      (commonWidth [s.tile.aFmt] = none → exec (.vlqadd f) s = .next (s.trapped 0x02 0)) ∧
      (commonWidth [s.tile.dFmt] = none → exec (.vlqrnd f) s = .next (s.trapped 0x02 0))) ∧
    (s.tile.ctl.handler = true → s.tile.mx.owned = false →
      (∀ i ∈ [Instr.vlqmac f, .vlqadd f, .vlqrnd f], exec i s = .next (s.doubleTrapped 0x15)) ∧
      (s.tile.predOn f.pred = true → exec (.vlqclr f) s = .next (s.doubleTrapped 0x15)))

/-- Vector conversions and T4 blocks (R199, R200, R201). VCVT rounds every element of the part of the source once to DFMT and writes that part alone; VPACK4 writes the nibbles of its part to the destination and the shared exponents to the next register, where a block with a NaN or an infinity is NaR under E8 0xFF, a block of zeros has E8 0x7F, and any other block the clamped exponent of its greatest magnitude and nibbles rounded once at that scale; VUNPACK4 reads one part of such a pair and rounds each value to DFMT; a part outside the register takes ILLEGAL_OPERAND, and so do a reserved source code or a 4-bit DFMT of VCVT, formats of VPACK4 that are not 8 to 32 bits wide for the source and T4 for the result, those of VUNPACK4 that are not the reverse, and a reserved rounding. That a broadcast source of VCVT has the width of AFMT is the model's reading (log 90). That VUNPACK4's part is the seven bits of srcB, and takes ILLEGAL_OPERAND at execution when it lies outside the register, is the model's reading (log 21, DEDUCED). -/
def Obligations.VectorConversions : Prop :=
  ∀ (s : State) (f : RG),
    let m := s.tile.preg f.pred.toNat
    let lost := fun (r : Rounding) => match r with
      | .nearest => false
      | .stochastic _ _ => s.tile.scalarLost s.tile.tids
    let put := fun (t : State) (l : Nat) (k : PReg) (v : VReg) (fl : Flags) =>
      t.withResult l (.v (s.tile.phys f.dst.toNat)) (.lanes k v) fl f.nwb (some .vb1)
    let h := f.srcB.toNat
    let hc := h / 32
    (∀ (fs fd : Fmt) (r : Rounding), Fmt.ofCode (h % 32) = some fs → s.tile.dFmt = some fd → 8 ≤ fd.width → s.tile.rounding fd = some r →
      let ws := fs.width
      let wd := fd.width
      ∀ a, s.tile.vecRaw f.srcA s.tile.aFmt = some a →
      (hc < max ws wd / min ws wd →
        let base := if wd < ws then hc * (2048 / ws) else 0
        let src := fun e => if wd < ws then e - base else if ws < wd then e + hc * (2048 / wd) else e
        let act := fun e => decide (base ≤ e) && (!decide (wd < ws) || decide (e < base + 2048 / ws)) && activeEl m wd e
        let v := mapElems wd act fun e => ((fd.rnd (fs.xval (elem a ws (src e))).1 (r.word e)).1,
          (fs.xval (elem a ws (src e))).2 ||| (fd.rnd (fs.xval (elem a ws (src e))).1 (r.word e)).2)
        exec (.vcvt f) s = .next (put ((s.withLost (s.tile.vectorLost f.srcA)).withLost (lost r)) 3 (lanesWhere wd act) v.1 v.2)) ∧
      (∀ x, s.trapsAt x → max ws wd / min ws wd ≤ hc → exec (.vcvt f) s = .next (s.trapped 0x02 0))) ∧
    (∀ (fa : Fmt) (es w : Nat) (r : Rounding), s.tile.aFmt = some fa → 8 ≤ w → fa.width = w → s.tile.dFmt = some (.tap 4 es) →
      s.tile.rounding (.tap 4 es) = some r →
      let n := 2048 / w
      let a := s.tile.vector f.srcA w
      let val := fun e => if activeEl m w e then fa.xval (elem a w e) else (.zero, 0)
      let blocks := (List.range (n / 8)).map fun b => packBlock es ((List.range 8).map fun k => (val (8 * b + k)).1) fun k => r.word (h * n + 8 * b + k)
      let fl := (List.range n).foldl (fun x e => x ||| (val e).2) (blocks.foldl (fun x b => x ||| b.2.2) 0)
      let nib := (blocks.flatMap (·.2.1)).foldr (fun x y => x + 16 * y) 0
      let exps := (blocks.map (·.1)).foldr (fun x y => x + 256 * y) 0
      (h < 512 / n →
        exec (.vpack4 f) s = .next ((put ((s.withLost (s.tile.vectorLost f.srcA)).withLost (lost r)) 3
            (.ofNat 256 ((2 ^ (n / 2) - 1) * 2 ^ (h * n / 2))) (.ofNat 2048 (nib * 2 ^ (4 * h * n))) fl).withResult 3
          (.v (s.tile.phys (f.dst.toNat + 1))) (.lanes (.ofNat 256 ((2 ^ (n / 8) - 1) * 2 ^ (h * n / 8))) (.ofNat 2048 (exps * 2 ^ (8 * (h * n / 8)))))
          0 f.nwb none)) ∧
      (∀ x, s.trapsAt x → 512 / n ≤ h → exec (.vpack4 f) s = .next (s.trapped 0x02 0))) ∧
    (∀ (fd : Fmt) (es : Nat) (r : Rounding), s.tile.aFmt = some (.tap 4 es) → s.tile.dFmt = some fd → 8 ≤ fd.width → s.tile.rounding fd = some r →
      let w := fd.width
      let n := 2048 / w
      let u := fun e => bdecode (elem (s.tile.vreg f.srcA.toNat) 4 (h * n + e)) (elem (s.tile.vreg (f.srcA.toNat + 1)) 8 ((h * n + e) / 8)) es
      let v := mapElems w (activeEl m w) fun e => ((fd.rnd (u e).1 (r.word e)).1, (u e).2 ||| (fd.rnd (u e).1 (r.word e)).2)
      (h < 512 / n → exec (.vunpack4 f) s = .next (put (s.withLost (lost r)) 3 (elemLanes m w) v.1 v.2)) ∧
      (∀ x, s.trapsAt x → 512 / n ≤ h → exec (.vunpack4 f) s = .next (s.trapped 0x02 0))) ∧
    (∀ x, s.trapsAt x →
      (Fmt.ofCode (h % 32) = none ∨ commonWidth [s.tile.dFmt] = none → exec (.vcvt f) s = .next (s.trapped 0x02 0)) ∧
      (commonWidth [s.tile.aFmt] = none ∨ (∀ es, s.tile.dFmt ≠ some (.tap 4 es)) → exec (.vpack4 f) s = .next (s.trapped 0x02 0)) ∧
      ((∀ es, s.tile.aFmt ≠ some (.tap 4 es)) ∨ commonWidth [s.tile.dFmt] = none → exec (.vunpack4 f) s = .next (s.trapped 0x02 0)) ∧
      ∀ fd, s.tile.dFmt = some fd → s.tile.rounding fd = none →
        exec (.vcvt f) s = .next (s.trapped 0x02 0) ∧ exec (.vpack4 f) s = .next (s.trapped 0x02 0) ∧ exec (.vunpack4 f) s = .next (s.trapped 0x02 0)) ∧
    ∀ (es : Nat) (xs : List Val) (z : Nat → Option Nat),
      let rat := fun (v : Val) => (v.num : ℚ) / v.den
      ((∃ x ∈ xs, x.isNan = true ∨ x.isInf = true) →
        packBlock es xs z = (0xFF, xs.map fun _ => 8, if xs.any Val.isInf then Flag.INV else 0)) ∧
      ((∀ x ∈ xs, ∃ (s : Bool) (n d : Nat), x = .fin s n d ∧ 0 < d) →
        ∃ (e8 : Nat) (ws : List (Nat × Flags)), packBlock es xs z = (e8, ws.map (·.1), ws.foldl (fun fl w => fl ||| w.2) 0) ∧ ws.length = xs.length ∧
          ((∀ x ∈ xs, rat x = 0) → e8 = 0x7F) ∧
          (∀ (l : ℤ), (∀ x ∈ xs, |rat x| ≤ (2 : ℚ) ^ l) → (∃ x ∈ xs, (2 : ℚ) ^ (l - 1) < |rat x|) →
            (e8 : ℤ) = max 0x20 (min 0xDF (l + 127 - if es = 0 then 2 else 4))) ∧
          ∀ (i : Nat) (x : Val), xs[i]? = some x → ∃ (s : Bool) (n d : Nat), 0 < d ∧ rat (.fin s n d) = rat x * (2 : ℚ) ^ (127 - (e8 : ℤ)) ∧
            ws[i]? = some ((Fmt.tap 4 es).rnd (.fin s n d) (z i)))

/-- Vector data movement, element moves and predicate operations (R202, R203, R208). VPERM selects bytes by an index vector, VROTL and VSLIDE rotate and slide by bytes, VBCAST repeats one element, VIOTA counts from a base, VMOV copies, VEXT delivers one element to a scalar register, VINS replaces one element; PAND, POR, PXOR, PNOT and PSET deliver whole predicates. -/
def Obligations.VectorDataMovement : Prop :=
  ∀ (s : State) (f : RG),
    let m := s.tile.preg f.pred.toNat
    let lost := fun (r : Rounding) => match r with
      | .nearest => false
      | .stochastic _ _ => s.tile.scalarLost s.tile.tids
    let put := fun (t : State) (l : Nat) (k : PReg) (v : VReg) (fl : Flags) =>
      t.withResult l (.v (s.tile.phys f.dst.toNat)) (.lanes k v) fl f.nwb (some .vb1)
    let n := (s.tile.scalar f.srcB).toNat % 256
    let d := s.tile.vreg f.dst.toNat
    let ab := s.withLost (s.tile.vectorLost f.srcA || s.tile.vectorLost f.srcB)
    let a1 := s.withLost (s.tile.vectorLost f.srcA)
    let a2 := a1.withLost (s.tile.scalarLost f.srcB)
    let pred := fun (t : State) (v : PReg) => (Host.Outcome.next (t.withResult 2 (.p f.dst.toNat) (.bits (BitVec.allOnes 256) v) 0 f.nwb (some .vb1)) : Out)
    let p := s.tile.preg f.srcA.toNat
    let q := s.tile.preg f.srcB.toNat
    (∀ a, s.tile.vecRaw f.srcA s.tile.aFmt = some a →
      (∀ b, s.tile.vecRaw f.srcB s.tile.bFmt = some b → exec (.vperm f) s = .next (put ab 2 m (pack 8 fun j => byteOf a (byteOf b j)) 0)) ∧
      exec (.vrotl f) s = .next (put a2 2 m (a.rotateLeft (8 * n)) 0) ∧
      exec (.vslide f) s = .next (put a2 2 m ((a >>> (8 * n)) ||| (d <<< (2048 - 8 * n))) 0) ∧
      exec (.vmov f) s = .next (put a1 2 m a 0) ∧
      ∀ fd, s.tile.dFmt = some fd →
        let x := elem a fd.width ((s.tile.scalar f.srcB).toNat % (2048 / fd.width))
        exec (.vbcast f) s = .next (put a2 2 (if fd.width = 4 then m else elemLanes m fd.width) (repeated fd.width x) 0) ∧
        (s.tile.predOn f.pred = true → exec (.vext f) s = .next (a2.withResult 2 (.s f.dst.toNat s.tile.ctl.handler) (.word (Fmt.toScalar fd x)) 0 f.nwb
          (some .vb1)))) ∧
    (∀ fd, s.tile.dFmt = some fd → s.tile.predOn f.pred = true →
      let w := fd.width
      let e := (s.tile.scalar f.srcB).toNat % (2048 / w)
      let k := BitVec.ofNat 2048 ((2 ^ w - 1) * 2 ^ (w * e))
      exec (.vins f) s = .next (put (s.withLost (s.tile.scalarLost f.srcA || s.tile.scalarLost f.srcB)) 2 (BitVec.allOnes 256)
        ((d &&& ~~~k) ||| .ofNat 2048 ((s.tile.scalar f.srcA).toNat % 2 ^ w * 2 ^ (w * e))) 0)) ∧
    (∀ (fd : Fmt) (r : Rounding), s.tile.dFmt = some fd → 8 ≤ fd.width → s.tile.rounding fd = some r →
      let b := signedOf ((s.tile.scalar f.srcA).toNat % 2 ^ 32) 32
      let v := mapElems fd.width (activeEl m fd.width) fun e => fd.rnd (.ofInt (b + e)) (r.word e)
      exec (.viota f) s = .next (put ((s.withLost (s.tile.scalarLost f.srcA)).withLost (lost r)) 2 (elemLanes m fd.width) v.1 v.2)) ∧
    exec (.pand f) s = pred s (p &&& q) ∧ exec (.por f) s = pred s (p ||| q) ∧ exec (.pxor f) s = pred s (p ^^^ q) ∧ exec (.pnot f) s = pred s (~~~p) ∧
    (let n := (s.tile.scalar f.srcA).toNat % 2 ^ 32
     let c := f.srcB.toNat
     exec (.pset f) s = pred (s.withLost (s.tile.scalarLost f.srcA))
      (.ofNat 256 (2 ^ min (if c = 1 then 2 * n else if c = 2 then 4 * n else if c = 3 then (n + 1) / 2 else n) 256 - 1)))

/-- Random words, selection, digests and special functions (R204, R205, R206, R207). VRAND delivers the random word of SEED, the tensor id and each coordinate four cycles later; VTOPK the first k candidates in its order ten cycles later; VDIGEST the SHA-256 chaining value after its blocks six cycles later; the special functions deliver the exact result rounded once, six cycles later; an operand that the rules call illegal takes ILLEGAL_OPERAND. That VEXP2, VLOG2, VTANH and VSIGM are exact to the last bit (log 8), the NV of VTOPK (log 20) and the words and the order of equal candidates of VTOPK (log 103) are the model's readings. (FunctionValues, TranscendentalValues and SelectionAndDigests say what these values are.) -/
def Obligations.VectorSpecials : Prop :=
  ∀ (s : State) (f : RG),
    let m := s.tile.preg f.pred.toNat
    let lost := fun (r : Rounding) => match r with
      | .nearest => false
      | .stochastic _ _ => s.tile.scalarLost s.tile.tids
    let put := fun (t : State) (l : Nat) (k : PReg) (v : VReg) (fl : Flags) =>
      t.withResult l (.v (s.tile.phys f.dst.toNat)) (.lanes k v) fl f.nwb (some .vb1)
    let sa := (s.tile.scalar f.srcA).toNat
    let sb := (s.tile.scalar f.srcB).toNat
    let d := s.tile.vreg f.dst.toNat
    exec (.vrand f) s = .next (put (s.withLost (s.tile.scalarLost f.srcA || s.tile.scalarLost f.srcB)) 4 (elemLanes m 32)
      (mapElems 32 (activeEl m 32) fun e => (vrand s.tile.csr.seed.toNat (sa % 2 ^ 32) ((sb + e) % 2 ^ 64), 0)).1 0) ∧
    (∀ (fa : Fmt) (w : Nat), s.tile.aFmt = some fa → 8 ≤ w → fa.width = w →
      let k := sb / 2 ^ 32 % 64
      let a := s.tile.vector f.srcA w
      let new := ((List.range (2048 / w)).filter (activeEl m w)).map fun e => (elem a w e, (sb + e) % 2 ^ 32)
      let old := if sb / 2 ^ 38 % 2 = 1 then [] else (List.range 32).map fun i => (elem d 64 i % 2 ^ 32, elem d 64 i / 2 ^ 32)
      let cs := (new ++ old).filter fun c => c.2 != emptyIndex
      let top := (cs.foldl (fun l c => insertCandidate ⟨(fa.xval c.1).1, c.1, c.2⟩ l) []).take k
      let v := packGo 64 (fun i => match top[i]? with
        | some c => c.word + c.index * 2 ^ 32
        | none => emptyIndex * 2 ^ 32) 32
      (1 ≤ k → k ≤ 32 → sb < 2 ^ 39 → exec (.vtopk f) s =
        .next (put ((s.withLost (s.tile.vectorLost f.srcA)).withLost (s.tile.scalarLost f.srcB)) 10 (BitVec.allOnes 256) (.ofNat 2048 v)
          (cs.foldl (fun x c => x ||| (fa.xval c.1).2) 0))) ∧
      (∀ h, s.trapsAt h → k = 0 ∨ 32 < k ∨ 2 ^ 39 ≤ sb → exec (.vtopk f) s = .next (s.trapped 0x02 0))) ∧
    (∀ a, s.tile.vecRaw f.srcA s.tile.aFmt = some a → s.tile.predOn f.pred = true →
      let h := if sb / 8 % 2 = 1 then Sha.h0 else Sha.words 8 (vecBytes d 0 32)
      let r := (Sha.blocks (sb % 8) h (vecBytes a 0 256)).flatMap Sha.toBe
      (1 ≤ sb % 8 → sb % 8 ≤ 4 → sb < 16 → exec (.vdigest f) s =
        .next (put ((s.withLost (s.tile.vectorLost f.srcA)).withLost (s.tile.scalarLost f.srcB)) 6 (BitVec.allOnes 256)
          (.ofNat 2048 (r.foldr (fun x y => x + 256 * y) 0)) 0)) ∧
      (∀ x, s.trapsAt x → sb % 8 = 0 ∨ 4 < sb % 8 ∨ 16 ≤ sb → exec (.vdigest f) s = .next (s.trapped 0x02 0))) ∧
    (∀ (fa fd : Fmt) (w : Nat) (r : Rounding), s.tile.aFmt = some fa → s.tile.dFmt = some fd → 8 ≤ w → fa.width = w → fd.width = w →
      s.tile.rounding fd = some r →
      let sp := fun (op : Bool → Val → OpRes) =>
        let one := fun e => (op fa.isIeee (fa.xval (elem (s.tile.vector f.srcA w) w e)).1).deliver fa.isIeee fd (r.word e)
        let v := mapElems w (activeEl m w) fun e => ((one e).1, (fa.xval (elem (s.tile.vector f.srcA w) w e)).2 ||| (one e).2)
        (Host.Outcome.next (put ((s.withLost (s.tile.vectorLost f.srcA)).withLost (lost r)) 6 (elemLanes m w) v.1 v.2) : Out)
      exec (.vrecip f) s = sp vrecip ∧ exec (.vrsqrt f) s = sp vrsqrt ∧ exec (.vsqrt f) s = sp vsqrt ∧ exec (.vexp2 f) s = sp (fun _ => vexp2) ∧ exec (.vlog2 f) s = sp vlog2 ∧ exec (.vtanh f) s = sp (fun _ => vtanh) ∧ exec (.vsigm f) s = sp (fun _ => vsigm))

/-- Configuration, accumulation, shifts, block scaling and clears (R148, R210, R215, R216, R217, R218, R219, R223, R227). MCFG replaces the configuration for the beats of the next cycle; MACC loads its operand latches and puts their contribution in the array three cycles later; MSHIFT loads the high half, shifts by one element and steps the cursors; MSCALE folds every block entry into its cell; MCLR clears latches and cursors at once and cells three cycles later; illegal configurations take ILLEGAL_OPERAND; a handler without ownership of the matrix state meets MX_OWNED, which ends the tile with DOUBLE_TRAP and that cause in SCAUSE. That MSCALE raises its flags in the cycle in which it issues is the model's reading (log 22, DEDUCED). -/
def Obligations.MatrixBeats : Prop :=
  ∀ (s : State) (f : Beat),
    let m := if s.tile.ctl.handler then { s.tile.mx with restored := [] } else s.tile.mx
    let own := s.tile.ctl.handler = false ∨ s.tile.mx.owned = true
    let z := elemBytes m.mode
    let fl := f.flags
    let go := fun (os : List Nat) (x : Mx) =>
      (Host.Outcome.next (if os = [] then { s with tile := { s.tile with mx := x } } else { s with tile := { s.tile with mx := x } }.touchSpad os) : Out)
    let readable := fun (os : List Nat) => (∀ o ∈ os, o + z ≤ 0x60000 ∧ o % z = 0) ∧
      (∀ o ∈ os, ∀ p ∈ os, o / 16 % 16 = p / 16 % 16 → o / 16 = p / 16) ∧ (os ≠ [] → s.tile.feedWrites s.cycle = false)
    let step := fun (c : BitVec 19) (on : Bool) (n : Nat) => if on then c + .ofNat 19 n else c
    (own → exec (.mcfg f) s = go [] { m with mode := f.row.toNat, aFmt := f.srcA.setWidth 5, bFmt := f.srcB.setWidth 5, dFmt := fl }) ∧
    (own → m.configOk = true → ¬(m.mode = 3 ∧ f.plane = true) →
      let oa := if fl.getLsbD 0 then s.tile.beatOffsets f.srcA m.ca.toNat 0 (16 / z) else []
      let ob := if fl.getLsbD 1 then s.tile.beatOffsets f.srcB m.cb.toNat 0 (16 / z) else []
      let a := if fl.getLsbD 0 then (m.aLatch >>> 128 <<< 128) ||| (s.tile.beatWord f.srcA f.row.toNat z oa).setWidth 256 else m.aLatch
      let b := if fl.getLsbD 1 then s.tile.beatWord f.srcB f.row.toNat z ob else m.bLatch
      readable (oa ++ ob) → exec (.macc f) s = go (oa ++ ob)
        { m with
          aLatch := a
          bLatch := b
          ca := step m.ca (fl.getLsbD 2) (s.tile.descriptor f.srcA).pinc
          cb := step m.cb (fl.getLsbD 3) (s.tile.descriptor f.srcB).pinc
          pending := m.pending ++ [{ due := s.cycle + 3 * s.unit, kind := .macc m.mode f.plane m.aFmt.toNat m.bFmt.toNat (a.setWidth 128) b }] }) ∧
    (own →
      let oa := if fl.getLsbD 1 then s.tile.beatOffsets f.srcA m.ca.toNat (16 / z) (16 / z) else []
      let a := if fl.getLsbD 1 then (m.aLatch.setWidth 128).setWidth 256 ||| (s.tile.beatWord f.srcA f.row.toNat z oa).setWidth 256 <<< 128
        else m.aLatch
      let by_ := fun (d : Descriptor) => if fl.getLsbD 4 then d.tpitch else d.pinc
      readable oa → exec (.mshift f) s = go oa
        { m with
          aLatch := if fl.getLsbD 0 then a >>> (8 * z) else a
          ca := step m.ca (fl.getLsbD 2) (by_ (s.tile.descriptor f.srcA))
          cb := step m.cb (fl.getLsbD 3) (by_ (s.tile.descriptor f.srcB)) }) ∧
    (own → m.mode = 3 → m.configOk = true →
      let ea := fun i => byteOf (s.tile.vreg f.srcA.toNat) (16 * f.row.toNat + i)
      let eb := fun j => byteOf (s.tile.vreg f.srcB.toNat) (16 * (fl.toNat % 16) + j)
      let inv := (List.range 16).any fun i => e8Reserved (ea i) || e8Reserved (eb i)
      let cell := fun (base k c : Nat) =>
        let q := qadd 512 (quireInt 512 c)
          (foldValue (slice m.blk.toNat 32 (16 * (base + k / 16) + k % 16)) (ea (base + k / 16)) (eb (k % 16)))
        (quireWord 512 q.1, q.2)
      let x := mapPlane 512 m.acc0 (cell 0)
      let y := mapPlane 512 m.acc1 (cell 8)
      let raised := (x.2 ||| y.2 ||| (if inv then Flag.INV else 0)).setWidth 32
      let t := { s with tile := { s.tile with
        mx := { m with acc0 := x.1, acc1 := y.1, blk := 0 }
        csr := { s.tile.csr with tstat := s.tile.csr.tstat ||| raised } } }
      let hit := raised &&& s.tile.csr.ten &&& 0xFF
      exec (.mscale f) s = .next (if hit = 0 then t else t.noteLanding causeArith (hit.setWidth 64))) ∧
    (own → exec (.mclr f) s = go []
      { m with
        aLatch := if fl.getLsbD 3 then 0 else m.aLatch
        bLatch := if fl.getLsbD 3 then 0 else m.bLatch
        ca := if fl.getLsbD 4 then 0 else m.ca
        cb := if fl.getLsbD 4 then 0 else m.cb
        cd := if fl.getLsbD 4 then 0 else m.cd
        pending := if fl &&& 7 = 0 then m.pending else m.pending ++ [{ due := s.cycle + 3 * s.unit, kind := .clear (fl &&& 7) }] }) ∧
    (∀ h, s.trapsAt h → (m.configOk = false ∨ (m.mode = 3 ∧ f.plane = true)) → exec (.macc f) s = .next (s.trapped 0x02 0)) ∧
    (∀ h, s.trapsAt h → (m.configOk = false ∨ m.mode ≠ 3) → exec (.mscale f) s = .next (s.trapped 0x02 0)) ∧
    (s.tile.ctl.handler = true → s.tile.mx.owned = false →
      ∀ i ∈ [Instr.mcfg f, .macc f, .mshift f, .mscale f, .mdrain f, .mdrainq f, .mclr f], exec i s = .next (s.doubleTrapped 0x15))

/-- Drains and the matrix image (R148, R209, R213, R221, R222, R225, R226, R227). MDRAIN rounds each cell of a row once into a part of a vector register five cycles later; MDRAINQ writes the row exactly to the scratchpad, 256 bytes a cycle; MSAVE writes one chunk of the image and, in a handler, marks it, the sixty-ninth mark giving ownership; MRESTORE places a chunk in the next cycle. A bad configuration, row, plane, group or rounding of MDRAIN, a bad row or plane of MDRAINQ, and a chunk of MRESTORE whose pending beats have no formats of their mode take ILLEGAL_OPERAND; a block of MDRAINQ, MSAVE or MRESTORE that leaves the scratchpad takes SPAD_RANGE, one that is not aligned MISALIGNED_ACCESS, and one whose port another beat holds MX_BANK, with its base in TVAL; MRESTORE in a handler without ownership ends the tile with DOUBLE_TRAP and MX_OWNED in SCAUSE. The base in TVAL of a block transfer that leaves the scratchpad (log 104) and the ILLEGAL_OPERAND of MRESTORE for a chunk whose pending beats have no formats of their mode (log 85) are the model's readings (DEDUCED). -/
def Obligations.MatrixDrainsAndImages : Prop :=
  ∀ (s : State) (f : Beat),
    let m := if s.tile.ctl.handler then { s.tile.mx with restored := [] } else s.tile.mx
    let own := s.tile.ctl.handler = false ∨ s.tile.mx.owned = true
    let r := f.row.toNat
    let row := rowSpan m.mode f.plane r
    let bits := (m.plane row.1).toNat / 2 ^ row.2.1 % 2 ^ row.2.2
    let desc := s.tile.descriptor f.srcA
    let base := (desc.base + m.cd.toNat) % 2 ^ 19
    let step := fun (on : Bool) => if on then m.cd + .ofNat 19 desc.pinc else m.cd
    (∀ (d : Fmt) (k : Rounding), own → m.configOk = true → Fmt.ofCode m.dFmt.toNat = some d → s.tile.rounding d = some k →
      let n := cellsPerRow m.mode
      let g := f.flags.toNat % 16
      let w := cellBits m.mode
      let scale := fun j => if f.srcB.getLsbD 6 then tdecode (elem (s.tile.vreg (f.srcB.toNat % 32)) 32 j) 32 2 else .fin false 1 1
      let part := fun e => decide (n * g ≤ e) && decide (e < n * (g + 1))
      let v := mapElems d.width part fun e => qround w (quireInt w (slice bits w (e - n * g))) (scale (e - n * g)) d (k.word (16 * r + (e - n * g)))
      let lost := match k with
        | .nearest => false
        | .stochastic _ _ => s.tile.scalarLost s.tile.tids
      let mx := if f.flags.getLsbD 4 then m.clearRow row.1 row.2.1 row.2.2 else m
      (r < rowsOf m.mode → ¬(m.mode = 3 ∧ f.plane = true) → n * (g + 1) ≤ 2048 / d.width → exec (.mdrain f) s = .next
        (({ s with tile := { s.tile with mx := mx } }.withLost lost).withResult 5 (.v (s.tile.phys f.srcA.toNat)) (.lanes (lanesWhere d.width part) v.1) v.2
          false (some .vb3)))) ∧
    (own → r < rowsOf m.mode → ¬(m.mode = 3 ∧ f.plane = true) → base + row.2.2 / 8 ≤ 0x60000 → base % 16 = 0 →
      let first := if m.mode = 3 then 1 else 3
      (∀ i, i < row.2.2 / 2048 → s.tile.feedWrites (s.cycle + (first + i) * s.unit) = false) →
      let mx := if f.flags.getLsbD 0 then m.clearRow row.1 row.2.1 row.2.2 else m
      exec (.mdrainq f) s = .next { s with tile := { s.tile with
        mx := { mx with cd := step (f.flags.getLsbD 1) }
        io := { s.tile.io with stores := s.tile.io.stores ++ (List.range (row.2.2 / 2048)).map fun i =>
          { due := s.cycle + (first + i) * s.unit, issued := s.cycle, kind := .feed,
            cells := cellsAt (base + 256 * i) (natBytes (slice bits 2048 i) 256) } } } }) ∧
    (∀ h, s.trapsAt h →
      (m.configOk = false ∨ rowsOf m.mode ≤ r ∨ (m.mode = 3 ∧ f.plane = true) ∨
        (∀ d, Fmt.ofCode m.dFmt.toNat = some d → 2048 / d.width < cellsPerRow m.mode * (f.flags.toNat % 16 + 1) ∨ s.tile.rounding d = none) →
        exec (.mdrain f) s = .next (s.trapped 0x02 0)) ∧
      (rowsOf m.mode ≤ r ∨ (m.mode = 3 ∧ f.plane = true) → exec (.mdrainq f) s = .next (s.trapped 0x02 0)) ∧
      (r < rowsOf m.mode → ¬(m.mode = 3 ∧ f.plane = true) →
        (0x60000 < base + row.2.2 / 8 → exec (.mdrainq f) s = .next (s.trapped 0x05 base)) ∧
        (base + row.2.2 / 8 ≤ 0x60000 → base % 16 ≠ 0 → exec (.mdrainq f) s = .next (s.trapped 0x06 base)) ∧
        (∀ i, i < row.2.2 / 2048 → base + row.2.2 / 8 ≤ 0x60000 → base % 16 = 0 →
          s.tile.feedWrites (s.cycle + ((if m.mode = 3 then 1 else 3) + i) * s.unit) = true → exec (.mdrainq f) s = .next (s.trapped 0x16 base))) ∧
      (0x60000 < base + 256 → exec (.msave f) s = .next (s.trapped 0x05 base) ∧ exec (.mrestore f) s = .next (s.trapped 0x05 base)) ∧
      (base + 256 ≤ 0x60000 → base % 16 ≠ 0 → exec (.msave f) s = .next (s.trapped 0x06 base) ∧ exec (.mrestore f) s = .next (s.trapped 0x06 base)) ∧
      (base + 256 ≤ 0x60000 → base % 16 = 0 →
        (s.tile.feedWrites (s.cycle + s.unit) = true → exec (.msave f) s = .next (s.trapped 0x16 base)) ∧
        (badRestore f.srcB.toNat (.ofNat 2048 (s.tile.spadNat base 256)) = false → s.tile.feedWrites s.cycle = true →
          exec (.mrestore f) s = .next (s.trapped 0x16 base)))) ∧
    (let b := (desc.base + s.tile.mx.cd.toNat) % 2 ^ 19
     let c := f.srcB.toNat
     let x := s.tile.mx
     let cd := if f.flags.getLsbD 0 then x.cd + .ofNat 19 desc.pinc else x.cd
     b + 256 ≤ 0x60000 → b % 16 = 0 →
      (s.tile.feedWrites (s.cycle + s.unit) = false →
        let marks := if s.tile.ctl.handler && !x.owned && !x.saved.contains c then c :: x.saved else x.saved
        exec (.msave f) s = .next { s with tile := { s.tile with
          mx := { x with saved := marks, owned := x.owned || decide (69 ≤ marks.length), cd := cd }
          io := { s.tile.io with stores := s.tile.io.stores ++ [
            { due := s.cycle + 1 * s.unit, issued := s.cycle, kind := .feed,
              cells := cellsAt b (natBytes (x.chunk s.cycle s.unit s.tile.ctl.handler c).toNat 256) }] } } }) ∧
      (∀ h, s.trapsAt h → own → badRestore c (.ofNat 2048 (s.tile.spadNat b 256)) = true → exec (.mrestore f) s = .next (s.trapped 0x02 0)) ∧
      (own → badRestore c (.ofNat 2048 (s.tile.spadNat b 256)) = false → s.tile.feedWrites s.cycle = false →
        exec (.mrestore f) s = .next ({ s with tile := { s.tile with
          mx := { x with
            pending := (if s.tile.ctl.handler then x.pending.filter (fun p : MxPending => !p.kind.recorded) else x.pending) ++
              [({ due := s.cycle + 1 * s.unit, kind := .chunk c (.ofNat 2048 (s.tile.spadNat b 256)) } : MxPending)]
            restored := if s.tile.ctl.handler && !x.restored.contains c then c :: x.restored else x.restored
            cd := cd } } }.touchSpad ((List.range 256).map (b + ·))))) ∧
    (s.tile.ctl.handler = true → s.tile.mx.owned = false → exec (.mrestore f) s = .next (s.doubleTrapped 0x15))

/-- The copy port (R229, R230, R231, R232). CQPUSH samples a packet from the scratchpad, puts its push in the request queue and the index after it in its register; CWAIT waits on a binding; CDONE and CQRES put its DONESH and status in flight; CKICK puts a kick in the request queue; an empty binding, a WATCH binding where one pushes and a packet that a tile may not push take ILLEGAL_OPERAND; a packet outside the scratchpad takes SPAD_RANGE, one at an offset that is no multiple of 64 MISALIGNED_ACCESS; with a full request queue CQPUSH and CKICK take QUEUE_FULL. The checks of CQPUSH come in this order. -/
def Obligations.CopyPortInstructions : Prop :=
  ∀ (s : State) (f : Copy), s.tile.predOn f.pred = true →
    let n := f.bnd.toNat
    let o := (s.tile.scalar f.srcB).toNat % 2 ^ 32
    let res := fun (w : W64) => (Host.Outcome.next (s.withResult 1 (.s f.reg.toNat s.tile.ctl.handler) (.word w) 0 false none) : Out)
    (∀ h, s.trapsAt h → s.binding s.tile n = none →
      ∀ i ∈ [Instr.cqpush f, .cwait f, .cdone f, .ckick f, .cqres f], exec i s = .next (s.trapped 0x02 0)) ∧
    (∀ b, s.binding s.tile n = some b →
      exec (.cdone f) s = res b.donesh ∧ exec (.cqres f) s = res b.status ∧
      (exec (.cwait f) s = .next ((s.withLost (s.tile.scalarLost f.srcB)).startWait (.copy n (s.tile.scalar f.srcB)))) ∧
      (∀ h, s.trapsAt h → b.kind = 3 → exec (.cqpush f) s = .next (s.trapped 0x02 0) ∧ exec (.ckick f) s = .next (s.trapped 0x02 0)) ∧
      (∀ h, s.trapsAt h → b.kind ≠ 3 → 16 ≤ s.tile.io.requests.length → exec (.ckick f) s = .next (s.trapped 0x19 0)) ∧
      (b.kind ≠ 3 → s.tile.io.requests.length < 16 → exec (.ckick f) s = .next (s.withRequest fun _ => .kick b.queue)) ∧
      (∀ h, s.trapsAt h → b.kind ≠ 3 →
        let t := s.withLost (s.tile.scalarLost f.srcB)
        let bs := s.tile.spad.bytes o 64
        (0x60000 < o + 64 → exec (.cqpush f) s = .next (t.trapped 0x05 o)) ∧
        (o + 64 ≤ 0x60000 → o % 64 ≠ 0 → exec (.cqpush f) s = .next (t.trapped 0x06 o)) ∧
        (o + 64 ≤ 0x60000 → o % 64 = 0 → pushable s.tile.place.hvpriv (fieldOf bs 0 1) = false ∨ (fieldOf bs 1 1 ≠ 1 ∧ fieldOf bs 1 1 ≠ 2) →
          exec (.cqpush f) s = .next (t.trapped 0x02 0)) ∧
        (o + 64 ≤ 0x60000 → o % 64 = 0 → pushable s.tile.place.hvpriv (fieldOf bs 0 1) = true → (fieldOf bs 1 1 = 1 ∨ fieldOf bs 1 1 = 2) →
          16 ≤ s.tile.io.requests.length → exec (.cqpush f) s = .next (t.trapped 0x19 0))) ∧
      (b.kind ≠ 3 → s.tile.io.requests.length < 16 → o % 64 = 0 → o + 64 ≤ 0x60000 →
        let bs := s.tile.spad.bytes o 64
        let id := s.tile.nextId
        let index := if b.kind = 1 then some b.wrsh.toNat else none
        let t := (s.withLost (s.tile.scalarLost f.srcB)).withRequest fun id => .push id b.queue index bs
        let t := { t with
          tile := { t.tile with io := { t.tile.io with
            copies := t.tile.io.copies ++ [(id, b.queue, index)]
            bindings := if b.kind = 1 then put t.tile.io.bindings n { b with wrsh := b.wrsh + 1 } else t.tile.io.bindings } }
          queues := match find s.queues b.queue with
            | some q => put s.queues b.queue { q with pushes := q.pushes + 1 }
            | none => s.queues }
        (pushable s.tile.place.hvpriv (fieldOf bs 0 1) = true → (fieldOf bs 1 1 = 1 ∨ fieldOf bs 1 1 = 2) → exec (.cqpush f) s = .next
          ((t.withResult 1 (.s f.reg.toNat s.tile.ctl.handler) (.word (if b.kind = 1 then b.wrsh + 1 else 0)) 0 false none).touchSpad
            ((List.range 64).map (o + ·))))))

/-- Control transfers and loop levels (R127, R129, R130, R133). BR, JMP, CALL, CALLR and RET are taken, BRZ and BRNZ by all 64 bits of their operand; a taken transfer has its target, and the calls put EPC + 64 in flight for s63; LOOP and LOOPM open a level, a count of zero skips the body, and the failures trap; BRK closes levels. That LOOP_DEPTH comes before MISALIGNED_TARGET is the model's reading (log 27, DEDUCED). -/
def Obligations.TransfersAndLoops : Prop :=
  ∀ (s : State) (l : Bool) (x : BitVec 7) (d : BitVec 24) (e : BitVec 17) (n : BitVec 11) (ii : BitVec 5) (g b : BitVec 3),
    let pc := s.tile.ctl.pc
    let v := s.tile.kOperand x
    let at_ := fun (k : Int) => (((pc : Int) + 32 * k) % 2 ^ 32).toNat
    let jump := fun (t : State) (a close : Nat) => (Host.Outcome.next { t with tile := { t.tile with ctl := { t.tile.ctl with
      transfer := some { target := a, source := pc, close := close, leave := false } } } } : Out)
    let link := fun (t : State) => t.withResult 1 (.s 63 s.tile.ctl.handler) (.word (.ofNat 64 (pc + 64))) 0 false none
    let t := s.withLost (s.tile.kval.isNone && s.tile.scalarLost x)
    exec (.br l d) s = jump s (at_ d.toInt) 0 ∧ exec (.call l d) s = jump (link s) (at_ d.toInt) 0 ∧
    exec (.jmp l x) s = jump t (v.toNat % 2 ^ 32) 0 ∧ exec (.callr l x) s = jump (link t) (v.toNat % 2 ^ 32) 0 ∧
    exec (.ret l) s = jump s ((s.tile.kOperand 63).toNat % 2 ^ 32) 0 ∧
    (v = 0 → exec (.brz l x e) s = jump t (at_ e.toInt) 0 ∧ exec (.brnz l x e) s = .next t) ∧
    (v ≠ 0 → exec (.brz l x e) s = .next t ∧ exec (.brnz l x e) s = jump t (at_ e.toInt) 0) ∧
    (let levels := s.tile.ctl.levels
     let count := v.toNat % 2 ^ 32
     let opens := fun (i : Instr) (len : Nat) (loopm : Bool) (ii stages : Nat) =>
      (count = 0 → pc + 32 * len ≤ 0xFFE0 →
        exec i s = .next { t with tile := { t.tile with ctl := { t.tile.ctl with skip := some (pc + 32 * len + 32) } } }) ∧
      (count ≠ 0 → levels.length < 6 → pc + 32 * len ≤ 0xFFE0 → exec i s = .next { t with tile := { t.tile with ctl := { t.tile.ctl with levels :=
        { pass := 0, ncount := count, limit := count, baseIt := 0, first := pc + 32, last := pc + 32 * len, loopm := loopm, ii := ii,
          stages := stages, clamped := false } :: levels } } }) ∧
      (∀ h, s.trapsAt h → count ≠ 0 → 6 ≤ levels.length → exec i s = .next (t.trapped 0x07 0)) ∧
      ((count = 0 ∨ levels.length < 6) → 0xFFE0 < pc + 32 * len → exec i s = .next (t.raiseTarget pc pc ((pc + 32 * len) % 2 ^ 32)))
     opens (.loop l x n) n.toNat false 1 1 ∧ opens (.loopm l x ii g) ii.toNat true ii.toNat (g.toNat + 1) ∧
     let k := b.toNat + 1
     (v = 0 → k ≤ levels.length → exec (.brk l x b) s = .next t) ∧
     (∀ y, v ≠ 0 → levels[k - 1]? = some y → exec (.brk l x b) s = jump t (y.last + 32) k) ∧
     ∀ h, s.trapsAt h → levels.length < k → exec (.brk l x b) s = .next (t.trapped 0x07 0))

/-- TRAP, taking a trap, ERET and leaving the handler (R142, R143, R144, R147, R149). TRAP notes its trap for the boundary after its bundle with its immediate in TVAL (a trap that the tile has already noted stays); taking a trap records the results due later with what remains of each, saves and empties the loop stack, keeps RRB and the latches, writes TCAUSE and EPC, and issues the handler entry two tile cycles later; ERET is PRIV outside a handler, otherwise a transfer; leaving the handler restores the loop stack, RRB, the latches and the NOPRE state, selects the program bank and resumes; and leaving at once after entering brings those back. The pending transfer that the frame keeps (log 13), the transfer of ERET's delay bundle (log 91), the plane clears among the records (log 63) and the layout of the records (log 78) are the model's readings. -/
def Obligations.TrapEntryAndReturn : Prop :=
  ∀ (s : State) (l : Bool) (imm : BitVec 16),
    let t := s.tile
    exec (.trap l imm) s = .next { s with tile := { t with ctl := { t.ctl with
      entry := some (t.ctl.entry.getD
        { cause := 0x08, tval := imm.setWidth 64, epc := t.ctl.pc, resume := 0, self := true, rewait := [] }) } } } ∧
    (∀ (i : TrapInfo) (h : Nat), t.place.entryPoint = some h →
      let u := s.enterTrap i
      u.tile.ctl.handler = true ∧ u.tile.ctl.pc = h ∧ u.tile.ctl.nextIssue = s.cycle + 2 * s.unit ∧ u.tile.ctl.levels = [] ∧
      u.tile.csr.tcause = .ofNat 8 i.cause ∧ u.tile.csr.epc = .ofNat 16 i.epc ∧ u.tile.regs = t.regs ∧ u.tile.lat = t.lat ∧
      u.tile.flights = t.flights.filter (fun f => !f.kept) ∧
      ∃ f, u.tile.frame = some f ∧ f.levels = t.ctl.levels ∧ f.rrb = t.regs.rrb ∧ f.latches = t.lat ∧ f.tval = i.tval ∧ f.epc = i.epc ∧
        f.resume = i.resume ∧ f.nopre = t.ctl.nopre ∧
        f.records.map (fun r => (r.id, r.dest, r.payload, r.flags, r.due)) =
          (t.flights.filter Flight.kept).map (fun r => (r.id, r.dest, r.payload, r.flags, (r.due - s.cycle) / s.unit)) ∧
        (i.rewait = [] →
          let v := u.leaveTrap
          v.tile.ctl.handler = false ∧ v.tile.ctl.levels = t.ctl.levels ∧ v.tile.regs = t.regs ∧ v.tile.lat = t.lat ∧
          v.tile.ctl.nopre = t.ctl.nopre ∧ v.tile.ctl.pc = i.resume ∧ v.tile.ctl.transfer = t.ctl.transfer)) ∧
    (t.place.entryPoint = none → ∀ i, s.enterTrap i = s.fatalAt i.cause 0 i.epc) ∧
    (∀ cause scause e, let u := s.fatalAt cause scause e
      u.tile.csr = { t.csr with tcause := .ofNat 8 cause, epc := .ofNat 16 e } ∧ u.tile.place.status = .ended ∧ u.tile.regs = t.regs ∧
      u.tile.frame = (if cause = 0x18 then t.frame.map fun f => { f with cause := 0x18, scause := scause, epc := e, tval := 0 } else t.frame)) ∧
    (∀ h, s.trapsAt h → exec (.eret l) s = .next (s.trapped 0x17 0)) ∧
    (t.ctl.handler = true → (t.mx.owned = false ∨ 69 ≤ t.mx.restored.length) → exec (.eret l) s = .next { s with tile := { t with ctl := { t.ctl with
      transfer := some { target := (match t.frame with
        | some f => f.next
        | none => t.ctl.pc + 32), source := t.ctl.pc, close := 0, leave := true } } } }) ∧
    (t.ctl.handler = true → t.mx.owned = true → t.mx.restored.length < 69 → exec (.eret l) s =
      .next ({ s with lastTrap := some (s.report 0x15 0) }.fatalAt 0x18 0x15 t.ctl.pc)) ∧
    ∀ f, t.frame = some f →
      let v := s.leaveTrap
      v.tile.ctl.levels = f.levels ∧ v.tile.regs = { t.regs with rrb := f.rrb } ∧ v.tile.lat = f.latches ∧ v.tile.ctl.nopre = f.nopre ∧
      v.tile.ctl.handler = false ∧ v.tile.ctl.pc = f.next ∧ v.tile.ctl.waits = f.rewait ∧ v.tile.frame = some f ∧
      v.tile.ctl.transfer = (match t.ctl.transfer with
        | some x => some { x with close := 0, leave := false }
        | none => f.transfer) ∧
      v.tile.flights = t.flights ++ f.records.map (fun r => { r with due := s.cycle + r.due * s.unit, issued := s.cycle - r.issued * s.unit })

/-- Markers, regions, waits, HALT and stages (R132, R134, R135, R136, R137, R139, R140). YIELD is a halt point when a stop is requested; TEND ends the task, empties the loop stack, closes the region and starts the next task no earlier than two cycles later, after the waits of its own bundle (log 23, DEDUCED); IFENCE has its effect on fetch two cycles later and empties the loop buffer; RRBSET sets RRB one cycle later; NOPRE opens a region that the context grants and NOPREEND closes it; WAITC waits for its cycle; HALT stops a tile with hypervisor privilege; STG by itself does nothing; PRIV otherwise. -/
def Obligations.KernelInstructions : Prop :=
  ∀ (s : State) (l : Bool) (x : BitVec 7) (n : BitVec 4) (g : BitVec 21),
    let t := s.tile
    let ctl := fun (c : Control) => (Host.Outcome.next { s with tile := { t with ctl := c } } : Out)
    exec (.yield l) s = ctl { t.ctl with haltPoint := t.ctl.haltPoint || t.ctl.requested } ∧
    exec (.stg l g) s = .next s ∧
    exec (.ifence l) s = .next ({ s with tile := { t with loopBuf := [], bufFor := none } }.withResult 2 .fetch (.word (.ofNat 64 s.cycle)) 0 false none) ∧
    exec (.rrbset l n) s = .next (s.withResult 1 .rrb (.word (n.setWidth 64)) 0 false none) ∧
    (let u := s.withLost (t.kval.isNone && t.scalarLost x)
     let c := (t.kOperand x).toNat
     (c ≤ s.cycle + s.unit → exec (.waitc l x) s = .next u) ∧ (s.cycle + s.unit < c → exec (.waitc l x) s = .next (u.withWait (.cycle c)))) ∧
    (∃ u, exec (.tend l) s = .next u ∧ u.tile.ctl.levels = [] ∧ u.tile.ctl.nopre = false ∧ u.tile.ctl.transfer = none ∧ u.tile.flights = t.flights ∧
      u.tile.place.task = t.place.task + 1 ∧ u.tile.regs = t.regs ∧
      u.tile.ctl.waits = t.ctl.waits ∧ u.tile.place.taskFrom = s.cycle + 2 * s.unit ∧
      (t.place.task + 1 < s.taskCount ∨ t.ctl.waits ≠ [] → u.tile.place.status = .starting) ∧
      (s.taskCount ≤ t.place.task + 1 → t.ctl.waits = [] → u.tile.place.status = .ended)) ∧
    (t.ctl.nopre = true → exec (.nopre l) s = .next s) ∧
    (t.ctl.nopre = false → s.effNopre (s.ctxPath t.place.ctx) = true → exec (.nopre l) s = ctl { t.ctl with nopre := true }) ∧
    (∀ h, s.trapsAt h → t.ctl.nopre = false → s.effNopre (s.ctxPath t.place.ctx) = false → exec (.nopre l) s = .next (s.trapped 0x17 0)) ∧
    (t.ctl.nopre = false → exec (.nopreend l) s = .next s) ∧
    (t.ctl.nopre = true → t.ctl.preempt = none → exec (.nopreend l) s = ctl { t.ctl with nopre := false }) ∧
    (t.place.hvpriv = true → exec (.halt l) s = .next { s with tile := { t with place := { t.place with status := .halted } } }) ∧
    (∀ h, s.trapsAt h → t.place.hvpriv = false → exec (.halt l) s = .next (s.trapped 0x17 0))

/-- Landing, trap entry, waits, task starts, gang stops and pre-emption requests (R35, R49, R136, R141, R144, R171, R172, R310, R312, R313, R314, R316). A result due lands in its register unless it is NWB, in its latch and in the sticky flags; a pending trap is taken at the boundary; a satisfied wait lets the next bundle issue one tile cycle later, one of a TEND bundle the next task start then or the tile end; an elastic task starts when its bounds and conditions allow, a lockstep one at its cycle; a gang stop reaches its lead; a pre-emption request lowers the limit of a LOOPM level outside a NOPRE region. The after-kind trap that is entered before a landing condition of its cycle (log 62), the denied wait that re-enters (log 92), the interval of R148 (log 72) and the stops and starts of gangs (logs 32, 33) are the model's readings (DEDUCED). -/
def Obligations.TileEvents : Prop :=
  ∀ s : State,
    let t := s.tile
    let c := s.cycle
    (∀ (f : Flight) (w : W64), t.flights.filter (fun x => decide (x.due ≤ c)) = [f] → (t.mx.pending.filter fun x => decide (x.due ≤ c)) = [] →
      f.payload = .word w →
      ∃ u, exec .resultLanding s = .next u ∧ u.tile.flights = t.flights.filter (fun x => !decide (x.due ≤ c)) ∧ u.tile.spad = t.spad ∧
        (f.nwb = true → u.tile.regs = t.regs) ∧
        (∀ n h, f.dest = .s n h → (f.nwb = false → u.tile.regs = t.regs.setS n h w) ∧ u.tile.csr.tstat = t.csr.tstat ||| f.flags.setWidth 32 ∧
          (∀ k, f.latch = some k → u.tile.lat = landLatch t.lat k (w.setWidth 2048)) ∧ (f.latch = none → u.tile.lat = t.lat)) ∧
        (∀ n, f.dest = .a n → f.nwb = false → u.tile.regs = { t.regs with a := wr t.regs.a n (w.setWidth 32) }) ∧
        (∀ n e, t.io.sincs.filter (fun x => decide (x.1 ≤ c)) = [(e, n)] → u.tile.sems = addCount t.sems n.1 n.2)) ∧
    (∀ (i : TrapInfo) (h : Nat), s.trapsAt h →
      (t.ctl.entry = some i → exec .trapEntry s =
        .next ({ s with lastTrap := some { i with resume := t.ctl.pc } }.enterTrap { i with resume := t.ctl.pc })) ∧
      (t.ctl.entry = none → t.ctl.landing = some i → exec .trapEntry s =
        .next ({ s with
          tile := { t with ctl := { t.ctl with landing := none } }
          lastTrap := some { i with epc := t.ctl.pc, resume := t.ctl.pc } }.enterTrap { i with epc := t.ctl.pc, resume := t.ctl.pc }))) ∧
    (∀ w u, t.ctl.waits = [w] → s.testWait w = .satisfied u → exec .waitSatisfied s = .next { u with tile := { u.tile with
      place := match u.tile.place.status with
        | .waiting => { u.tile.place with status := .issuing }
        | .starting => { u.tile.place with
            status := if u.taskCount ≤ u.tile.place.task then .ended else .starting, taskFrom := max u.tile.place.taskFrom (u.cycle + 1 * u.unit) }
        | _ => u.tile.place
      ctl := { u.tile.ctl with waits := [], waited := some c, nextIssue := c + 1 * s.unit } } }) ∧
    (∀ w, t.ctl.waits = [w] → s.testWait w = .waiting → exec .waitSatisfied s = .next s) ∧
    (∀ w h, t.ctl.waits = [w] → s.testWait w = .denied → s.trapsAt h →
      let i : TrapInfo := { cause := 0x0F, tval := .ofNat 64 (3 + w.gateId * 2 ^ 32), epc := t.ctl.lastPc, resume := t.ctl.lastPc, self := true,
                            rewait := [w] }
      exec .waitSatisfied s = .next ({ s with lastTrap := some i }.enterTrap i)) ∧
    (∀ (i : TrapInfo), t.ctl.entry = some i → t.place.lead = s.cur → s.args.a = s.cur → s.tileExists s.cur = true → t.place.stop = none →
      (∀ f ∈ t.place.feed, f.index < t.place.index) →
      exec .gangStopSignal s = .next { s with tile := { t with place := { t.place with
        stop := some { index := t.place.index, rank := t.place.rank, cycle := c, info := { i with self := false, rewait := [] } } } } }) ∧
    (∀ (g : Group) (k : Task) (n : Nat), t.place.group = some n → find s.groups n = some g → g.kernel.tasks[t.place.task]? = some k →
      t.place.status = .starting → s.args.parts = [] →
      let bound := match k.notBefore with
        | some n => t.place.s0 + n
        | none => 0
      let begun := { s with tile := { t with
        place := { t.place with status := .issuing }
        ctl := { t.ctl with pc := k.entry, source := k.entry, levels := [], transfer := none, skip := none, nextIssue := c, waits := [] } } }
      (c < max bound t.place.taskFrom → exec .taskStart s = .next s) ∧
      (max bound t.place.taskFrom ≤ c →
        (g.lockstep = false → (k.conds.all s.condHolds) = true → exec .taskStart s = .next begun) ∧
        (g.lockstep = false → (k.conds.all s.condHolds) = false → exec .taskStart s = .next s) ∧
        (g.lockstep = true → (k.notBefore = none ∨ t.place.taskFrom ≤ bound) → (k.conds.all s.condHolds) = true → exec .taskStart s = .next begun) ∧
        (g.lockstep = true → (k.notBefore = none ∨ t.place.taskFrom ≤ bound) → (k.conds.all s.condHolds) = false →
          exec .taskStart s = .next (begun.noteLanding 0x13 0)) ∧
        (g.lockstep = true → k.notBefore ≠ none → bound < t.place.taskFrom → exec .taskStart s = .next (begun.noteLanding 0x11 0)))) ∧
    (∀ g, find s.groups s.args.a = some g → g.tiles = [s.cur] → t.place.lead = s.cur →
      (∀ l r, t.ctl.nopre = false → t.ctl.handler = false → t.ctl.levels = l :: r → l.loopm = true → l.baseIt + l.pass + 1 < l.limit →
        exec .preemptRequest s = .next { s with tile := { t with ctl := { t.ctl with
          preempt := some c, levels := { l with limit := l.baseIt + l.pass + 1, clamped := true } :: r } } }) ∧
      ((t.ctl.nopre = true ∨ t.ctl.handler = true ∨ t.ctl.levels = []) →
        exec .preemptRequest s = .next { s with tile := { t with ctl := { t.ctl with preempt := some c } } }))

/-- The write queue, arrivals of remote operations, timed releases and barriers (R168, R169, R170, R173, R174, R177, R245, R325, R326, R367, R379, R380). The head of a write queue leaves when its cycle has come: a remote operation inside its massif goes to its destination, an arrival to its group, a fence marker when its fence passes, a mark with its partner; an operation that arrives writes its bytes, increments its semaphore and is complete at its source; a timed one waits for its cycle; an arrival counts at its barrier and the last one closes the phase; its releases reach tile k in cycle C + 96 + floor(w × WIN / 16), where w is its massif modulo 16, and each delivers the phase. A port that is busy, and an edge whose slots all belong to others, hold an operation, an arrival or a release until a later cycle. One departure of a queue in a cycle (log 34), the head that traffic without a slot holds back and the cycles of a route (log 35), the numbering of operations for fences (log 69) and the drains that an arrival waits for (log 97) are the model's readings (DEDUCED), and that all words of a remote operation are applied in one event is its choice (log 84, DESIGN CHOICE). -/
def Obligations.NetworkEvents : Prop :=
  ∀ s : State,
    let n := s.args.a
    let t := s.getTile n
    let popped := s.setTile n { t with io := { t.io with writes := t.io.writes.drop 1 } }
    (∀ e r, s.tileExists n = true → t.io.writes = e :: r →
      (s.cycle < e.ready → exec .writeQueueDepart s = .next s) ∧
      (e.ready ≤ s.cycle →
        (∀ o, e.kind = .remote o → s.stuck n = true → exec .writeQueueDepart s = .next s) ∧
        (∀ o, e.kind = .remote o → s.stuck n = false → o.destModule = s.globals.modIdx → massifOf o.dest = massifOf n →
          let far := s.cycle + Sys2Proof.Machine.dist (s.physPos n) (s.physPos o.dest)
          ∃ u, exec .writeQueueDepart s = .next u ∧ u.timers = s.timers ++ [(far, .remoteApply, { Args.none with a := s.nextNum })] ∧
            u.nextNum = s.nextNum + 1 ∧ (u.getTile n).io.writes = r ∧
            ∃ x, u.transit = s.transit ++ [x] ∧ x.op = o ∧ x.seq = s.nextNum ∧ x.piece = s.nextNum ∧ x.ready = far ∧ x.hops = []) ∧
        (∀ o, e.kind = .remote o → s.stuck n = false → o.destModule ≠ s.globals.modIdx →
          ∃ u, exec .writeQueueDepart s = .next u ∧ u.sent = s.sent ∧ u.timers = s.timers ∧ (u.getTile n).io.writes = r ∧
            ∃ x, u.transit = s.transit ++ [x] ∧ x.op = o ∧ x.ready = s.cycle + (popped.route n o).1 ∧ x.hops = (popped.route n o).2) ∧
        (∀ id bar issued mx g x, e.kind = .arrive id bar issued mx → t.place.group = some g → find s.groups g = some x →
          exec .writeQueueDepart s = .next { popped with groups := put s.groups g { x with
            arrivals := x.arrivals ++ [{ tile := n, bar := bar, id := id, issued := issued, ready := s.cycle + 1, mx := mx }] } }) ∧
        (∀ id f, e.kind = .fence id → t.io.fences.find? (fun f => f.id == id) = some f →
          (s.fencePasses t f = false → exec .writeQueueDepart s = .next s) ∧
          (s.fencePasses t f = true → exec .writeQueueDepart s =
            .next (s.setTile n { t with io := { t.io with writes := r }.dropFence id }))) ∧
        (∀ id q l, e.kind = .mark id → t.io.requests = q :: l → q.kind = .mark id → q.ready ≤ s.cycle → exec .writeQueueDepart s =
          .next (s.setTile n { t with io := { t.io with writes := r, requests := l } })))) ∧
    (∀ (y : Transit), s.args.op = none → s.args.flag = false → s.args.bytes = [] → y.op.destModule = s.globals.modIdx →
      s.transit.find? (fun y => y.piece == n) = some y → (∀ z ∈ s.transit, z.seq = y.seq → z.piece = n) → y.hops = [] → y.stalled = false →
      y.ready ≤ s.cycle → s.channelBlocked y = false →
      (s.portHolds y = true → exec .remoteApply s = .next { s with timers := s.timers ++ [(s.cycle + 1, .remoteApply, { Args.none with a := n })] }) ∧
      (s.portHolds y = false → (s.powerOf (massifOf y.op.dest)).state ≠ .off →
      let d := s.getTile y.op.dest
      let v := { s with transit := s.transit.filter (fun z => z.seq != y.seq) }
      ((s.powerOf (massifOf y.op.dest)).holds = true → exec .remoteApply s =
        .next { v with parkedAtEdge := s.parkedAtEdge ++ [(massifOf y.op.dest, .remote y.op)] }) ∧
      ((s.powerOf (massifOf y.op.dest)).holds = false →
        (∀ c, y.op.deliver = some c → s.cycle < c → d.io.timed.length < 64 → exec .remoteApply s =
          .next { v.setTile y.op.dest { d with io := { d.io with timed := d.io.timed ++ [{ deliver := c, seq := s.nextNum, op := y.op }] } } with
            nextNum := s.nextNum + 1, timers := s.timers ++ [(c, .timedRelease, { Args.none with a := y.op.dest, b := s.nextNum })] }) ∧
        (∀ bs, (y.op.kind = .put bs ∨ ∃ k, y.op.kind = .atomic k ∧ d.ecc = [] ∧
            bs = natBytes (aluResult k (d.spad.nat y.op.offset (k.bits / 8))) (k.bits / 8)) →
          (y.op.deliver = none ∨ y.op.deliver = some s.cycle) → y.op.src < 253440 → s.servesLater y.op.dest = false →
          ∃ u, exec .remoteApply s = .next u ∧ u.transit = v.transit ∧ (u.getTile y.op.dest).spad = d.spad.writeCells (cellsAt y.op.offset bs) ∧
            (∀ k, y.op.sem = some k → (rd d.sems k).count.toNat < 0xFFFFFFFF → k < 256 →
              rd (u.getTile y.op.dest).sems k = { rd d.sems k with count := (rd d.sems k).count + 1 }) ∧
            (u.getTile y.op.src).io.remotes = (s.getTile y.op.src).io.remotes.filter (· != y.op.id))))) ∧
    (∀ h, s.tileExists n = true → t.io.timed.find? (fun h => h.seq == s.args.b) = some h →
      let v := s.setTile n { t with io := { t.io with timed := t.io.timed.filter (fun x => x.seq != h.seq) } }
      (s.cycle < h.deliver → exec .timedRelease s = .next s) ∧
      (h.deliver ≤ s.cycle → (s.powerOf (massifOf h.op.dest)).state ≠ .off →
        ((s.powerOf (massifOf h.op.dest)).holds = true → exec .timedRelease s =
          .next { v with parkedAtEdge := v.parkedAtEdge ++ [(massifOf h.op.dest, .remote h.op)] }) ∧
        ((s.powerOf (massifOf h.op.dest)).holds = false →
          (h.op.deliver = some s.cycle ∨
            ((∀ c, h.op.deliver = some c → c ≤ s.cycle) ∧ (v.getTile h.op.dest).portFree s.cycle h.op.banks = true)) →
          exec .timedRelease s = .next (v.applyAt h.op)))) ∧
    (∀ c k : Nat, s.globals.win ≤ 4096 → releaseCycle c s.globals.win k = c + 96 + (k / 384 / 55 * 8 + k % 384 / 48) % 16 * s.globals.win / 16) ∧
    (∀ (g : Group) (e : Arrival), find s.groups n = some g →
      g.arrivals.find? (fun e => e.tile == s.args.b && e.bar == s.args.c) = some e → e.tile < 253440 →
      let bar := e.bar
      let b := rd g.barriers bar
      let left := g.arrivals.filter (fun k => !(k.tile == e.tile && k.bar == bar))
      (s.arrivalWaits e = true → exec .barrierArrival s = .next s) ∧
      (s.arrivalWaits e = false → ∃ u, exec .barrierArrival s = .next u ∧
        (u.getTile e.tile).io.remotes = (s.getTile e.tile).io.remotes.filter (· != e.id) ∧
        (b.count + 1 < b.target → u.timers = s.timers ∧
          u.groups = put s.groups n { g with arrivals := left, barriers := wr g.barriers bar { b with count := b.count + 1 } }) ∧
        (b.target ≤ b.count + 1 →
          u.groups = put s.groups n { g with
            arrivals := left
            barriers := wr g.barriers bar { b with count := 0, phase := b.phase + 1 }
            releases := g.releases ++ g.tiles.map (·, bar) } ∧
          u.timers = s.timers ++ g.tiles.map fun k =>
            (releaseCycle s.cycle s.globals.win k, .barrierRelease, { Args.none with a := n, b := k, c := bar, d := (b.phase + 1).toNat })))) ∧
    (∀ g, find s.groups n = some g →
      let k := s.args.b
      (s.shutIn (massifOf k) 1 none = true → exec .barrierRelease s =
        .next { s with timers := s.timers ++ [(s.cycle + 1, .barrierRelease, s.args)] }) ∧
      (s.shutIn (massifOf k) 1 none = false → g.releases.contains (k, s.args.c) = false → exec .barrierRelease s = .next s) ∧
      (s.shutIn (massifOf k) 1 none = false → g.releases.contains (k, s.args.c) = true → (s.getTile k).place.group = some n → ∃ u, exec .barrierRelease s = .next u ∧
        u.groups = put s.groups n { g with releases := g.releases.erase (k, s.args.c) } ∧
        (u.getTile k).io.lphase = wr (s.getTile k).io.lphase s.args.c (.ofNat 32 s.args.d)))

/-- Kicks, claims, the consumer, completion and the request queue (R229, R231, R233, R245, R283, R285, R286, R287, R288). A kick of a notify page marks its queue and ends WAITING_CONTENT, a claim reads WRIDX and advances it; the consumer takes the index at RDIDX when its stamp matches, fails a packet that its checks refuse, and opens the content window otherwise; the window expires into WAITING_CONTENT and the sweep ends it; a complete packet increments its semaphore and advances DONE, which DONE and STATUS show when the publication has reached every binding; the head of a request queue leaves. That a queue of a port that carries nothing does nothing (log 108), one departure of a request queue in a cycle (log 34), the increment that waits for a switched group (log 39) and the contexts whose packets are consumed (log 41) are the model's readings (DEDUCED). The bindings that each tile holds a copy of (log 31, DESIGN CHOICE), the DONESH that never goes back (log 52, DEDUCED) and slots read as memory (log 68, DESIGN CHOICE) are the model's. -/
def Obligations.QueueEvents : Prop :=
  ∀ s : State,
    let n := s.args.a
    (n < 4096 → s.hostPort = false → exec .kick s = .next s ∧ exec .claim s = .next s) ∧
    (∀ qn q, n < 4096 → s.hostPort = true → s.notifyQueue n s.args.b = some (qn, q) → find s.queues qn = some q →
      (s.args.c = 4 ∨ s.args.c = 8 →
        let k := { q with kickPend := true, windowFrom := none }
        let v := { s with queues := put s.queues qn k }
        (q.state ≠ .waitingContent → exec .kick s = .next v) ∧
        (q.state = .waitingContent → ∀ u bs, v.readSlot qn k q.rdidx = .bytes u bs →
          exec .kick s = .next (u.onQueue qn fun q => { q with state := .active }))) ∧
      (s.args.c ≠ 4 → s.args.c ≠ 8 → exec .kick s = .next s) ∧
      (s.args.c = 8 → q.state ≠ .error → exec .claim s = .next { s with
        sent := s.sent ++ [.readData (natBytes q.wridx 8)], queues := put s.queues qn { q with wridx := q.wridx + 1 } }) ∧
      (s.args.c ≠ 8 → exec .claim s = .next { s with sent := s.sent ++ [.readData (List.replicate s.args.c 0)] })) ∧
    (n < 4096 → s.hostPort = true → s.notifyQueue n s.args.b = none →
      exec .claim s = .next { s with sent := s.sent ++ [.readData (List.replicate s.args.c 0xFF)] } ∧ exec .kick s = .next s) ∧
    ((∀ e ∈ s.queues, e.2.state ≠ .waitingContent) → exec .consumerSweep s = .next s) ∧
    (∀ qn q u bs, s.queues = [(qn, q)] → q.state = .waitingContent → s.readSlot qn q q.rdidx = .bytes u bs → fieldOf bs 63 1 = q.rdidx / 2 ^ q.logSize % 256 →
      s.args.flag = false → exec .consumerSweep s = .next (u.onQueue qn fun q => { q with state := .active })) ∧
    (∀ q, n < 98304 → find s.queues n = some q →
      (∀ c x u bs, q.windowFrom = some c → q.state = .active → q.kickPend = true → find s.contexts q.ctx = some x → x.state.consumes = true →
        c + 1024 ≤ s.cycle → s.readSlot n q q.rdidx = .bytes u bs →
        fieldOf bs 63 1 ≠ q.rdidx / 2 ^ q.logSize % 256 →
        exec .contentWindowExpiry s = .next (u.onQueue n fun q => { q with state := .waitingContent, windowFrom := none })) ∧
      (∀ x, q.kickPend = true → q.state = .active → find s.contexts q.ctx = some x → x.state.consumes = true → q.packets = [] →
        (q.rdidx = q.wridx → exec .packetBegin s = .next { s with queues := put s.queues n { q with kickPend := false } }) ∧
        (q.rdidx ≠ q.wridx → ∀ u bs, s.readSlot n q q.rdidx = .bytes u bs → find u.queues n = some q →
          (fieldOf bs 63 1 ≠ q.rdidx / 2 ^ q.logSize % 256 → exec .packetBegin s =
            .next { u with queues := put u.queues n { q with windowFrom := some (q.windowFrom.getD u.cycle) } }) ∧
          (fieldOf bs 63 1 = q.rdidx / 2 ^ q.logSize % 256 →
            let r := { q with rdidx := q.rdidx + 1, windowFrom := none }
            let v := { u with queues := put u.queues n r }
            let p : Packet :=
             { index := q.rdidx, bytes := bs, cls := pkClass bs, pusher := find q.owners q.rdidx, next := 0, parked := false,
               complete := false, failed := false, waiting := false, held := false, data := [], deadline := u.cycle + 8000000 }
            let w := v.onQueue n fun q => { q with packets := [p] }
            (v.packetReason n r q.rdidx bs = none → exec .packetBegin s = .next (if pkKind bs = 0x10 then
              { w with timers := w.timers ++ [(w.cycle, .launch, { Args.none with a := n, b := q.rdidx })] } else w)) ∧
            (∀ why, v.packetReason n r q.rdidx bs = some why → exec .packetBegin s =
              .next ((v.post (.ofPacket n r q.rdidx p.cls why)).onQueue n fun q => { q with packets := [{ p with complete := true, failed := true }] }))))) ∧
      (∀ p, q.packets.find? (fun p => p.index == s.args.b && p.complete) = some p → q.finished = [] → p.index = q.done →
        pkSemen p.bytes = false ∨ p.failed = true →
        let r := { q with
          done := q.done + 1, packets := q.packets.filter (fun r => r.index != p.index), finished := []
          errCount := if p.failed then min (q.errCount + 1) 0xFFFFFFFF else q.errCount
          owners := q.owners.filter (fun e => decide (q.done + 1 ≤ e.1)) }
        exec .packetCompletion s = .next (State.settle { s with queues := put s.queues n { r with
          pubs := if (q.pubs.getLast?.map fun e : Nat × W64 × Nat => e.1).getD 0 < q.done + 1 then
            q.pubs ++ [(q.done + 1, BitVec.ofNat 64 (r.state.code * 2 ^ 32 + r.errCount), if pkIrq p.bytes then 1 else 0)] else q.pubs } } n)) ∧
      (∀ p t, q.packets.find? (fun p => p.index == s.args.b && p.complete) = some p → pkSemen p.bytes = true → p.failed = false →
        (s.semTargets { ctx := q.ctx, massif := n / 1024, group := p.pusher.map (·.1) } p = .wait → exec .packetCompletion s = .next s) ∧
        (s.semTargets { ctx := q.ctx, massif := n / 1024, group := p.pusher.map (·.1) } p = .tiles [⟨s.globals.modIdx, t⟩] →
          exec .packetCompletion s = .next ((s.increment t (pkSem p.bytes)).finish n p.index false (pkIrq p.bytes))))) ∧
    (∀ q e, s.tileExists n = true → find s.queues s.args.b = some q → q.pubs ≠ [] →
      (q.pubs.find? (fun e => e.1 == s.args.c) = some e ∨ (q.pubs.find? (fun e => e.1 == s.args.c) = none ∧ q.pubs.getLast? = some e)) →
      exec .doneshPublication s = .next ((s.setTile n (
        let t := s.getTile n
        { t with io := { t.io with bindings := t.io.bindings.map fun b =>
          (b.1, if b.2.queue = s.args.b ∧ b.2.donesh.toNat ≤ e.1 then { b.2 with donesh := .ofNat 64 e.1, status := e.2.1 } else b.2) } })).settle
          s.args.b)) ∧
    (∀ qn q, find s.queues qn = some q →
      (∀ d, s.reached qn q d = true ↔ ∀ t ∈ s.tile :: s.tiles.map (·.2), ∀ b ∈ t.io.bindings, b.2.queue = qn → b.2.life = q.life →
        d ≤ b.2.donesh.toNat) ∧
      let due := q.pubs.filter fun e => decide (q.doneReg < e.1) && s.reached qn q e.1
      (due = [] → s.settle qn = s) ∧
      ∀ e, due.getLast? = some e →
        let u := s.settle qn
        find u.queues qn = some { q with doneReg := e.1, errReg := e.2.1.toNat % 2 ^ 32 } ∧ u.dev = s.dev ∧ u.contexts = s.contexts ∧
          ((due.map (·.2.2)).sum = 0 → u.sent = s.sent ∧ u.pba = s.pba)) ∧
    (let t := s.getTile n
     ∀ e r, s.tileExists n = true → t.io.requests = e :: r →
      let popped := s.setTile n { t with io := { t.io with requests := r } }
      (s.cycle < e.ready → exec .requestQueueDepart s = .next s) ∧
      (e.ready ≤ s.cycle →
        (∀ qn q, e.kind = .kick qn → find s.queues qn = some q →
          let k := { q with kickPend := true, windowFrom := none }
          let v := { popped with queues := put s.queues qn k }
          (q.state ≠ .waitingContent → exec .requestQueueDepart s = .next v) ∧
          (q.state = .waitingContent → ∀ u bs, v.readSlot qn k q.rdidx = .bytes u bs →
            exec .requestQueueDepart s = .next (u.onQueue qn fun q => { q with state := .active }))) ∧
        (∀ id qn index bs q, e.kind = .push id qn index bs → find s.queues qn = some q → q.state = .active ∨ q.state = .waitingContent →
          let i := index.getD q.wridx
          let v := { s with queues := put s.queues qn { q with
            wridx := max q.wridx (i + 1)
            owners := if (find q.owners i).isSome then q.owners else put q.owners i (t.place.group.getD 0, t.place.rank) } }.setTile n
              { t with io := t.io.claimed id i }
          (q.rdidx + 2 ^ q.logSize ≤ i →
            (index = none → exec .requestQueueDepart s = .next v) ∧ (index ≠ none → exec .requestQueueDepart s = .next s)) ∧
          (i < q.rdidx + 2 ^ q.logSize → ∀ u a, v.translate q.ctx (q.base + 64 * (i % 2 ^ q.logSize)) true = .ok u a → u.reach 0 a = .ok u () →
            let w := u.dpaWrite a (tilePacket bs (((find u.contexts q.ctx).map (·.pasid)).getD 0) (i / 2 ^ q.logSize % 256))
            let x := w.getTile n
            exec .requestQueueDepart s = .next ((w.setTile n { x with io := { x.io with requests := x.io.requests.drop 1 } }).onQueue qn fun q =>
              { q with pushes := q.pushes - 1 }))) ∧
        (∀ id f, e.kind = .fence id → t.io.fences.find? (fun f => f.id == id) = some f →
          (s.fencePasses t f = false → exec .requestQueueDepart s = .next s) ∧
          (s.fencePasses t f = true → exec .requestQueueDepart s =
            .next (s.setTile n { t with io := { t.io with requests := r }.dropFence id }))) ∧
        (∀ id w l, e.kind = .mark id → t.io.writes = w :: l → w.kind = .mark id → w.ready ≤ s.cycle → exec .requestQueueDepart s =
          .next (s.setTile n { t with io := { t.io with writes := l, requests := r } }))))

/-- Copies, fills, multicasts, ordering packets, prefetches and migrations (R45, R234, R235, R237, R238, R239, R240, R320, R343, R359, R379, R380). COPY, TILE2D and MCAST2D between places of tiles of this module, over any number of granules, runs and blocks, make the bytes of their destinations the bytes of the source that the packet's geometry gives, and leave every other byte of the destination tile: all of them at once or, when a network port meets a second word of a bank in the cycle, a first part, which the packet keeps count of with what it has read, and the rest from the next cycle on. COPY and FILL of one granule read and write device memory at the translated address; FILL and SIGNAL of one granule write their pattern, and COPY and FILL write a whole bundle of an instruction memory; an access to a group that is switched, or to a massif in retention, leaves the packet where it stands; FENCE, MARK and SIGNAL wait for every earlier packet; PREFETCH translates and moves nothing; MIGRATE moves a PRESENT page to its new frame, with its sixteen entries when it is a 64 KiB page. (The granules, and the writes of a cycle in one event, are the model's choice: logs 38 and 84; the wait of a switched group is log 39, the best-effort edges that an engine needs log 35, the sixteen entries of a block log 94.) -/
def Obligations.DataPackets : Prop :=
  ∀ (s : State) (qn : Nat) (q : Queue) (p : Packet), s.args.a < 98304 →
    let e := engineOf qn q p
    let a := pkSrc p
    let d := pkDst p
    let m := qn / 1024
    let is := fun (k : Nat) => s.running (· == k) = some (qn, q, p)
    let done := fun (u : State) => (Host.Outcome.next (u.packetDone qn p.index false) : Out)
    let reaches := fun (u : State) (t : Nat) => u.resolve e (a.ty == 2) a.x a.y = .tile ⟨u.globals.modIdx, t⟩ ∧
      (u.powerOf (massifOf t)).holds = false ∧ u.shutBetween m (massifOf t) = false ∧ u.shutBetween (massifOf t) m = false
    let source := fun (t : Nat) => a.ty ≠ 0 ∧ a.imem = false ∧ reaches s t ∧ (s.getTile t).ecc = []
    let lands := fun (u : State) (x y t : Nat) => d.ty ≠ 0 ∧ u.resolve e (d.ty == 2) x y = .tile ⟨u.globals.modIdx, t⟩ ∧
      (u.powerOf (massifOf t)).state ≠ .off ∧ (u.powerOf (massifOf t)).holds = false ∧ u.shutBetween m (massifOf t) = false
    let target := fun (u : State) (x y t : Nat) => d.imem = false ∧ lands u x y t
    let short := fun (x : Endp) (n : Nat) => 1 ≤ n ∧ (if x.ty = 0 then x.va else x.off) % 64 + n ≤ 64
    -- the network port of a tile serves the words of `n` bytes at an offset in this cycle
    let free := fun (u : State) (t o n : Nat) => (u.getTile t).portFree s.cycle (spanBanks o n) = true
    let use := fun (u : State) (t o n : Nat) => u.setTile t ((u.getTile t).takePort s.cycle (spanBanks o n))
    let wrote := fun (u : State) (t : Nat) (bs : List Byte) => u.setTile t ((u.getTile t).writeSpad (cellsAt d.off bs))
    let wroteCode := fun (u : State) (t : Nat) (bs : List Byte) => u.setTile t ((u.getTile t).writeImem s.cycle (cellsAt d.off bs))
    let written := fun (u : State) (t : Nat) (bs : List Byte) => done (use (wrote u t bs) t d.off bs.length)
    let stops := fun (u : State) => (Host.Outcome.next ((u.onPacket qn p.index fun p => { p with parked := false, held := true, next := 0, data := [] }).onQueue qn fun q =>
            { q with packets := q.packets.map fun r =>
              if p.index < r.index ∧ r.cls = p.cls ∧ !r.complete ∧ pkKind r.bytes ≠ 0x10 then { r with waiting := true } else r }) : Out)
    -- byte j of the transfer is that at offset `from_ j` of tile `ta`; `back k` is the byte that goes to offset k of tile `td`
    let moves := fun (i : Instr) (ta td total : Nat) (from_ : Nat → Nat) (back : Nat → Option Nat) =>
      ∃ (u : State) (n : Nat) (dat : List Byte), n + dat.length ≤ total ∧
        exec i s = (if n = total then done u else .next (u.packetLater qn p n dat)) ∧
        u.dev = s.dev ∧ (∀ t, t ≠ ta → t ≠ td → u.getTile t = s.getTile t) ∧ (u.getTile ta).spad = (s.getTile ta).spad ∧
        dat = (List.range dat.length).map (fun j => (s.getTile ta).spad.read (from_ (n + j))) ∧
        (0 < total → (s.getTile ta).portBanks s.cycle = [] → (s.getTile td).portBanks s.cycle = [] → 0 < n + dat.length) ∧
        ∀ k, (u.getTile td).spad.read k = match (back k).filter (fun j => decide (j < n)) with
          | some j => (s.getTile ta).spad.read (from_ j)
          | none => (s.getTile td).spad.read k
    (p.next = 0 → p.data = [] →
      (∀ ta td, ta ≠ td → source ta → target s d.x d.y td → (s.getTile td).spad.wf = true →
        (is 0x01 → pkVer p.bytes = 1 → let n := fieldOf p.bytes 24 8
          moves .copyV1 ta td n (fun j => a.off + j) fun k => if d.off ≤ k ∧ k < d.off + n then some (k - d.off) else none) ∧
        (∀ (A B C : Dim) (back : Nat → Option (Nat × Nat)), is 0x01 → pkVer p.bytes = 2 → copyDims p.bytes = [A, B, C] →
          let n := fieldOf p.bytes 24 4
          let at_ := fun (f : Dim → Int) (i : Nat) => ((i % A.n : Nat) : Int) * f A + ((i / A.n % B.n : Nat) : Int) * f B + ((i / A.n / B.n % C.n : Nat) : Int) * f C
          let lies := fun (k i b : Nat) => i < A.n * B.n * C.n ∧ b < n ∧ ((d.off : Int) + (at_ Dim.ds i + b)).toNat = k
          (∀ i b, i < A.n * B.n * C.n → b < n → 0 ≤ (a.off : Int) + (at_ Dim.ss i + b) ∧ 0 ≤ (d.off : Int) + (at_ Dim.ds i + b)) →
          (∀ k i b, back k = some (i, b) ↔ lies k i b) →
          moves .copyV2 ta td (n * (A.n * B.n * C.n)) (fun j => ((a.off : Int) + (at_ Dim.ss (j / n) + (j % n : Nat))).toNat)
            fun k => (back k).map fun x => x.1 * n + x.2) ∧
        (is 0x02 → let t := tile2d p.bytes
          1 ≤ t.tw → t.tw * t.es ≤ t.dp →
          moves .tile2d ta td (t.th * t.tw * t.es)
            (fun j => a.off + clampTo (t.row0 + (j / t.es / t.tw : Nat)) t.h * t.sp + clampTo (t.col0 + (j / t.es % t.tw : Nat)) t.w * t.es + j % t.es)
            fun k =>
              let o := k - d.off
              let r := o / t.dp
              let c := o % t.dp / t.es
              if d.off ≤ k ∧ r < t.th ∧ c < t.tw then some ((r * t.tw + c) * t.es + o % t.dp % t.es) else none) ∧
        (∀ x y, is 0x04 → mcastTiles p.bytes d = [(x, y)] → d.x = x → d.y = y → let n := fieldOf p.bytes 32 4
          moves .mcast2d ta td n (fun j => a.off + j) fun k => if d.off ≤ k ∧ k < d.off + n then some (k - d.off) else none)) ∧
      (∀ ta x y z w tx tz, is 0x04 → mcastTiles p.bytes d = [(x, y), (z, w)] → source ta → short a (fieldOf p.bytes 32 4) →
        short d (fieldOf p.bytes 32 4) → target s x y tx → target s z w tz →
        let n := fieldOf p.bytes 32 4
        let bs := (s.getTile ta).spad.bytes a.off n
        let v := use s ta a.off n
        free s ta a.off n → free v tx d.off n → free v tz d.off n →
        exec .mcast2d s = done (use (use (wrote (wrote v tx bs) tz bs) tx d.off n) tz d.off n)) ∧
      (∀ u da td, is 0x01 → pkVer p.bytes = 1 → a.ty = 0 → short a (fieldOf p.bytes 24 8) → short d (fieldOf p.bytes 24 8) →
        s.translate q.ctx (a.va % 2 ^ 57) false = .ok u da → u.shutIn m 0 none = false → u.shutIn m 1 none = false → u.reach 0 da = .ok u () →
        let v := u.countAccess q.ctx m da
        let bs := v.dpaBytes da (fieldOf p.bytes 24 8)
        v.devEcc = [] →
        (target v d.x d.y td → free v td d.off bs.length → exec .copyV1 s = written v td bs) ∧
        (lands v d.x d.y td → d.imem = true → bs.length = 32 → d.off % 32 = 0 → exec .copyV1 s = done (wroteCode v td bs))) ∧
      (∀ ta u da, is 0x01 → pkVer p.bytes = 1 → source ta → short a (fieldOf p.bytes 24 8) → d.ty = 0 → short d (fieldOf p.bytes 24 8) →
        let v := use s ta a.off (fieldOf p.bytes 24 8)
        free s ta a.off (fieldOf p.bytes 24 8) →
        v.translate q.ctx (d.va % 2 ^ 57) true = .ok u da → u.shutIn m 0 none = false → u.reach 0 da = .ok u () →
        exec .copyV1 s = done ((u.countAccess q.ctx m da).dpaWrite da ((s.getTile ta).spad.bytes a.off (fieldOf p.bytes 24 8)))) ∧
      (∀ u da, is 0x05 → d.ty = 0 → short d (fieldOf p.bytes 24 8) → s.translate q.ctx (d.va % 2 ^ 57) true = .ok u da →
        u.shutIn m 0 none = false → u.reach 0 da = .ok u () →
        exec .fill s = done ((u.countAccess q.ctx m da).dpaWrite da
          ((List.range (fieldOf p.bytes 24 8)).map fun k => (p.bytes.drop (8 + k % 8)).headD 0))) ∧
      (is 0x01 → pkVer p.bytes = 1 → a.ty ≠ 0 → s.resolve e (a.ty == 2) a.x a.y = .wait → 1 ≤ fieldOf p.bytes 24 8 →
        exec .copyV1 s = stops s) ∧
      (∀ td, is 0x05 → target s d.x d.y td → short d (fieldOf p.bytes 24 8) →
        (free s td d.off (fieldOf p.bytes 24 8) →
          exec .fill s = written s td ((List.range (fieldOf p.bytes 24 8)).map fun k => (p.bytes.drop (8 + k % 8)).headD 0)) ∧
        (¬ free s td d.off (fieldOf p.bytes 24 8) → exec .fill s = .next (s.packetLater qn p 0 []))) ∧
      (∀ td, is 0x05 → lands s d.x d.y td → d.imem = true → fieldOf p.bytes 24 8 = 32 → d.off % 32 = 0 →
        exec .fill s = done (wroteCode s td ((List.range 32).map fun k => (p.bytes.drop (8 + k % 8)).headD 0))) ∧
      (is 0x05 → 1 ≤ fieldOf p.bytes 24 8 → d.ty ≠ 0 → s.resolve e (d.ty == 2) d.x d.y = .wait → exec .fill s = stops s) ∧
      (∀ t, is 0x05 → 1 ≤ fieldOf p.bytes 24 8 → d.ty ≠ 0 → s.resolve e (d.ty == 2) d.x d.y = .tile ⟨s.globals.modIdx, t⟩ →
        (s.powerOf (massifOf t)).holds = true → s.parkedAtEdge = [] →
        exec .fill s = stops { s with parkedAtEdge := [(massifOf t, .packet qn p.index)] }) ∧
      (∀ td, is 0x09 → find s.queues s.args.a = some q → q.earlierDone p.index = true → target s d.x d.y td → short d 8 → free s td d.off 8 →
        exec .signal s = written s td ((List.range 8).map fun k => (p.bytes.drop (8 + k)).headD 0)) ∧
      (∀ u t, is 0x0B → 1 ≤ fieldOf p.bytes 16 8 → a.va % 4096 + fieldOf p.bytes 16 8 ≤ 4096 → s.translate q.ctx (a.va % 2 ^ 57) false = .ok u t →
        exec .prefetch s = done u)) ∧
    (is 0x0B → fieldOf p.bytes 16 8 = 0 → exec .prefetch s = done s) ∧
    (find s.queues s.args.a = some q →
      (is 0x07 → exec .packetFence s = if q.earlierDone p.index then done s else .next s) ∧
      (is 0x08 → exec .mark s = if q.earlierDone p.index then done s else .next s) ∧
      (is 0x09 → q.earlierDone p.index = false → exec .signal s = .next s)) ∧
    (∀ x u addr, is 0x0A →
      let gpa := fieldOf p.bytes 8 8
      let c := fieldOf p.bytes 16 2
      let level := fieldOf p.bytes 18 1
      let frame := fieldOf p.bytes 24 8
      c < 1024 → find s.contexts c = some x → level ≤ 2 → gpa % pageSize level = 0 → frame % pageSize level = 0 → gpa < 2 ^ 48 →
      s.path c x 2 gpa level = .entry u addr →
      let v := u.dpaNat addr 8
      let leaves := (u.pageLeaves level addr v).1
      let size := (u.pageLeaves level addr v).2
      let old := leaves.length * u.entryHbm 2 level v
      let new := leaves.length * u.entryHbm 2 level (frame + 3)
      v % 4 = 3 → entryMalformed 2 level v = false → u.blockAt q.ctx 0 gpa level addr v = .ok u () →
      (level ≠ 0 ∨ v.testBit 5 = false → leaves = [addr] ∧ size = pageSize level) ∧
      (level = 0 → v.testBit 5 = true → (∀ i < 16, let w := u.dpaNat (addr / 128 * 128 + 8 * i) 8; w.testBit 5 = true ∧ w % 4 = 3) →
        leaves = (List.range 16).map (fun i => addr / 128 * 128 + 8 * i) ∧ size = 2 ^ 16) ∧
      (gpa % size = 0 → frame % size = 0 → u.dpa frame ≠ .bad → u.reachAll 0 (entryAddr v / size * size) size = .ok u () →
        u.reachAll 0 frame size = .ok u () → u.devEcc = [] → new ≤ old →
        let t := u.dpaWrite frame (u.dpaBytes (entryAddr v / size * size) size)
        exec .migrate s = done ((leaves.foldl (fun t leaf =>
          let w := t.dpaNat leaf 8
          (t.dpaWrite leaf (natBytes (w - entryAddr w + frame + entryAddr w % size) 8)).dropCached c 2 level gpa leaf) t).addHbm c ((new : Int) - old))))

/-- Queue commands and interfaces (R280, R281, R282, R289, R290). CREATE of a FREE record that passes its checks charges its slots and stamps them, which makes the queue ACTIVE, or MALFORMED with the slots returned where a stamp meets a translation fault; DESTROY of a quiet queue frees it, RESET returns one from ERROR; a command is ignored while BUSY is set, which a stamp that a pull holds leaves set; one in a wrong state is BADSTATE and one with a reserved bit MALFORMED; BIND, REVOKE and RELEASE move an interface along its states; a REVOKE cuts off its interrupt entries and its host queues enter ERROR, and it is REVOKED when no begun packet is left. That a CREATE which a pull holds is tried again in the next cycle with BUSY set (log 98) and that a command over a port that carries nothing does nothing (log 108) are the model's readings (DEDUCED). -/
def Obligations.QueueControl : Prop :=
  ∀ s : State,
    let n := s.args.a
    let q := s.queue n
    let x := s.interface n
    let cut := (s.queues.filter fun e => e.2.state != .free && e.2.hostq && e.2.iface == n).map (·.1)
    let named := s.queues.any fun e => e.2.state != .free && e.2.iface == n
    let busy := s.queues.any fun e => e.2.state != .free && e.2.hostq && e.2.iface == n && e.2.packets.any fun p => !p.waiting
    let ended := fun (r : Nat) => (Host.Outcome.next { s with queues := put s.queues n { q with qres := r } } : Out)
    let iface := fun (y : Interface) => (Host.Outcome.next { s with interfaces := put s.interfaces n y } : Out)
    let stamps := fun (v : State) (from_ : Nat) => ∀ u k bad, v.stampSlots q (2 ^ q.logSize - from_) from_ = (u, k, bad) →
      exec .queueCreate s = .next (
        if bad then
          let w := u.addQslots q.ctx (-((2 ^ q.logSize : Nat) : Int))
          { w with queues := put w.queues n { q with qres := 3 } }
        else if k < 2 ^ q.logSize then
          { u with
            queues := put u.queues n { q with qres := 2 ^ 8 }
            timers := u.timers ++ [(u.cycle + 1, .queueCreate, { Args.none with a := n, b := k, flag := true })] }
        else { u with queues := put u.queues n { Queue.zero with
          state := .active, base := q.base, logSize := q.logSize, qflags := q.qflags, ctx := q.ctx, intf := q.intf, qsel := q.qsel, qres := 0,
          charged := true, life := q.life + 1 } })
    (n < 98304 → s.args.flag = true → (q.busy = false → exec .queueCreate s = .next s) ∧ (q.busy = true → stamps s s.args.b)) ∧
    (n < 98304 → s.args.flag = false → s.hostPort = false →
      exec .queueCreate s = .next s ∧ exec .queueDestroy s = .next s ∧ exec .queueReset s = .next s) ∧
    (n < 98304 → s.args.flag = false → s.hostPort = true →
      (q.busy = true → exec .queueCreate s = .next s ∧ exec .queueDestroy s = .next s ∧ exec .queueReset s = .next s) ∧
      (q.busy = false → 4 ≤ s.args.c → exec .queueCreate s = ended 3 ∧ exec .queueDestroy s = ended 3 ∧ exec .queueReset s = ended 3) ∧
      (q.busy = false → s.args.c = 1 →
        (q.state ≠ .free → exec .queueCreate s = ended 1) ∧ (q.state = .free → s.descriptorOk q = false → exec .queueCreate s = ended 3) ∧
        (q.state = .free → s.descriptorOk q = true → s.bindOk n q = false → exec .queueCreate s = ended 4) ∧
        (q.state = .free → s.descriptorOk q = true → s.bindOk n q = true → s.fits 0x2C 4 s.effQslots (2 ^ q.logSize) (s.ctxPath q.ctx) = false →
          exec .queueCreate s = ended 2) ∧
        (q.state = .free → s.descriptorOk q = true → s.bindOk n q = true → s.fits 0x2C 4 s.effQslots (2 ^ q.logSize) (s.ctxPath q.ctx) = true →
          stamps (s.addQslots q.ctx (2 ^ q.logSize : Nat)) 0)) ∧
      (q.busy = false → s.args.c = 2 →
        ((q.state = .active ∨ q.state = .error) ∧ q.doneReg = q.wridx ∧ q.pushes = 0 →
          let v := if q.charged then s.addQslots q.ctx (-((2 ^ q.logSize : Nat) : Int)) else s
          exec .queueDestroy s = .next { v with queues := put v.queues n { Queue.zero with
            base := q.base, logSize := q.logSize, qflags := q.qflags, ctx := if q.ctx = 2 ^ 16 then q.regCtx else q.ctx, intf := q.intf,
            qsel := q.qsel, qres := 0, life := q.life } }) ∧
        (¬((q.state = .active ∨ q.state = .error) ∧ q.doneReg = q.wridx ∧ q.pushes = 0) → exec .queueDestroy s = ended 1)) ∧
      (q.busy = false → s.args.c = 3 →
        (q.state = .error → exec .queueReset s = .next { s with queues := put s.queues n { q with state := .active, revoked := false, qres := 0 } }) ∧
        (q.state ≠ .error → exec .queueReset s = ended 1))) ∧
    (n < 4096 → s.hostPort = true →
      (x.state ≠ 0 → exec .interfaceBind s = iface { x with ires := 1 }) ∧
      (x.state = 0 → ∀ c, find s.contexts x.ctx = some c → c.state ≠ .free →
        (c.pasid ≠ x.pasid → exec .interfaceBind s = iface { x with ires := 3 }) ∧
        (c.pasid = x.pasid → (x.iflags.testBit 0 = false ∨ s.ctxHvpriv x.ctx = true) →
          exec .interfaceBind s = iface { x with state := 1, ires := 0, bound := (x.ctx, x.pasid, x.iflags.testBit 0) })) ∧
      (x.state ≠ 1 → exec .interfaceRevoke s = iface { x with ires := 1 }) ∧
      (x.state = 1 →
        let v := cut.foldl (fun v q => v.enterError q true)
          { s with interfaces := put s.interfaces n { x with state := 2, ires := 0, irq := x.irq.map (· &&& 0x7FFFFFFF) } }
        exec .interfaceRevoke s = .next { v with timers := v.timers ++ [(s.cycle, .interfaceRevoked, { Args.none with a := n })] }) ∧
      (∀ qn y r, find s.queues qn = some y →
        (y.state = .free ∨ y.state = .error → s.enterError qn r = s) ∧
        (y.state ≠ .free → y.state ≠ .error → (∀ p ∈ y.packets, p.parked = false ∧ p.waiting = false) → y.wridx ≤ y.rdidx →
          let z := { y with state := .error, revoked := r, windowFrom := none }
          s.enterError qn r = ({ s with queues := put s.queues qn z }).signal z)) ∧
      (x.state = 2 → busy = false → exec .interfaceRevoked s = iface { x with state := 3 }) ∧
      (x.state = 2 → busy = true → exec .interfaceRevoked s = .next s) ∧
      (x.state = 3 → named = false → exec .interfaceRelease s = iface { x with state := 0, ires := 0, bound := (0, 0, false) }) ∧
      ((x.state ≠ 3 ∨ named = true) → exec .interfaceRelease s = iface { x with ires := 1 }))

/-- Launches, checks and placement decisions (R296, R298, R299, R300, R301, R304, R306). A LAUNCH packet becomes a launch with the packet's fields and starts its context; a launch whose predecessors are DONE moves to CHECK, one with a FAILED predecessor fails; a checked launch is measured, patched and waits for a place; a decision that places a candidate is followed by another, and it makes the group record. The context that runs from the LAUNCH event on (log 41), DEP_FAILED ahead of DEP_LATE (log 47) and the numbering of launches (log 95) are the model's readings (DEDUCED). -/
def Obligations.LaunchEvents : Prop :=
  ∀ s : State,
    let n := s.args.a
    (∀ q p x, n < 98304 → find s.queues n = some q →
      q.packets.find? (fun p => p.index == s.args.b && pkKind p.bytes == 0x10 && !p.waiting && !p.parked && !p.complete) = some p →
      s.launchOf n p.index = none → find s.contexts q.ctx = some x → x.state.consumes = true →
      let bs := p.bytes
      let preds := ([44, 48, 52, 56].map fun o => fieldOf bs o 4).filter (· != 0)
      let l : Launch :=
        { state := .waitDep, queue := n, index := p.index, ctx := q.ctx, image := fieldOf bs 8 8, args := fieldOf bs 16 8,
          seed := .ofNat 64 (fieldOf bs 24 8), kseq := fieldOf bs 32 4, tiles := fieldOf bs 36 4 % 2 ^ 20, minTiles := fieldOf bs 40 4 % 2 ^ 20,
          gw := fieldOf bs 36 4 / 2 ^ 20 % 2 ^ 12, preds := preds, prio := min (fieldOf bs 60 1 % 8) (s.effPrio (s.ctxPath q.ctx)),
          shrink := (fieldOf bs 60 1).testBit 3, kernel := none, group := none, passes := 0, seq := s.nextNum }
      let u := { s with
        nextNum := s.nextNum + 1
        launches := put s.launches s.nextNum l
        contexts := put s.contexts q.ctx { x with state := if x.state = .created then .running else x.state } }
      ((∀ k ∈ preds, x.predecessor k = some true) →
        exec .launch s = .next { u with timers := s.timers ++ [(s.cycle, .launchDepsMet, { Args.none with a := s.nextNum })] }) ∧
      ((∃ k ∈ preds, x.predecessor k ≠ some true) → (∀ k ∈ preds, x.predecessor k ≠ some false) → s.effLockstep (s.ctxPath q.ctx) = false →
        exec .launch s = .next u) ∧
      (∀ k, preds.find? (fun k => x.predecessor k == some false) = some k → exec .launch s = .next (u.launchFails s.nextNum l 0x55 k)) ∧
      (∀ k, (∀ k ∈ preds, x.predecessor k ≠ some false) → preds.find? (fun k => x.predecessor k != some true) = some k →
        s.effLockstep (s.ctxPath q.ctx) = true → exec .launch s = .next (u.launchFails s.nextNum l 0x54 k))) ∧
    (∀ l x, find s.launches n = some l → find s.contexts l.ctx = some x → l.state = .waitDep → x.state = .running →
      ((∀ k ∈ l.preds, x.predecessor k = some true) → exec .launchDepsMet s = .next { s with
        launches := put s.launches n { l with state := .check }
        timers := s.timers ++ [(s.cycle, .launchCheck, { Args.none with a := n })] }) ∧
      ((∀ k ∈ l.preds, x.predecessor k ≠ some false) → (∃ k ∈ l.preds, x.predecessor k ≠ some true) → exec .launchDepsMet s = .next s) ∧
      (∀ k, l.preds.find? (fun k => x.predecessor k == some false) = some k → exec .launchDepsMet s = .next (s.launchFails n l 0x55 k))) ∧
    (∀ l q x p, find s.launches n = some l → find s.queues l.queue = some q → find s.contexts l.ctx = some x →
      q.packets.find? (fun p => p.index == l.index) = some p → l.state = .check → x.state = .running → p.parked = false → q.turn p = true →
      (∀ u k img, s.checkLaunch n l p.bytes = .ok u k img →
        let v := u.measureImage l.ctx img
        exec .launchCheck s = .next { v with
          nextNum := v.nextNum + 1
          launches := put v.launches n { l with state := .waitPlace, kernel := some k, seq := v.nextNum }
          timers := v.timers ++ [(v.cycle, .placementDecision, .none)] }) ∧
      (∀ u r d, s.checkLaunch n l p.bytes = .fail u r d → exec .launchCheck s = .next (u.launchFails n l r d))) ∧
    (∀ u ts, s.runDecision [] = (u, some ts) →
      exec .placementDecision s = .next { u with timers := u.timers ++ [(u.cycle, .placementDecision, .none)] }) ∧
    (s.candidates = [] → exec .placementDecision s = .next s) ∧
    (∀ (c : Cand) (size gw : Nat) (ts : List Nat) (l : Launch) (k : Kernel), c.isGroup = false → find s.launches c.num = some l → l.kernel = some k →
      let u := s.takeTiles c size gw ts
      u.nextNum = s.nextNum + 1 ∧ find u.launches c.num = some { l with state := .loading, group := some s.nextNum, passes := 0 } ∧
        ∃ g, find u.groups s.nextNum = some g ∧ g.state = .loading ∧ g.tiles = ts ∧ g.size = size ∧ g.gw = gw ∧ g.kernel = k ∧ g.launch = c.num)

/-- Groups: loading, slices, the watchdog, the end, saving, resuming and teardown (R254, R298, R302, R304, R314, R315, R316, R318, R375, R376). A loaded group runs from its start cycle; a launch whose tiles have ended and whose operations are complete is DONE and its group ENDED; at the end of a slice a group that another candidate displaces is pre-empted and any other gets a new slice; a group whose tiles have all stopped is saved and SWITCHED, and a resumed one runs; a context with no running group is SUSPENDED; a teardown makes its contexts FAULTED and discards their groups, and the ring of every other context of the domain names each origin. The start cycle counted from the cycle after the event (log 48), the decision at a slice's end (log 49) and the size of a saved image (log 53) are the model's readings (DEDUCED). -/
def Obligations.GroupEvents : Prop :=
  ∀ s : State,
    let n := s.args.a
    (∀ g l x, find s.groups n = some g → find s.launches g.launch = some l → find s.contexts g.ctx = some x → x.state = .running → g.state = .loading →
      l.ctx = g.ctx → l.state = .loading →
      (s.ownTiles n g ≠ g.tiles → exec .groupLoaded s = .next s) ∧
      (s.ownTiles n g = g.tiles →
      let s0 := s.startCycle g g.lockstep (s.cycle + 1)
      ∃ u e, exec .groupLoaded s = .next u ∧ find u.groups n = some { g with s0 := s0, state := .running, sliceEnd := e } ∧
        find u.launches g.launch = some { l with state := .running } ∧
        (∀ t, g.tiles = [t] → g.size = 1 → (u.getTile t).place = placeFor n { g with s0 := s0 } l.kseq 0 ∧ (u.getTile t).ctl.nextIssue = s0 ∧
          (u.getTile t).csr.seed = l.seed ∧ (u.getTile t).regs.s = Vector.replicate 64 0))) ∧
    (∀ g l gid, find s.launches n = some l → l.group = some gid → find s.groups gid = some g → l.state = .running → g.state = .running →
      (∀ t ∈ g.tiles, (s.getTile t).finished = true ∧ s.outboundDone (s.getTile t) = true ∧ (s.getTile t).io.stores = [] ∧
        (s.getTile t).io.amos = [] ∧ (s.getTile t).io.inbound = []) →
      ∃ u images, exec .launchDone s = .next u ∧ images.length = g.saved.length ∧
        find u.groups gid = some { g with state := .ended, tiles := [], arrivals := [], releases := [], saved := images } ∧
        find u.launches n = some { l with state := .done } ∧
        (∀ t, g.tiles = [t] → (u.getTile t).csr = (s.getTile t).csr ∧ (u.getTile t).frame = (s.getTile t).frame ∧ (u.getTile t).lat = (s.getTile t).lat ∧
          (u.getTile t).regs = (s.getTile t).regs ∧ (u.getTile t).mx = (s.getTile t).mx ∧ (u.getTile t).spad = (s.getTile t).spad ∧
          (u.getTile t).place.status = .idle)) ∧
    (∀ g, find s.groups n = some g → g.state = .running →
      (s.cycle < g.sliceEnd → exec .sliceEnd s = .next s) ∧
      (g.sliceEnd ≤ s.cycle →
        (∀ u, s.runDecision g.tiles = (u, none) → exec .sliceEnd s = .next (u.grantSlice n)) ∧
        (∀ u ts, s.runDecision g.tiles = (u, some ts) → ts.any g.tiles.contains = false →
          exec .sliceEnd s = .next { u.grantSlice n with timers := (u.grantSlice n).timers ++ [((u.grantSlice n).cycle, .placementDecision, .none)] }) ∧
        (∀ u ts h, s.runDecision g.tiles = (u, some ts) → ts.any g.tiles.contains = true → find u.groups n = some h → h.state = .running →
          exec .sliceEnd s = .next { u with
            groups := put u.groups n { h with state := .preempting, preemptAt := some u.cycle, haltMax := 0 }
            timers := u.timers ++ [(u.cycle, .preemptRequest, { Args.none with a := n }), (u.cycle + 51200, .watchdog, { Args.none with a := n }),
              (u.cycle, .placementDecision, .none)] }))) ∧
    (∀ g c, find s.groups n = some g → g.state = .preempting → g.preemptAt = some c → c + 51200 ≤ s.cycle → g.tiles = [s.cur] →
      (s.tile.place.status = .halted ∨ s.tile.place.status = .ended → exec .watchdog s = .next s) ∧
      (s.tile.place.status ≠ .halted → s.tile.place.status ≠ .ended →
        let at_ := s.tile.ctl.here
        (s.tile.ctl.inHandler s.cycle = false → exec .watchdog s = .next (s.fatalAt 0x1A 0 at_)) ∧
        (s.tile.ctl.inHandler s.cycle = true → exec .watchdog s = .next (s.fatalAt 0x18 0x1A at_)))) ∧
    (∀ g, find s.groups n = some g → g.state = .preempting → (∀ t ∈ g.tiles, s.savable t = true) → g.arrivals = [] → g.releases = [] →
      let v := g.tiles.foldl State.readMarked (s.renameSources g.tiles (savedTiles n g.size))
      ∃ u k, exec .groupSave s = .next u ∧ find u.groups n = some { g with
        state := .switched, tiles := [], saved := g.tiles.map v.getTile, preemptAt := none, seq := k, passes := 0 }) ∧
    (∀ g x, find s.groups n = some g → g.state = .resuming → find s.contexts g.ctx = some x → x.state = .running →
      (s.ownTiles n g ≠ g.tiles → exec .groupResume s = .next s) ∧
      (s.ownTiles n g = g.tiles → let s1 := s.startCycle g false (s.cycle + 1)
      ∃ u e, exec .groupResume s = .next u ∧
        find u.groups n = some { g with s0 := s1 + g.s0 - g.haltMax, saved := [], state := .running, sliceEnd := e })) ∧
    (∀ x, n < 1024 → find s.contexts n = some x → x.state = .suspending → s.packetsQuiet n = true →
      (∀ e ∈ s.groups, e.2.ctx = n → e.2.state = .switched ∨ e.2.state = .ended ∨ e.2.state = .discarded) → s.pendingCommand 0x2C n = none →
      exec .contextSuspended s = .next { s with contexts := put s.contexts n { x with state := .suspended } }) ∧
    (∀ d x, n < 1024 → s.faultDomain n = some d → s.contexts = [(n, x)] → x.state = .running → (∀ e ∈ s.groups, e.2.ctx ≠ n) →
      (∀ e ∈ s.launches, e.2.ctx ≠ n) → (∀ e ∈ s.queues, e.2.ctx ≠ n) → s.pendingCommand 0x2C n = none →
      exec .fatalTeardown s = .next { s with
        contexts := [(n, { x with state := .faulted })]
        timers := (s.timers.filter fun e => !(e.2.1 == .fatalTeardown && e.2.2.a == n)) ++ [(s.cycle, .placementDecision, .none)] }) ∧
    (∀ k d x y, n < 1024 → n ≠ k → s.faultDomain n = some d → s.faultDomain k = some d → s.contexts = [(n, x), (k, y)] → x.state = .running →
      y.state = .running → s.groups = [] → s.launches = [] → s.queues = [] →
      let mine := fun (e : Nat × Instr × Args) => e.2.1 == .fatalTeardown && [n, k].contains e.2.2.a
      let v := { s with timers := s.timers.filter fun e => !mine e }
      let both := (s.timers.any fun e => e.2.1 == .fatalTeardown && e.2.2.a == k) = true
      let told := fun (w : State) => ∃ u, exec .fatalTeardown s = .next u ∧ u.dev = w.dev ∧ u.host = w.host ∧
        (∃ z, find u.contexts n = some z ∧ z.state = .faulted) ∧ (∃ z, find u.contexts k = some z ∧ z.state = .faulted)
      (¬ both → told (v.post (.plain 0x61 k n))) ∧ (both → told ((v.post (.plain 0x61 k n)).post (.plain 0x61 n k)))) ∧
    (∀ d x, n < 1024 → s.faultDomain n = some d → s.contexts = [(n, x)] → x.state = .migratingOut →
      ∃ u, exec .fatalTeardown s = .next u ∧ (find u.contexts n).any (·.lostPages) = true) ∧
    (∀ (g : Group) (t gid : Nat), t ∈ s.ownTiles gid g ↔ t ∈ g.tiles ∧ (s.getTile t).place.group = some gid) ∧
    (∀ g k, find s.groups n = some g → g.state ≠ .ended → g.state ≠ .discarded →
      ∃ images, find (s.discardGroup n k).groups n = some { g with
          state := .discarded, tiles := [], arrivals := [], releases := [], saved := images } ∧
        images.length = if k then g.saved.length else 0)

/-- Contexts: create, suspend, resume, destroy, and moves of lineages (R254, R257, R263, R268, R270, R274, R275, R276). CTX_CREATE of a free number makes a CREATED context bound to its node, partition and lineage; CTX_SUSPEND of a RUNNING one makes it SUSPENDING; CTX_RESUME makes a SUSPENDED one RUNNING, after a kept seal with its counter one higher; CTX_DESTROY removes it; REHOME makes a slot MOVING, moves it to its new home and releases a forwarding slot; a lineage request is answered, held or sent on to the slot that FWD names, and steps the counter; the other states answer BADSTATE; a command writes its status word, waits with it while its port carries nothing yet, and ends in an error where its address names no memory or a port that is down. A fault of a command's own reads that ends in an error of its packet (log 109, DEDUCED), BADSTATE for a RELEASEFWD without a slot that forwards (log 107), a node outside own device memory (log 115), the order of CTX_CREATE's refusals (log 116) and the detail of a slot's state (log 122, all DESIGN CHOICE) are the model's. AUTH from a home that never held the lineage (log 43, DEDUCED), the answers of a peer that count (log 5, DESIGN CHOICE) and keys that leave the module as a wrapped value (log 112, DESIGN CHOICE) are the model's. -/
def Obligations.ContextCommands : Prop :=
  ∀ (s : State) (qn : Nat) (q : Queue) (p : Packet),
    let bs := p.bytes
    let c := fieldOf bs 16 2
    let f := fieldOf bs 18 1
    let is := fun (k : Nat) => s.accepts k qn q p
    let ends := fun (u : State) (code detail : Nat) => (Host.Outcome.next (u.finishCommand qn p code detail) : Out)
    let noArgs := f = 0 ∧ zeroIn bs 20 63 = true
    let reqOf := fun (kind lineage : Nat) => { s.request kind lineage with packet := some (qn, p.index) }
    let asked := fun (m : Message) => { { s with sent := s.sent ++ [m] }.onPacket qn p.index fun r =>
        { r with next := 2, deadline := s.cycle + 8000000, data := [] } with
      timers := s.timers ++ [(s.cycle + 8000000, .homeunreach, { Args.none with a := qn, b := p.index })] }
    (∀ i k, (i, k) ∈ [(Instr.invalidate, 0x22), (.harvest, 0x23), (.seal, 0x24), (.restore, 0x25), (.placeSet, 0x26), (.faultResume, 0x2A),
        (.ctxCreate, 0x2B), (.ctxSuspend, 0x2C), (.ctxResume, 0x2D), (.ctxDestroy, 0x2E), (.rehome, 0x2F)] →
      s.args.a < 98304 → s.globals.boot = 7 → s.commandPacket (· == k) = some (qn, q, p) → p.next = statusHeld →
        exec i s = ends s (fieldOf p.data 0 1) (fieldOf p.data 1 7)) ∧
    (∀ (u : State) (code detail : Nat),
      let a := fieldOf bs 8 8
      (a = 0 → u.finishCommand qn p code detail = u.packetDone qn p.index false) ∧
      (∀ t, a ≠ 0 → u.dpa a ≠ .bad → u.reach 0 a = .ok t () →
        u.finishCommand qn p code detail = (t.dpaWrite a (natBytes (code + detail * 256) 8)).packetDone qn p.index false) ∧
      (∀ t, a ≠ 0 → u.dpa a ≠ .bad → u.reach 0 a = .hold t →
        u.finishCommand qn p code detail = t.onPacket qn p.index fun r => { r with next := statusHeld, data := natBytes (code + detail * 256) 8 }) ∧
      (let fails := fun (t : State) (y : Queue) (reason x : Nat) =>
        (t.post { Record.ofPacket qn y p.index p.cls reason with detail := x }).packetDone qn p.index true
       (∀ y, a ≠ 0 → u.dpa a = .bad → find u.queues qn = some y → u.finishCommand qn p code detail = fails u y 0x07 a) ∧
       (∀ t g y, a ≠ 0 → u.dpa a ≠ .bad → u.reach 0 a = .fault t g → find t.queues qn = some y →
        u.finishCommand qn p code detail = fails t y g.reason g.detail))) ∧
    (is 0x2B → c < 1024 → f < 2 → fieldOf bs 20 4 < 2 ^ 20 → fieldOf bs 24 1 < 96 → zeroIn bs 25 32 = true → zeroIn bs 48 63 = true →
      let rcb := fieldOf bs 32 8
      let w := fieldOf bs 40 8
      (f = 0 → w < 2 ^ 56 → w / 2 ^ 12 % 2 ^ 9 < 432 →
        (∀ x, find s.contexts c = some x → exec .ctxCreate s = ends s 1 x.state.code) ∧
        (find s.contexts c = none →
          (∀ u g, s.commandReads (s.chainReads rcb) = .fault u g → exec .ctxCreate s = .next (u.packetFault qn q p 0 g false [])) ∧
          (∀ u, s.commandReads (s.chainReads rcb) = .ok u () →
            let full := 16 ≤ (u.contexts.filter fun e => e.2.partition == fieldOf bs 24 1).length
            (u.chainOk rcb c = false → exec .ctxCreate s = ends u 10 0) ∧
            (u.chainOk rcb c = true → full → exec .ctxCreate s = ends u 2 0) ∧
            (u.chainOk rcb c = true → ¬full → ∃ x, exec .ctxCreate s = ends { u with contexts := put u.contexts c x } 0 0 ∧
              x.state = .created ∧ x.partition = fieldOf bs 24 1 ∧ x.pasid = fieldOf bs 20 4 ∧ x.rcb = u.ownBase rcb ∧ x.lineage = w ∧
              x.home = w / 2 ^ 12 % 2 ^ 9 ∧
              x.measure = (u.rcbPath rcb 6).reverse.foldl (fun m y => extendMeasure m 2 (shaBytes (u.measuredNode y))) (List.replicate 32 0))))) ∧
      (∀ u g, f = 1 → s.commandReads [(w, 144)] = .fault u g → exec .ctxCreate s = .next (u.packetFault qn q p 0 g false [])) ∧
      (∀ t, f = 1 → s.commandReads [(w, 144)] = .ok t () →
        (policyOk (t.dpaBytes w 144) = false → exec .ctxCreate s = ends t 10 0) ∧
        (∀ u, policyOk (t.dpaBytes w 144) = true → find t.contexts c = none → t.commandReads (t.chainReads rcb) = .ok u () → u.chainOk rcb c = true →
          (u.contexts.filter fun e => e.2.partition == fieldOf bs 24 1).length < 16 → ∀ n, u.freeSlot = some n →
          ∃ x k id, exec .ctxCreate s = ends { u with
            freeCtr := u.freeCtr + 2, counters := put u.counters n k, contexts := put u.contexts c x } 0 id ∧
            x.state = .created ∧ x.lineage = id ∧ x.home = u.globals.modIdx ∧ k.state = .live ∧ k.lineage = id ∧ k.counter = 0 ∧
            k.policy = u.dpaBytes w 144))) ∧
    (∀ x, noArgs → c < 1024 → find s.contexts c = some x → x.state ≠ .free →
      (is 0x2C → p.next ≠ 1 → x.state ≠ .running → exec .ctxSuspend s = ends s 1 x.state.code) ∧
      (is 0x2C → p.next ≠ 1 → x.state = .running → (∀ e ∈ s.groups, e.2.ctx ≠ c) → exec .ctxSuspend s =
        .next (({ s with contexts := put s.contexts c { x with state := .suspending } }.onPacket qn p.index fun r => { r with next := 1 }).at_
          s.cycle .contextSuspended { Args.none with a := c })) ∧
      (is 0x2D → x.state = .haltedDiverged ∨ (x.state = .suspended ∧ x.keepSealed = false) →
        ∃ u, exec .ctxResume s = ends u 0 0 ∧ find u.contexts c = some { x with state := .running, keepSealed := false }) ∧
      (is 0x2D → x.state ≠ .suspended → x.state ≠ .haltedDiverged → exec .ctxResume s = ends s 1 x.state.code) ∧
      (is 0x2D → x.state = .suspended → x.keepSealed = true →
        (∀ n k, p.next ≠ 2 → s.home x.home x.lineage = .here n k → k.counter ≠ 2 ^ 64 - 1 →
          ∃ u, exec .ctxResume s = ends u 0 0 ∧ find u.contexts c = some { x with state := .running, keepSealed := false } ∧
            find u.counters n = some { k with counter := k.counter + 1 }) ∧
        (∀ m k, p.next ≠ 2 → s.home x.home x.lineage = .away m k → m ≠ s.globals.modIdx →
          exec .ctxResume s = .next (asked (.lineage m { reqOf 2 x.lineage with slot := k }))) ∧
        (p.next = 2 →
          (s.args.peer.status = 0 → ∃ u, exec .ctxResume s = ends u 0 0 ∧ find u.contexts c = some { x with state := .running, keepSealed := false }) ∧
          (s.args.peer.status = 6 ∨ s.args.peer.status = 8 → exec .ctxResume s = ends s s.args.peer.status.toNat 0) ∧
          (s.args.peer.status ∉ [0, 6, 8] → exec .ctxResume s = .next s))) ∧
      (is 0x2E → ∃ u, exec .ctxDestroy s = ends u 0 0 ∧ find u.contexts c = none ∧ (∀ y ∈ u.pulling, y.ctx ≠ c) ∧ (∀ e ∈ u.tlb, e.ctx ≠ c) ∧ find u.sealing c = none)) ∧
    (let id := fieldOf bs 24 8
     let home := fieldOf bs 32 2
     let at_ := fun (k : Counter) (n : Nat) => { s with counters := put s.counters n k }
     let at_' := fun (m : Nat) (y : Counter) (n : Nat) (k : Counter) => { s with counters := put (put s.counters m y) n k }
     is 0x2F → zeroIn bs 20 24 = true → id < 2 ^ 56 → home < 432 → zeroIn bs 34 63 = true →
      (∀ n k, f = 1 → s.counters.find? (fun e => e.2.lineage == id && e.2.state == .forward) = some (n, k) →
        exec .rehome s = ends { at_ { k with state := .free } n with released := s.released ++ [id] } 0 0) ∧
      (∀ n k, f = 1 → s.counters.find? (fun e => e.2.lineage == id && e.2.state == .forward) = none → s.slotOf id = some (n, k) →
        exec .rehome s = ends s 1 k.state.code) ∧
      ∀ n k, f = 0 → s.slotOf id = some (n, k) →
        (p.next = 0 → k.state ≠ .live → exec .rehome s = ends s 1 k.state.code) ∧
        (p.next = 0 → k.state = .live → home = s.globals.modIdx →
          exec .rehome s = .next ((at_ { k with state := .moving } n).onPacket qn p.index fun r => { r with next := 1 })) ∧
        (p.next = 0 → k.state = .live → home ≠ s.globals.modIdx → s.globals.present.contains home = false → exec .rehome s = ends s 6 0) ∧
        (p.next = 0 → k.state = .live → home ≠ s.globals.modIdx → s.globals.present.contains home = true →
          ∃ u, exec .rehome s = .next u ∧ u.counters = put s.counters n { k with state := .moving } ∧
            u.sent = s.sent ++ [.lineage home (s.request 5 id)]) ∧
        (1 ≤ p.next → p.next ≤ 2 → k.state = .moving → k.held = [] → s.attested k.policy home s.args.flag = false →
          exec .rehome s = ends (at_ { k with state := .live, held := [] } n) 4 0) ∧
        (∀ m, 1 ≤ p.next → p.next ≤ 2 → k.state = .moving → k.held = [] → s.attested k.policy home s.args.flag = true → home = s.globals.modIdx →
          s.freeSlot = some m → exec .rehome s = ends (at_' m { k with state := .live, held := [] } n { k with state := .forward, fwd := (home, m), key := 0, held := [] }) 0 m) ∧
        (p.next = 2 → k.state = .moving → s.attested k.policy home s.args.flag = true → home ≠ s.globals.modIdx →
          ∃ u, exec .rehome s = .next u ∧ u.counters = s.counters ∧ u.sent = s.sent ++ [.lineage home { s.request 3 id with
            counter := k.counter, src := k.src, cert := k.cert, key := ⟨home, natBytes k.key 32⟩, policy := k.policy }]) ∧
        (p.next = 3 → k.state = .moving → k.held = [] → home ≠ s.globals.modIdx →
          (s.args.peer.status = 0 → exec .rehome s = ends (at_ { k with
            state := .forward, fwd := (home, s.args.peer.detail.toNat), key := 0, held := [] } n) 0 s.args.peer.detail.toNat) ∧
          (s.args.peer.status = 2 → exec .rehome s = ends (at_ { k with state := .live, held := [] } n) 2 0))) ∧
    (let r := s.args.req
     let here := s.globals.modIdx
     let answer := fun (u : State) (code counter slot : Nat) (key cert : List Byte) =>
      let a : LineageReq := { r with source := here, counter := counter, key := ⟨r.source, key⟩, cert := cert, policy := [] }
      (Host.Outcome.next (if r.source = here then u.answerOwn code slot a else { u with sent := u.sent ++ [.lineageAnswer r.source code slot a] }) : Out)
     (∀ (u : State) (a : LineageReq) (code slot n i : Nat) y z, a.packet = some (n, i) → find u.queues n = some y →
      y.packets.find? (fun p => p.index == i) = some z →
      let args := { Args.none with a := n, b := i, c := slot, peer := ⟨BitVec.ofNat 8 code, 0⟩, req := a }
      (pkKind z.bytes = 0x24 → u.answerOwn code slot a = { u with timers := u.timers ++ [(u.cycle, .seal, args)] }) ∧
      (pkKind z.bytes = 0x25 → u.answerOwn code slot a = { u with timers := u.timers ++ [(u.cycle, .restore, args)] }) ∧
      (pkKind z.bytes = 0x2D → u.answerOwn code slot a = { u with timers := u.timers ++ [(u.cycle, .ctxResume, args)] })) ∧
     (r.kind = 5 → exec .lineageRequest s = answer s 0 0 0 [] (certificateOf here)) ∧
     (r.kind = 3 → s.freeSlot = none → exec .lineageRequest s = answer s 2 0 0 [] []) ∧
     (∀ n, r.kind = 3 → s.freeSlot = some n → r.key.receiver ≠ here → exec .lineageRequest s = .next s) ∧
     (∀ n, r.kind = 3 → s.freeSlot = some n → r.key.receiver = here →
      let k : Counter := { state := .live, lineage := r.lineage, key := leNat r.key.content, counter := r.counter, policy := r.policy, src := r.src,
                           cert := r.cert, fwd := (0, 0), held := [] }
      exec .lineageRequest s = answer { s with counters := put s.counters n k } 0 0 n [] []) ∧
     (r.kind ≠ 3 → r.kind ≠ 5 → s.slotOf r.lineage r.slot = none → s.released.contains r.lineage = false → exec .lineageRequest s = answer s 5 0 0 [] []) ∧
     (r.kind ≠ 3 → r.kind ≠ 5 → s.slotOf r.lineage r.slot = none → s.released.contains r.lineage = true → exec .lineageRequest s = answer s 6 0 0 [] []) ∧
     (∀ n k, (∀ e ∈ s.counters, e.2.lineage = r.lineage → e.2.state = .forward) → r.slot = some n → (n, k) ∈ s.counters →
        (∀ e ∈ s.counters, e.1 = n → e.2 = k) → k.lineage = r.lineage → k.fwd.1 ≠ here → s.slotOf r.lineage r.slot = some (n, k)) ∧
     ∀ n k, r.kind ≠ 3 → r.kind ≠ 5 → s.slotOf r.lineage r.slot = some (n, k) →
      let ok := s.attested k.policy r.source r.quoteOk = true ∧ s.attested k.policy here true = true
      let at_ := fun (y : Counter) => { s with counters := put s.counters n y }
      (k.state = .moving → exec .lineageRequest s = .next (at_ { k with held := k.held ++ [r] })) ∧
      (k.state = .forward → k.fwd.1 ≠ here →
        exec .lineageRequest s = .next { s with sent := s.sent ++ [.lineage k.fwd.1 { r with slot := some k.fwd.2 }] }) ∧
      (k.state = .forward → k.fwd.1 = here → exec .lineageRequest s = answer s 6 0 0 [] []) ∧
      (k.state = .live →
        (r.kind = 4 → exec .lineageRequest s = answer s 0 0 n [] k.cert) ∧
        (r.kind = 2 → k.counter ≠ 2 ^ 64 - 1 → exec .lineageRequest s = answer (at_ { k with counter := k.counter + 1 }) 0 (k.counter + 1) n [] []) ∧
        (r.kind < 2 → ¬ok → exec .lineageRequest s = answer s 4 0 0 [] []) ∧
        (r.kind = 0 → ok → k.counter ≠ 2 ^ 64 - 1 → exec .lineageRequest s =
          answer (at_ { k with counter := k.counter + 1, src := r.source, cert := r.cert }) 0 (k.counter + 1) n
            (imageKey k.key r.measure (k.counter + 1)) []) ∧
        (r.kind = 1 → ok → r.counter < k.counter → exec .lineageRequest s = answer s 3 0 0 [] []) ∧
        (r.kind = 1 → ok → k.counter < r.counter → exec .lineageRequest s = answer s 5 0 0 [] []) ∧
        (r.kind = 1 → ok → r.counter = k.counter → k.counter ≠ 2 ^ 64 - 1 → r.src = k.src → exec .lineageRequest s =
          answer (at_ { k with counter := r.counter + 1 }) 0 (r.counter + 1) n (imageKey k.key r.measure r.counter) [])))

/-- SEAL, RESTORE, PLACE_SET and record queries (R254, R262, R267, R271, R272, R275, R401). SEAL makes a SUSPENDED context SEALING, and when the quotes verify steps the counter of a lineage at home, writes the image under its key and answers the length; RESTORE makes a CREATED context RESTORING, and an image whose trailer, counter and chunks are right is installed and the counter stepped; a refusal brings the state back; a home on another module is asked; PLACE_SET reads its table once, asks the modules that extents name, and replaces the massifs and extents of a partition that no context at work holds; a record query is answered. A fault of a command's own reads that ends in an error of its packet (log 109, DEDUCED) and BADSTATE for a PLACE_SET that would dissolve the partition of a context (log 121, DESIGN CHOICE) are the model's. The free layouts of an image and the verdict on a quote (log 10, DESIGN CHOICE), what RESTORE installs (log 51, DEDUCED), the answers of a peer (log 5, DESIGN CHOICE), the order of PLACE_SET's statuses (log 42) and BADEXTENT for an extent without width, height or module (log 106) are the model's. -/
def Obligations.CairnsAndPlaces : Prop :=
  ∀ (s : State) (qn : Nat) (q : Queue) (p : Packet),
    let bs := p.bytes
    let c := fieldOf bs 16 2
    let f := fieldOf bs 18 1
    let is := fun (k : Nat) => s.accepts k qn q p
    let ends := fun (u : State) (code detail : Nat) => (Host.Outcome.next (u.finishCommand qn p code detail) : Out)
    let become := fun (x : Context) (st : CtxState) => { s with contexts := put s.contexts c { x with state := st } }
    let waits := fun (u : State) (n : Nat) => (Host.Outcome.next (u.onPacket qn p.index fun r => { r with next := n }) : Out)
    (∀ x, is 0x24 → c < 1024 → find s.contexts c = some x → x.state ≠ .free → zeroIn bs 20 24 = true → zeroIn bs 40 63 = true →
      f < 8 → f % 4 ≠ 3 → f ≠ 6 →
      let dst := fieldOf bs 24 8
      let dlen := fieldOf bs 32 8
      let k0 := s.cairnOf c x 0 f []
      let len := cairnLength k0.payload.length
      dst % 4096 = 0 →
      (p.next = 0 → x.state ≠ .suspended → exec .seal s = ends s 1 x.state.code) ∧
      (p.next = 0 → x.state = .suspended → dlen < len → exec .seal s = ends s 9 0) ∧
      (p.next = 0 → x.state = .suspended → len ≤ dlen → s.rangeOk dst len = true → ∀ u, s.commandReads k0.sources = .ok u () →
        let v := { u.setCtxState c .sealing with sealing := put u.sealing c k0, freeCtr := u.freeCtr + 1 }
        (∀ n k, u.home x.home x.lineage = .here n k → exec .seal s = waits v 1) ∧
        (∀ m k, u.home x.home x.lineage = .away m k →
          let r := { v.request 0 x.lineage with measure := x.measure, packet := some (v.args.a, p.index), slot := k }
          ∃ t, exec .seal s = .next t ∧ t.contexts = v.contexts ∧ t.sealing = v.sealing ∧
            (m ≠ u.globals.modIdx → t.sent = v.sent ++ [.lineage m r] ∧ t.counters = v.counters) ∧
            (∀ i y, m = u.globals.modIdx → u.slotOf x.lineage = some (i, y) →
              t.sent = v.sent ∧ t.counters = put v.counters i { y with held := y.held ++ [r] }))) ∧
      (p.next = 1 → x.state = .sealing → ∀ n k, s.home x.home x.lineage = .here n k →
        let m := s.globals.modIdx
        let ok := s.attested k.policy m s.args.flag
        let l := { k with counter := k.counter + 1, src := m, cert := certificateOf m }
        let failed := { become x .suspended with sealing := erase s.sealing c }
        (ok = false → exec .seal s = ends failed 4 0) ∧
        (ok = true → k.counter = 2 ^ 64 - 1 → exec .seal s = ends failed 8 0) ∧
        (∀ z port, ok = true → k.counter ≠ 2 ^ 64 - 1 → find s.sealing c = some z → s.portDown dst = some port →
          exec .seal s = .next ({ failed with counters := put s.counters n l }.packetFault qn q p 0 (.plain 0x0A 0 0 port) false [])) ∧
        (ok = true → k.counter ≠ 2 ^ 64 - 1 → s.portDown dst = none → ∀ z, find s.sealing c = some z →
          let y := { z with counter := k.counter + 1, key := imageKey k.key x.measure (k.counter + 1) }
          let head := cairnHeader f x.lineage m n (k.counter + 1) x.measure m y.payload.length
          let w := (y.sources ++ [(dst, cairnLength y.payload.length)]).foldl (fun (t : State) e => t.countCols c e.1 e.2)
            { s with counters := put s.counters n l }
          ∃ u, exec .seal s = ends u 0 (cairnLength y.payload.length) ∧ u.cairns = w.cairns ++ [y] ∧ find u.sealing c = none ∧
            find u.counters n = some l ∧ (f % 4 ≠ 1 → u.dev = (w.dpaWrite dst (head ++ y.body head y.payload)).dev) ∧
            (f % 4 = 1 →
              (let cleared := { x.xlat with s1root := 0, s2root := 0, s1range := [], s2range := [], pullCount := 0 }
               find u.contexts c = some { x with state := .sealed, home := m, xlat := cleared }) ∧
              (∀ y ∈ u.pulling, y.ctx ≠ c) ∧ (∀ y ∈ u.tlb, y.ctx ≠ c) ∧ (∀ i g, find u.groups i = some g → g.ctx = c → g.saved = []) ∧
              (∀ i y, find u.queues i = some y → y.ctx = c → y.state ≠ .free → y.charged = false)) ∧
            (f % 4 = 0 → find u.contexts c = some { x with state := .suspended, home := m, keepSealed := true }) ∧
            (f % 4 = 2 → find u.contexts c = some { x with state := .migratingOut, home := m, lostPages := false })))) ∧
    (∀ x, is 0x25 → c < 1024 → find s.contexts c = some x → x.state ≠ .free → f < 2 → zeroIn bs 20 24 = true → zeroIn bs 40 63 = true →
      let src := fieldOf bs 24 8
      let slen := fieldOf bs 32 8
      let i := s.sealedAt src
      src % 4096 = 0 →
      (p.next = 0 → x.state ≠ .created → exec .restore s = ends s 1 x.state.code) ∧
      (p.next = 0 → x.state = .created → slen < 128 → exec .restore s = ends s 9 0) ∧
      (p.next = 0 → x.state = .created → 128 ≤ slen → s.rangeOk src slen = true → i.form = true → cairnLength i.paylen ≤ slen →
        (i.lineage ≠ x.lineage → exec .restore s = ends s 5 0) ∧
        (i.lineage = x.lineage → ∀ u, s.commandReads [(src, cairnLength i.paylen)] = .ok u () →
          (∀ n l, u.home i.home i.lineage = .here n l → exec .restore s = waits (u.setCtxState c .restoring) 1) ∧
          (∀ m k, u.home i.home i.lineage = .away m k → m ≠ u.globals.modIdx → ∃ t, exec .restore s = .next t ∧
            t.contexts = (u.setCtxState c .restoring).contexts ∧
            t.sent = u.sent ++ [.lineage m { u.request 4 i.lineage with packet := some (u.args.a, p.index), slot := some (k.getD i.slot) }]) ∧
          (u.home i.home i.lineage = .absent → exec .restore s = ends u 5 0) ∧
          (u.home i.home i.lineage = .unreached → exec .restore s = ends u 6 0)) ∧
        (i.lineage = x.lineage → ∀ u g, s.commandReads [(src, cairnLength i.paylen)] = .fault u g →
          exec .restore s = .next (u.packetFault qn q p 0 g false []))) ∧
      (p.next = 1 → x.state = .restoring → ∀ k n l, s.cairnFor i = some k → s.home i.home i.lineage = .here n l →
        let ok := s.attested l.policy s.globals.modIdx s.args.flag
        let key := imageKey l.key k.context.measure i.counter
        (i.verifies k l.cert = false → exec .restore s = ends (become x .created) 5 0) ∧
        (i.verifies k l.cert = true → ok = false → exec .restore s = ends (become x .created) 4 0) ∧
        (i.verifies k l.cert = true → ok = true → i.counter < l.counter → exec .restore s = ends (become x .created) 3 0) ∧
        (i.verifies k l.cert = true → ok = true → i.counter = l.counter → k.source = l.src → i.counter ≠ 2 ^ 64 - 1 →
          i.chunks = ((sealChunks key k.payload).map fun x => x.1 ++ x.2).flatten → exec .restore s =
            ends (({ s with counters := put s.counters n { l with counter := i.counter + 1 } }.countCols c src
              (cairnLength i.paylen)).installCairn c k i.home (f.testBit 0)) 0 0))) ∧
    (let part := fieldOf bs 24 1
     let n := fieldOf bs 25 1
     let mask := fieldOf bs 32 12
     let addr := fieldOf bs 48 8
     let massifs := (List.range 96).filter mask.testBit
     is 0x26 → f = 0 → zeroIn bs 20 24 = true → part < 96 → n ≤ 64 → zeroIn bs 26 32 = true → zeroIn bs 44 48 = true → addr % 16 = 0 →
      zeroIn bs 56 63 = true →
      let reads := if n = 0 ∨ p.next = 2 then [] else [(addr, 16 * n)]
      (∀ u g, s.commandReads reads = .fault u g → exec .placeSet s = .next (u.packetFault qn q p 0 g false [])) ∧
      ∀ u, s.commandReads reads = .ok u () →
      let table := if p.next = 2 then p.data else u.dpaBytes addr (16 * n)
      let raw := (List.range n).map fun i => (table.drop (16 * i)).take 16
      let exts := raw.map extentAt
      (∀ r ∈ raw, (extentAt r).valid = true → extentRes r = true) →
      ((∃ e ∈ exts, e.valid = true ∧ u.extentOk massifs e = false) ∨ (∃ e ∈ u.partitions, e.1 ≠ part ∧ ∃ m ∈ e.2.massifs, m ∈ massifs) →
        exec .placeSet s = ends u 7 0) ∧
      ((∀ e ∈ exts, e.valid = true → u.extentOk massifs e = true) → (∀ e ∈ u.partitions, e.1 ≠ part → ∀ m ∈ e.2.massifs, m ∉ massifs) →
       (∀ e ∈ exts, e.valid = true → e.mod = u.globals.modIdx ∨ u.globals.present.contains e.mod = true) →
        let old := (find u.partitions part).getD { massifs := [], extents := [] }
        let changes := (∃ m ∈ old.massifs, m ∉ massifs) ∨ exts ≠ old.extents
        (∀ e, changes → u.contexts.find? (fun e => e.2.partition == part && !e.2.state.still) = some e →
          exec .placeSet s = ends u 1 e.2.state.code) ∧
        (∀ e r, (∀ e ∈ u.contexts, e.2.partition = part → e.2.state.still = true) → u.contexts.filter (fun e => e.2.partition == part) = e :: r →
          mask = 0 → n = 0 → exec .placeSet s = ends u 1 e.2.state.code)) ∧
      ((∀ e ∈ exts, e.valid = true → u.extentOk massifs e = true) → (∀ e ∈ u.partitions, e.1 ≠ part → ∀ m ∈ e.2.massifs, m ∉ massifs) →
       (∀ e ∈ u.contexts, e.2.partition = part → e.2.state.still = true ∧ ¬(mask = 0 ∧ n = 0)) →
        ((∀ e ∈ exts, e.valid = true → e.mod = u.globals.modIdx) →
          exec .placeSet s = ends (u.reportPartition part { massifs := massifs, extents := exts }) 0 0) ∧
        (∀ m, m ≠ u.globals.modIdx → (∃ e ∈ exts, e.valid = true ∧ e.mod = m) →
          (∀ e ∈ exts, e.valid = true → e.mod = u.globals.modIdx ∨ e.mod = m) →
          (u.globals.present.contains m = false → exec .placeSet s = ends u 6 0) ∧
          (u.globals.present.contains m = true → p.next = 0 → ∃ t, exec .placeSet s = .next t ∧ t.partitions = u.partitions ∧
            (∀ y z, find t.queues qn = some y → y.packets.find? (fun r => r.index == p.index) = some z → z.next = 2 ∧ z.data = table) ∧
            t.sent = u.sent ++ [.extents m part u.globals.modIdx (raw.filter fun r => (extentAt r).valid && (extentAt r).mod == m).flatten]) ∧
          (u.globals.present.contains m = true → p.next ≠ 0 → u.args.peer.status = 0 →
            exec .placeSet s = ends (u.reportPartition part { massifs := massifs, extents := exts }) 0 0) ∧
          (u.globals.present.contains m = true → p.next ≠ 0 → u.args.peer.status ≠ 0 → exec .placeSet s = ends u 7 0)))) ∧
    (∀ x, s.args.flag = true → find s.contexts s.args.b = some x →
      exec .remoteRecordQuery s = .next { s with sent := s.sent ++ [.toModule s.args.d "record" (x.partition + 1) s.args.b] }) ∧
    (∀ r, s.args.flag = false → find s.partitions s.args.b = some r →
      (s.args.bytes = [] → exec .remoteRecordQuery s = .next { s with
        sent := s.sent ++ [.toModule s.args.d "record" (if r.massifs.contains s.args.c then 1 else 0) s.args.b] }) ∧
      (s.args.bytes ≠ [] → exec .remoteRecordQuery s = .next { s with sent := s.sent ++ [.toModule s.args.d "record"
        (if (extentsOf s.args.bytes).all fun e => e.mod == s.globals.modIdx && s.extentOk r.massifs e then 1 else 0) s.args.b] }))

/-- Translation-table commands and pulls (R254, R341, R346, R348, R351, R352, R353, R354, R355, R360). MAP_ENTRY writes an entry with its budget and drops cached copies, MAP_RANGE, MAP_ROOTS and MAP_RINGS replace the fields of the translation record, UNMAP clears an entry, INVALIDATE drops every cached copy of its scope, HARVEST reads and clears dirty bits, FAULT_RESUME resumes the parked queues and packets that it names, or ends them with ABORT; a pull is served, received, times out and completes. A fault of a command's own reads that ends in an error of its packet, and the answer to a pull that meets an uncorrectable error (log 109), are the model's readings (DEDUCED). MAP_RANGE with V = 0 (log 45), the scopes of INVALIDATE and the entries that a walk may hold (log 64), the budget of a replaced page (log 65) and the block form of C64 (log 94) are the model's readings (DEDUCED). -/
def Obligations.PageCommands : Prop :=
  ∀ (s : State) (qn : Nat) (q : Queue) (p : Packet),
    let bs := p.bytes
    let c := fieldOf bs 16 2
    let f := fieldOf bs 18 1
    let is := fun (k : Nat) => s.accepts k qn q p
    let ends := fun (u : State) (code detail : Nat) => (Host.Outcome.next (u.finishCommand qn p code detail) : Out)
    (∀ x, c < 1024 → find s.contexts c = some x → x.state ≠ .free →
      let stage := if f.testBit 3 then 2 else 1
      let level := fieldOf bs 20 1
      let a := fieldOf bs 24 8
      let v := fieldOf bs 32 8
      let w := fieldOf bs 40 8
      (∀ u addr, (f = 0 ∨ f = 8) → zeroIn bs 21 24 = true → level ≤ (if stage = 1 then 4 else 3) → a < (if stage = 1 then 2 ^ 57 else 2 ^ 48) →
        s.path c x stage a level = .entry u addr → (∀ y ∈ u.pulling, y.ctx = c → y.entryAddr ≠ addr) →
        (is 0x20 → zeroIn bs 40 63 = true → (if v % 4 = 0 then entryRes stage level v else entryMalformed stage level v) = false →
          (∀ t, u.setEntry c stage level a addr v = some t → exec .mapEntry s = ends t 0 0) ∧
          (u.setEntry c stage level a addr v = none → exec .mapEntry s = ends u 2 0)) ∧
        (is 0x21 → zeroIn bs 32 63 = true → exec .unmap s = ends ((u.setEntry c stage level a addr 0).getD u) 0 0)) ∧
      (is 0x20 → (f = 0 ∨ f = 8) → zeroIn bs 21 24 = true → zeroIn bs 40 63 = true → level ≤ (if stage = 1 then 4 else 3) →
        a < (if stage = 1 then 2 ^ 57 else 2 ^ 48) →
        ((if v % 4 = 0 then entryRes stage level v else entryMalformed stage level v) = true → exec .mapEntry s = ends s 10 level) ∧
        ((if v % 4 = 0 then entryRes stage level v else entryMalformed stage level v) = false → ∀ l y, s.path c x stage a level = .missing l y →
          exec .mapEntry s = ends s 10 l)) ∧
      (is 0x20 → f = 1 ∨ f = 9 → zeroIn bs 21 24 = true → zeroIn bs 56 63 = true → fieldOf bs 48 8 < 8 →
        fieldOf bs 48 8 % 2 = 0 ∨ (a % 4096 = 0 ∧ v % 4096 = 4095 ∧ a ≤ v ∧ w % 4096 = 0 ∧ v < (if f = 9 then 2 ^ 48 else 2 ^ 57)) →
        let e : RangeEntry := { base := a, last := v, out := w, ctl := fieldOf bs 48 8 }
        exec .mapRange s = ends { s with contexts := put s.contexts c { x with xlat :=
          if f = 9 then { x.xlat with s2range := put x.xlat.s2range level e } else { x.xlat with s1range := put x.xlat.s1range level e } } } 0 0) ∧
      (is 0x20 → f = 2 → zeroIn bs 20 24 = true → zeroIn bs 42 63 = true → a % 4096 = 0 → v % 4096 = 0 → a < 2 ^ 48 → v < 2 ^ 56 →
        (fieldOf bs 40 2 < 432 ∨ fieldOf bs 40 2 = 0xFFFF) → exec .mapRoots s = ends { s with
          contexts := put s.contexts c { x with xlat := { x.xlat with s1root := a, s2root := v, pullSrc := fieldOf bs 40 2 } }
          tlb := s.tlb.filter fun e => e.ctx != c } 0 0) ∧
      (is 0x20 → f = 3 → zeroIn bs 20 24 = true → zeroIn bs 33 40 = true → zeroIn bs 49 52 = true → zeroIn bs 54 63 = true →
        let ring := fun (base log : Nat) => base = 0 ∨ (base % 4096 = 0 ∧ base < 2 ^ 56 ∧ 6 ≤ log ∧ log ≤ 16)
        let there := fun (t : State) (base log : Nat) => if base = 0 then Acc.ok t () else t.reachAll 0 base (64 + 64 * 2 ^ log)
        let fl := fieldOf bs 32 1
        let ml := fieldOf bs 48 1
        (¬(ring a fl ∧ ring w ml) → exec .mapRings s = ends s 10 0) ∧
        (ring a fl → ring w ml →
          (∀ u g, there s a fl = .fault u g → exec .mapRings s = .next (u.packetFault qn q p 0 g false [])) ∧
          (∀ u v g, there s a fl = .ok u () → there u w ml = .fault v g → exec .mapRings s = .next (v.packetFault qn q p 0 g false [])) ∧
          (∀ u v, there s a fl = .ok u () → there u w ml = .ok v () → exec .mapRings s = ends (((v.onCtx c fun x => { x with xlat := { x.xlat with
            fqBase := a, fqLog := if a = 0 then 0 else fl, mqBase := w, mqLog := if w = 0 then 0 else ml,
            thresh := fieldOf bs 52 2 } }).initRing c a fl).initRing c w ml) 0 0))) ∧
      (is 0x22 → f % 4 < 3 → f % 8 < 4 → f < 16 → zeroIn bs 20 24 = true → zeroIn bs 40 63 = true →
        (f % 4 ≠ 0 ∨ (v % 4096 = 0 ∧ 4096 ≤ v ∧ v ≤ 2 ^ 48)) →
        exec .invalidate s = ends { s with tlb := s.tlb.filter fun e => !(e.ctx == c && (f % 4 == 2 || (e.stage == stage && (f % 4 == 1 ||
          (let size := if e.level = 0 ∧ e.value.testBit 5 then 2 ^ 16 else pageSize e.level
           decide (e.input / size * size < a + v) && decide (a < e.input / size * size + size)))))) } 0 0) ∧
      (is 0x23 → f = 0 → zeroIn bs 20 24 = true → zeroIn bs 48 63 = true → a % 4096 = 0 → a < 2 ^ 48 → v % 4096 = 0 → 4096 ≤ v →
        v ≤ 2 ^ 36 → w % 8 = 0 → w < 2 ^ 56 →
        let pages := (List.range (v / 4096)).map fun k => a + 4096 * k
        (∀ u (r : List Dirty) t, s.harvestPages c x pages = .ok u r → u.reachAll 0 w ((v / 4096 + 7) / 8) = .ok t () →
          let cleared := (r.map (·.leaves)).flatten.eraseDups.foldl
            (fun s addr => s.dpaWrite addr (natBytes (s.dpaNat addr 8 &&& (2 ^ 64 - 17)) 8)) t
          exec .harvest s = ends (((r.map (·.bit)).zipIdx).foldl (fun s (e, k) =>
            let b := s.dpaByte (w + k / 8)
            let m := BitVec.ofNat 8 (2 ^ (k % 8))
            s.dpaWrite (w + k / 8) [if e then b ||| m else b &&& ~~~m]) cleared) 0 ((r.map (·.bit)).filter id).length) ∧
        (∀ t e, s.harvestPages c x pages = .fault t e → exec .harvest s = .next (t.packetFault qn q p 0 e false [])) ∧
        (∀ g, (rangeHit x.xlat.s2range g).isSome = true → s.harvestPage c x g = .ok s ⟨true, []⟩) ∧
        (∀ g, rangeHit x.xlat.s2range g = none → x.xlat.s2root = 0 → s.harvestPage c x g = .ok s ⟨false, []⟩)) ∧
      (is 0x2A → f < 4 → zeroIn bs 20 24 = true → zeroIn bs 28 32 = true → zeroIn bs 40 63 = true → f % 2 = 0 → fieldOf bs 24 4 < 98304 →
        (∀ e ∈ s.queues, e.1 = fieldOf bs 24 4 → e.2.ctx ≠ c) → exec .faultResume s = ends s 0 0) ∧
      (is 0x2A → f < 4 → zeroIn bs 20 24 = true → zeroIn bs 28 32 = true → zeroIn bs 40 63 = true →
        let all := f.testBit 0
        let k := fieldOf bs 24 4
        let i := fieldOf bs 32 8
        (if all = true then k = 0 ∧ i = 0 else k < 98304) →
        let named := (s.queues.filter fun e => e.2.ctx == c && e.2.state != .free && (all || e.1 == k)).map (·.1)
        let r := named.foldl (fun (t : State × Nat) j =>
          ((t.1.resumeQueue j (f.testBit 1) fun p => all || p.index == i).1,
            t.2 + (t.1.resumeQueue j (f.testBit 1) fun p => all || p.index == i).2)) (s, 0)
        exec .faultResume s = ends r.1 0 r.2) ∧
      (∀ (k : Nat) (y : Queue) (abort : Bool) (sel : Packet → Bool), find s.queues k = some y →
        let picked := y.packets.filter fun p => p.parked && sel p
        (picked = [] →
          (y.state ≠ .faultParked → s.resumeQueue k abort sel = (s, 0)) ∧
          (y.state = .faultParked → s.resumeQueue k abort sel = (if abort then s.enterError k false else
            { s with queues := put s.queues k { y with state := .active } }, 1))) ∧
        (∀ z, picked = [z] → y.state ≠ .faultParked → s.launchOf k z.index = none →
          (abort = false → s.resumeQueue k abort sel = ({ s with queues := put s.queues k { y with
            packets := y.packets.map fun p => if p.index = z.index then { p with parked := false } else p } }, 1)) ∧
          (abort = true → s.resumeQueue k abort sel = (s.packetDone k z.index true, 1))) ∧
        (∀ z n l, picked = [z] → y.state ≠ .faultParked → s.launchOf k z.index = some (n, l) →
          (abort = false → s.resumeQueue k abort sel = ({ s with
            queues := put s.queues k { y with packets := y.packets.map fun p => if p.index = z.index then { p with parked := false } else p }
            timers := s.timers ++ [(s.cycle, .launchCheck, { Args.none with a := n })] }, 1)) ∧
          (abort = true → s.resumeQueue k abort sel = (((s.recordLaunch l n false).packetDone l.queue l.index true).pokeLaunches l.ctx, 1))))) ∧
    (let x := s.args
     let source := fun (y : Option (Nat × Context)) => s.contexts.find? (fun e => e.2.lineage == x.a && e.2.state == .migratingOut && !e.2.lostPages) = y
     let failed := fun (u : State) => { u with sent := u.sent ++ [.toModule x.d "pullFailed" x.b x.a] }
     (∀ e u d v t, source (some e) → s.stage2 e.1 0 x.b false = .ok u d → u.reachAll 0 d x.c = .ok v () → v.readErrors d x.c = (t, none) →
      exec .pullRequest s = .next { t.countCols e.1 d x.c with
        sent := (t.countCols e.1 d x.c).sent ++ [.readData ((t.countCols e.1 d x.c).dpaBytes d x.c)] }) ∧
     (∀ e u d v t g, source (some e) → s.stage2 e.1 0 x.b false = .ok u d → u.reachAll 0 d x.c = .ok v () → v.readErrors d x.c = (t, some g) →
      exec .pullRequest s = .next (failed t)) ∧
     (∀ e u, source (some e) → s.stage2 e.1 0 x.b false = .hold u → exec .pullRequest s = .next (u.at_ (u.cycle + 1) .pullRequest x)) ∧
     (∀ e u g, source (some e) → s.stage2 e.1 0 x.b false = .fault u g → exec .pullRequest s =
      .next (if g.hard then u.post { Record.plain g.reason e.1 g.detail with gpa := x.b } else u)) ∧
     (source none → exec .pullRequest s = .next (failed s)) ∧
     (∀ y, s.pulling.find? (fun y => y.ctx == x.a && y.gpa == x.b) = some y →
      let ended := fun (u : State) => { u with pulling := u.pulling.filter fun z => !(z.ctx == x.a && z.entryAddr == y.entryAddr) }
      (x.peer.status ≠ 0 → exec .pullReceived s = .next (s.pullFailed x.a y)) ∧
      (x.peer.status = 0 →
        (∀ u, s.walkAt x.a 0 y.gpa y.entryAddr = .ok u () →
          let v := u.dpaNat y.entryAddr 8
          let t := ((u.countCols x.a (entryAddr v) (pageSize y.level)).dpaWrite (entryAddr v) (x.bytes.take (pageSize y.level))).dpaWrite
            y.entryAddr (natBytes ((v ||| 3) &&& (2 ^ 64 - 17)) 8)
          exec .pullReceived s = .next ((ended t).addPull x.a (-1))) ∧
        (∀ u g, s.walkAt x.a 0 y.gpa y.entryAddr = .fault u g →
          exec .pullReceived s = .next ((ended u).post { Record.plain g.reason x.a g.detail with gpa := y.gpa })) ∧
        (∀ u, s.walkAt x.a 0 y.gpa y.entryAddr = .hold u →
          exec .pullReceived s = .next { u with timers := u.timers ++ [(u.cycle + 1, .pullReceived, x)] }))) ∧
     (∀ y, s.pulling.find? (fun y => y.ctx == x.a && y.gpa == x.b) = some y →
      (s.cycle < y.since + 8000000 → exec .pullTimeout s = .next s) ∧
      (y.since + 8000000 ≤ s.cycle → exec .pullTimeout s = .next (s.pullFailed x.a y))) ∧
     (∀ e y, s.contexts.find? (fun e => e.2.lineage == x.a && e.2.state == .migratingOut) = some e → find s.contexts e.1 = some y →
      exec .pullsComplete s = .next { s with contexts := put s.contexts e.1 { y with state := .sealed } }))

/-- Gates: commands, publication, tokens, posts, waiters and migration (R328, R329, R330, R331, R332, R333, R334, R335, R336, R337, R338, R401). CREATE fills the lowest FREE record, builds its shadows and divides a full bucket; OPEN, CLOSE, SETACL, MOVE, GATE_REVOKE, FREE and FREEFWD change the record from the states the table gives and answer BADSTATE with the state code from the others; a command for another HOME is carried there and completes with its answer; a post at an OPEN or CLOSED gate adds 1 to SEQ, and at a digest gate two equal digests do, while two that differ close the gate and halt the listed contexts; a bucket is divided at multiples of WIN among the shadows with POST in the order of module and massif, the first of them taking the remainder; a gate that is MIGRATING is installed at its new home; a shadow takes the published values; a command or a MOVE that has had no answer for 8,000,000 cycles ends with HOMEUNREACH. An access list that cannot be read ends GATE_CREATE in an error of its packet (log 109, DEDUCED). The checks of a gate's entries and the tokens of a new shadow (log 54), the ids of a moved gate (log 55), a post to a record that is FREE (log 19) and the answers of a peer (log 5) are the model's. -/
def Obligations.GateEvents : Prop :=
  ∀ (s : State),
    let x := s.args
    (∀ (qn : Nat) (q : Queue) (p : Packet),
      let bs := p.bytes
      let f := fieldOf bs 18 1
      let n := fieldOf bs 20 2
      let g := s.gate n
      let id := s.gateId n
      let home := fieldOf bs 22 2
      let ends := fun (u : State) (code detail : Nat) => (Host.Outcome.next (u.finishCommand qn p code detail) : Out)
      let is := fun (k : Nat) => s.accepts k qn q p ∧ x.flag = false ∧ home = s.globals.modIdx
      -- the access list is read at the first step, and once
      let reads := if p.next = 0 then [(fieldOf bs 32 8, 192)] else []
      let block := fun (u : State) => if p.next = 0 then u.dpaBytes (fieldOf bs 32 8) 192 else p.data
      let listed := fun (u : State) (also : List Nat) (digest : Bool) (b : AclBlock) =>
        let ms := (u.aclModules b ++ also.filter (· != u.globals.modIdx)).eraseDups
        s.commandReads reads = .ok u () ∧ aclBlock (block u) digest = some b ∧
        (∀ m ∈ ms ++ u.awayShadows.map (·.1), u.globals.present.contains m = true) ∧ (ms = [] ∨ (p.next ≠ 0 ∧ u.args.peer.status = 0)) ∧
        (∀ e ∈ b.acl, (u.partitionOf u.args.parts e).isSome = true) ∧ u.windowsOk u.args.parts b = true
      (∀ e ∈ [(Instr.gateCreate, 0x28, 0), (.gateOpen, 0x28, 1), (.gateClose, 0x28, 2), (.gateSetacl, 0x28, 3), (.gateMove, 0x28, 4),
          (.gateRevoke, 0x29, 0), (.gateFree, 0x29, 1), (.gateFreefwd, 0x29, 2)],
        s.accepts e.2.1 qn q p → x.flag = false → f = e.2.2 → (if e.2.1 = 0x28 then gateFields bs else revokeFields bs) = true →
        home ≠ s.globals.modIdx →
        (s.globals.present.contains home = false → exec e.1 s = ends s 6 0) ∧
        (s.globals.present.contains home = true → p.next = 0 → exec e.1 s =
          .next ((({ s with sent := s.sent ++ [Message.command home x.a p.index bs] } : State).onPacket x.a p.index fun r =>
            { r with next := 2, deadline := s.cycle + 8000000 }).at_ (s.cycle + 8000000) .homeunreach { Args.none with a := x.a, b := p.index })) ∧
        (s.globals.present.contains home = true → p.next ≠ 0 → x.peer.status = 0 ∨ x.peer.status = 1 ∨ x.peer.status = 2 ∨ x.peer.status = 6 ∨ x.peer.status = 10 →
          exec e.1 s = ends s x.peer.status.toNat x.peer.detail.toNat)) ∧
      (is 0x28 → gateFields bs = true →
        (∀ u b, f = 0 → listed u [] ((fieldOf bs 42 1).testBit 1) b →
          (u.freeGate = none → exec .gateCreate s = ends u 2 0) ∧
          (∀ k, u.freeGate = some k →
            ∃ r : Gate, exec .gateCreate s = ends (((u.setGate k r).buildShadows k r u.args.parts).divideTokens k r) 0 (u.gateId k) ∧
              r.state = (if (fieldOf bs 42 1).testBit 0 then .opened else .closed) ∧ r.seq = 0 ∧ r.acl = b.acl ∧ r.windows = b.windows ∧
              r.tokens = fieldOf bs 24 4 ∧ r.win = fieldOf bs 28 4 ∧ r.digest = (fieldOf bs 42 1).testBit 1 ∧ r.ownerCtx = fieldOf bs 16 2 ∧
              r.away = u.awayShadows)) ∧
        (∀ u b, f = 0 → p.next = 0 → s.commandReads reads = .ok u () → aclBlock (block u) ((fieldOf bs 42 1).testBit 1) = some b →
          let ms := (u.aclModules b).eraseDups
          ms ≠ [] → (∀ m ∈ ms ++ u.awayShadows.map (·.1), u.globals.present.contains m = true) →
          ∃ t, exec .gateCreate s = .next t ∧ t.gates = u.gates ∧
            t.sent = u.sent ++ ms.map fun m => .toModule m "partition" (fieldOf bs 32 8) u.globals.modIdx) ∧
        (∀ u, f = 0 → s.commandReads reads = .ok u () →
          aclBlock (block u) ((fieldOf bs 42 1).testBit 1) = none → exec .gateCreate s = ends u 10 0) ∧
        (∀ u t, f = 0 → s.commandReads reads = .fault u t → exec .gateCreate s = .next (u.packetFault qn q p 0 t false [])) ∧
        (f = 1 → g.state = .closed → exec .gateOpen s =
          ends (s.changeGate n { g with state := .opened, kept := [], digests := g.digests.map fun e => (e.1, []) }) 0 0) ∧
        (f = 1 → g.state ≠ .closed → exec .gateOpen s = ends s 1 g.state.code) ∧
        (f = 2 → g.state = .opened → exec .gateClose s = ends (s.changeGate n { g with state := .closed }) 0 0) ∧
        (f = 2 → g.state ≠ .opened → exec .gateClose s = ends s 1 g.state.code) ∧
        (∀ u b, f = 3 → g.state = .closed ∨ g.state = .opened → listed u g.modules g.digest b →
          let pending := fun (e : AclEntry) => ((g.digests.find? fun d => d.1.module == e.module && d.1.ctx == e.ctx).map (·.2)).getD []
          let r : Gate := { g with acl := b.acl, windows := b.windows, tokens := fieldOf bs 24 4, win := fieldOf bs 28 4, away := u.awayShadows,
                                   digests := if g.digest then b.acl.map fun e => (e, pending e) else [] }
          (takesRight g.acl b.acl = false ∨ g.modules = [] ∨ 3 ≤ p.next →
            exec .gateSetacl s = ends (((((u.setGate n r).dropTokens (u.gateId n)).buildShadows n r u.args.parts).tell "publish" (u.gateId n) r
              (g.modules.filter fun m => !r.modules.contains m)).divideTokens n r) 0 0) ∧
          (takesRight g.acl b.acl = true → g.modules ≠ [] → p.next < 3 → ∃ t, exec .gateSetacl s = .next t ∧ t.gates = u.gates ∧
            t.sent = u.sent ++ ((g.modules.eraseDups.filter (· != u.globals.modIdx)).map fun m => Message.gate m (u.gateId n) "publish" r))) ∧
        (f = 3 → g.state ≠ .closed → g.state ≠ .opened → exec .gateSetacl s = ends s 1 g.state.code) ∧
        (f = 4 → g.state = .closed ∨ g.state = .opened →
          let there := fieldOf bs 40 2
          let u := s.changeGate n { g with
            state := .migrating, prior := g.state
            mover := some { newHome := there, deadline := s.cycle + 8000000, module := s.globals.modIdx, queue := x.a, index := p.index } }
          (s.globals.present.contains there = false → exec .gateMove s = ends s 6 0) ∧
          (s.globals.present.contains there = true → there = s.globals.modIdx → exec .gateMove s = .next u) ∧
          (s.globals.present.contains there = true → there ≠ s.globals.modIdx → exec .gateMove s =
            .next ((u.tell "move" id (u.sentRecord n g there) [there]).at_ (s.cycle + 8000000) .homeunreach { Args.none with a := n, flag := true }))) ∧
        (f = 4 → g.state = .migrating → exec .gateMove s =
          if (g.mover.map fun m => (m.module, m.queue, m.index)) = some (s.globals.modIdx, x.a, p.index) then .next s else ends s 1 3) ∧
        (f = 4 → g.state ≠ .closed → g.state ≠ .opened → g.state ≠ .migrating → exec .gateMove s = ends s 1 g.state.code)) ∧
      (is 0x29 → n < 4096 → home < 432 → zeroIn bs 24 63 = true →
        (f = 0 → g.state = .closed ∨ g.state = .opened → exec .gateRevoke s = ends (s.changeGate n { g with state := .revoked }) 0 0) ∧
        (f = 0 → g.state ≠ .closed → g.state ≠ .opened → exec .gateRevoke s = ends s 1 g.state.code) ∧
        (f = 1 → g.state = .revoked → exec .gateFree s =
          ends (({ s with gates := erase s.gates n, shadows := s.shadows.filter fun y => y.gate != id } : State).tell "free" id .zero g.modules) 0 0) ∧
        (f = 1 → g.state ≠ .revoked → exec .gateFree s = ends s 1 g.state.code) ∧
        (f = 2 → g.state = .forward → exec .gateFreefwd s = ends (({ s with
          gates := (erase s.gates n).map fun (e : Nat × Gate) => (e.1, { e.2 with old := e.2.old.filter (· != id) })
          shadows := s.shadows.map fun (y : Shadow) => { y with old := y.old.filter (· != id) } } : State).tell "free" id .zero (g.fwd / 2 ^ 12 :: s.globals.present)) 0 0) ∧
        (f = 2 → g.state ≠ .forward → exec .gateFreefwd s = ends s 1 g.state.code))) ∧
    (∀ y k g, x.b < 96 → x.gate = none → s.shadow x.a x.b = some y → s.localGate x.a = some (k, some g) →
      exec .gatePublication s = .next (s.setShadow { y with state := g.state, seq := published y.seq g.seq (BitVec.ofNat 64 x.c) })) ∧
    (∀ (k : Nat) (g : Gate), g.tokens ≠ 0 →
      let id := s.gateId k
      let here := s.globals.modIdx
      let share := fun (i n : Nat) => g.tokens / n + if i < g.tokens % n then 1 else 0
      let told := fun (a : Nat × Nat × Bool) (n : Nat) => Message.toModule a.1 "tokens" (a.2.1 * 2 ^ 21 + id) n
      ((∀ y ∈ s.shadows, y.gate = id ∧ y.post = true ∧ y.massif < 96) → (s.shadows.map (·.massif)).Pairwise (· < ·) → g.away = [] →
        s.divideTokens k g = { s with
          shadows := s.shadows.zipIdx.map fun e => { e.1 with tokens := some (share e.2 s.shadows.length) } }) ∧
      (∀ y a, s.shadows = [y] → y.gate = id → y.post = true → y.massif < 96 → g.away = [a] → a.2.2 = true → a.1 ≠ here → a.2.1 < 96 →
        let first := decide (here < a.1)
        s.divideTokens k g = { s with
          shadows := [{ y with tokens := some (share (if first then 0 else 1) 2) }]
          sent := s.sent ++ [told a (share (if first then 1 else 0) 2)] }) ∧
      (s.shadows = [] → g.away.Pairwise (fun a b => a.1 * 128 + a.2.1 < b.1 * 128 + b.2.1) → (∀ a ∈ g.away, a.2.2 = true ∧ a.1 ≠ here) →
        s.divideTokens k g = { s with sent := s.sent ++ g.away.zipIdx.map fun e => told e.1 (share e.2 g.away.length) })) ∧
    (x.flag = false → (s.gate x.a).tokens ≠ 0 → s.cycle % (s.gate x.a).win = 0 → exec .tokenDivision s = .next (s.divideTokens x.a (s.gate x.a))) ∧
    (x.flag = false → (s.gate x.a).tokens = 0 ∨ s.cycle % (s.gate x.a).win ≠ 0 → exec .tokenDivision s = .next s) ∧
    (∀ (p : Post) k g, x.gate = none → x.flag = false → x.post = none → s.posts = [p] → p.tile = x.b → p.module = x.d → s.homeId p.gate = s.homeId x.a →
      let u := { s with posts := [] }
      u.localGate p.gate = some (k, some g) →
      (g.state = .opened ∨ g.state = .closed → g.digest = false →
        exec .gatePostArrival s = .next ((u.changeGate k { g with seq := g.seq + 1 }).postDone p)) ∧
      (g.state = .opened ∨ g.state = .closed → g.digest = true → g.kept ≠ [] → p.module = s.globals.modIdx →
        exec .gatePostArrival s = .next (u.postDone p)) ∧
      (g.state = .opened ∨ g.state = .closed → g.digest = true → g.kept = [] → p.module = s.globals.modIdx → ∀ a b d e,
        g.digests.map (fun e => if e.1.module = p.module ∧ e.1.ctx = p.ctx then (e.1, e.2 ++ [p.digest]) else e) = [(a, d), (b, e)] →
        (d = [] ∨ e = [] → exec .gatePostArrival s = .next ((u.setGate k { g with digests := [(a, d), (b, e)] }).postDone p)) ∧
        (∀ v vs ws, d = v :: vs → e = v :: ws → exec .gatePostArrival s =
          .next ((u.changeGate k { g with seq := g.seq + 1, digests := [(a, vs), (b, ws)] }).postDone p)) ∧
        (∀ v vs w ws, d = v :: vs → e = w :: ws → v ≠ w →
          let h : Gate := { g with state := .closed, kept := [v, w], digests := [(a, []), (b, [])] }
          exec .gatePostArrival s = .next ((((u.changeGate k h).divergeAll h).tell "diverged" (s.gateId k) h (g.acl.map (·.module))).postDone p))) ∧
      (g.state = .migrating → p.module = s.globals.modIdx ∨ g.digest = false → exec .gatePostArrival s =
        .next (u.setGate k { g with held := g.held ++ [{ p with gate := s.gateId k }] })) ∧
      (g.state = .revoked ∨ g.state = .free → p.module = s.globals.modIdx →
        exec .gatePostArrival s = .next ((u.post (.plain 0x30 p.ctx p.gate)).postDone p))) ∧
    (∀ g, x.gate = some g → exec .gatePostArrival s = .next (s.divergeAll g)) ∧
    (x.b < 96 →
      let count := if x.flag then x.c else ((s.shadow x.a x.b).map s.waitersAt).getD 0
      let m := if x.flag then x.d else s.globals.modIdx
      (∀ k g, x.gate = none → s.localGate x.a = some (k, some g) → 
        let rest := g.waiters.filter fun w => !(w.1 == m && w.2.1 == x.b)
        exec .waiterRecord s = .next (s.setGate k { g with
          waiters := if count = 0 then rest else rest ++ [(m, x.b, count)], noted := g.noted.map ((m, x.b) :: ·) })) ∧
      (∀ h k g, x.gate = some h → s.localGate x.a = some (k, some g) →
        let new := fun (w : Nat × Nat × Nat) => (g.noted.getD []).contains (w.1, w.2.1)
        exec .waiterRecord s = .next (s.setGate k { g with
          waiters := g.waiters.filter new ++ h.waiters.filter (fun w => !new w), noted := none })) ∧
      (s.localGate x.a = none → exec .waiterRecord s = .next { s with sent := s.sent ++
        [.toModule (s.homeId x.a / 2 ^ 12) "waiters" ((m * 2 ^ 7 + x.b) * 2 ^ 21 + s.homeId x.a) count] })) ∧
    (∀ m, x.flag = false → x.a < 4096 → (s.gate x.a).state = .migrating → (s.gate x.a).mover = some m →
      let g := s.gate x.a
      (∀ k, m.newHome = s.globals.modIdx → s.freeGate = some k → exec .moveInstall s =
        .next ((s.changeGate k { g with
          state := g.prior, mover := none, held := [], old := g.old ++ [s.gateId x.a], noted := none }).moved x.a g (s.gateId k))) ∧
      (m.newHome = s.globals.modIdx → s.freeGate = none → exec .moveInstall s = .next (s.moveFails x.a g 2)) ∧
      (m.newHome ≠ s.globals.modIdx → x.peer.status = 0 → exec .moveInstall s = .next (s.moved x.a g (x.peer.detail.toNat % 2 ^ 21))) ∧
      (m.newHome ≠ s.globals.modIdx → x.peer.status ≠ 0 → exec .moveInstall s = .next (s.moveFails x.a g 2))) ∧
    (∀ g, x.flag = true → x.gate = some g →
      (∀ k, s.freeGate = some k →
        let u := (s.changeGate k { g with
          prior := g.state, mover := none, held := [], old := g.old ++ [x.a]
          noted := if x.a / 2 ^ 12 = s.globals.modIdx then none else some [] }).renameShadows x.a (s.gateId k)
        exec .moveInstall s = .next { u with sent := u.sent ++ [.toModule x.d "installed" x.a (s.gateId k)] }) ∧
      (s.freeGate = none → exec .moveInstall s = .next { s with sent := s.sent ++ [.toModule x.d "installed" x.a (2 ^ 21)] })) ∧
    (∀ m, x.c = 0 → x.flag = true → x.a < 4096 → (s.gate x.a).state = .migrating → (s.gate x.a).mover = some m → m.newHome ≠ s.globals.modIdx →
      exec .homeunreach s = .next (if s.cycle < m.deadline then s else s.moveFails x.a (s.gate x.a) 6)) ∧
    (∀ k g, s.localGate x.a = some (k, some g) → g.state ≠ .free → g.state ≠ .forward →
      let others := ((g.acl.map (·.module)).eraseDups).filter (· != s.globals.modIdx)
      let told := { g with away := s.awayShadows }
      (x.flag = false → others = [] → exec .partitionChangeReport s = .next ((s.setGate k g).buildShadows k g x.parts)) ∧
      (x.flag = false → others ≠ [] → exec .partitionChangeReport s = .next { s with
        sent := s.sent ++ others.map fun m => .toModule m "partition" (s.gateId k) s.globals.modIdx }) ∧
      (x.flag = true → x.peer.status = 0 → exec .partitionChangeReport s = .next ((s.setGate k told).buildShadows k told x.parts))) ∧
    (∀ k g parts,
      let id := s.gateId k
      let u := s.buildShadows k g parts
      let spans := fun (e : AclEntry) (m : Nat) => ∃ c r, s.partitionOf parts e = some c ∧ find s.partitions c = some r ∧ m ∈ r.massifs
      (∀ y, y.gate ≠ id → (y ∈ u.shadows ↔ y ∈ s.shadows)) ∧
      (∀ m, m < 96 → ((∃ y ∈ u.shadows, y.gate = id ∧ y.massif = m) ↔ ∃ e ∈ g.acl, spans e m)) ∧
      (∀ y ∈ u.shadows, y.gate = id → y.state = g.state ∧ y.digest = g.digest ∧ y.old = g.old ∧
        (y.post = true ↔ ∃ e ∈ g.acl, e.post = true ∧ spans e y.massif) ∧
        (∀ c a w, (c, a, w) ∈ y.rights ↔ ∃ e ∈ g.acl, e.module = s.globals.modIdx ∧ e.ctx = c ∧ e.post = a ∧ e.wait = w ∧ spans e y.massif))) ∧
    (∀ k, x.c ≠ 0 → s.carried = [k] → k.module = x.d → k.queue = x.a → k.index = x.b →
      let v := if k.next = 3 then s.republish k.record else s
      exec .homeunreach s = .next (if s.cycle < k.deadline then s else { v with
        carried := v.carried.filter fun y => !(y.module == x.d && y.queue == x.a && y.index == x.b)
        sent := v.sent ++ [.status x.d x.a x.b 6 0] })) ∧
    (∀ q p, x.c = 0 → x.flag = false → x.a < 98304 → find s.queues x.a = some q →
      q.packets.find? (fun p => p.index == x.b && !p.complete && decide (2 ≤ p.next) && p.next != statusHeld) = some p →
      (pkKind p.bytes ≠ 0x28 ∨ fieldOf p.bytes 18 1 % 8 ≠ 3 ∨ p.next = 2 →
        exec .homeunreach s = .next (if s.cycle < p.deadline then s else (s.undoCommand p.bytes).finishCommand x.a p 6 0)) ∧
      (pkKind p.bytes = 0x28 → fieldOf p.bytes 18 1 % 8 = 3 → p.next = 3 →
        exec .homeunreach s = .next (if s.cycle < p.deadline then s else (s.republish (fieldOf p.bytes 20 2)).finishCommand x.a p 6 0)))

/-- Links, the cycle count, power, bring-up, and the host's accesses (R24, R362, R363, R369, R370, R371, R372, R377, R379, R380, R384). SLOT_SET is accepted and takes effect at the next frame boundary; the link commands and the outcome of training move a link between its states; a replay counts and eight of one flit retrain the link; a received count that is not 96 behind retrains and reports; power requests start a transition of the given length, or leave an error code; a reset of the module runs bring-up to its result; a host access reads or writes device memory, or the host's own. The moment of SLOT_SET's checks (log 56), the outcome of training in the event (log 57), the cycle of OFF and the rescaling of due cycles (log 58), what MODULE_RESET keeps (log 59), the stages' times (log 111), the marks of errors in retention (log 110) and what the CXL port carries (log 108) are the model's. -/
def Obligations.LinksAndPower : Prop :=
  ∀ (s : State),
    let x := s.args
    let l := x.a
    let k := s.link_ l
    let m := x.a
    let w := s.powerOf m
    (∀ (qn : Nat) (q : Queue) (p : Packet), s.accepts 0x27 qn q p →
      let bs := p.bytes
      let n := fieldOf bs 20 2
      let dir := fieldOf bs 22 1
      let mask := fieldOf bs 24 8
      let owner := fieldOf bs 32 1
      fieldOf bs 18 1 = 0 → n < 420 → dir < (if n < 356 then 2 else 1) → zeroIn bs 23 24 = true → owner < 96 ∨ owner = 0xFF → zeroIn bs 33 63 = true →
      (p.next = 1 → exec .slotSet s = .next s) ∧
      (∀ i, p.next ≠ 1 → owner ≠ 0xFF → (s.link_ n).taken dir mask owner = some i → exec .slotSet s = .next (s.finishCommand qn p 1 i)) ∧
      (p.next ≠ 1 → owner = 0xFF ∨ (s.link_ n).taken dir mask owner = none → exec .slotSet s =
        .next (((s.onLink n fun y => { y with changes := y.changes ++ [{ dir := dir, mask := mask, owner := owner, queue := s.args.a, index := p.index }] }).onPacket
          s.args.a p.index fun p => { p with next := 1 }).at_ ((s.cycle / frameOf n + 1) * frameOf n) .slotFrameBoundary { Args.none with a := n }))) ∧
    (l < 420 → k.changes = [] → exec .slotFrameBoundary s = .next s) ∧
    (l < 420 → k.changes ≠ [] → s.cycle % frameOf l ≠ 0 → exec .slotFrameBoundary s =
      .next (s.at_ ((s.cycle / frameOf l + 1) * frameOf l) .slotFrameBoundary { Args.none with a := l })) ∧
    (∀ c q p, l < 420 → k.changes = [c] → s.cycle % frameOf l = 0 → find s.queues c.queue = some q →
      q.packets.find? (fun p => p.index == c.index) = some p →
      exec .slotFrameBoundary s = .next ((s.onLink l fun y => { y with
        changes := []
        slots0 := if c.dir = 0 then c.slots y.slots0 else y.slots0
        slots1 := if c.dir = 0 then y.slots1 else c.slots y.slots1 }).finishCommand c.queue p 0 0)) ∧
    (l < 421 →
      let goes := fun (st : LinkState) => (Host.Outcome.next (s.onLink l fun y => { y with state := st, attempts := 0, again := 0 }) : Out)
      (l ≠ 420 → s.hostPort = false → exec .linkCmdRetrain s = .next s ∧ exec .linkCmdDown s = .next s ∧ exec .linkCmdTrain s = .next s) ∧
      (l = 420 ∨ s.hostPort = true →
      exec .linkCmdRetrain s = (if k.state = .active ∨ k.state = .degraded then goes .retraining else .next s) ∧
      exec .linkCmdDown s = (if 356 ≤ l ∧ (k.state = .active ∨ k.state = .degraded ∨ k.state = .retraining) then
        .next ((s.onLink l fun y => { y with state := .down }).loseOn l) else .next s) ∧
      exec .linkCmdTrain s = (if 356 ≤ l ∧ (420 ≤ l ∨ (s.facing l).isSome = true) ∧ (k.state = .down ∨ k.state = .failed) then goes .training else .next s)) ∧
      exec .peerTraining s = (if 356 ≤ l ∧ l < 420 ∧ (s.facing l).isSome = true ∧ k.state = .down then goes .training else .next s) ∧
      (k.state = .training ∨ k.state = .retraining →
        (x.b = 16 ∨ x.b = 8 ∨ x.b = 4 → exec .trainingResult s = .next ((s.onLink l fun y => { y with
          state := if x.b = 16 then .active else .degraded
          width := x.b, rate := if l = 420 then (if x.c = 2 then 2 else 1) else 0, attempts := 0, again := 0 }).unstall l)) ∧
        (x.b ∉ [16, 8, 4] → k.attempts < 2 → exec .trainingResult s = .next (s.onLink l fun y => { y with attempts := y.attempts + 1 })) ∧
        (x.b ∉ [16, 8, 4] → 2 ≤ k.attempts →
          let u := s.onLink l fun y => { y with state := .failed, attempts := 0 }
          exec .trainingResult s = .next (if l < 356 then u.edgeFails l else u.loseOn l)))) ∧
    -- what is on a link: it has entered it and not left the crossing, replays included
    (∀ y : Transit, y.on s.cycle l = true ↔
      ∃ h c, y.last = some (h, c) ∧ h.link = l ∧ (y.stalled = true ∨ s.cycle < c + y.late + (if l < 356 then 12 else 96))) ∧
    ((∀ y ∈ s.transit, y.on s.cycle l = false) → s.loseOn l = s ∧ s.unstall l = s) ∧
    (∀ y h c, s.transit = [y] → y.last = some (h, c) → h.link = l → y.stalled = true → y.hops ≠ [] →
      s.unstall l = { s with transit := [{ y with stalled := false, ready := s.cycle + h.after, last := some (h, s.cycle), late := 0 }] }) ∧
    (∀ y, s.transit = [y] → y.on s.cycle l = true → l < 356 → isLocal y.op.src = true →
      s.loseOn l = ({ s with transit := [] } : State).remoteDone y.op.src y.op.id) ∧
    (l < 421 → k.state = .active ∨ k.state = .degraded →
      let n := if x.flag then k.again + 1 else 1
      exec .crcRetry s = .next { (s.onLink l fun y => { y with
        retries := satInc y.retries 1
        again := if n < 8 then n else 0
        busy0 := if x.b = 0 then max y.busy0 s.cycle + x.c else y.busy0
        busy1 := if x.b = 0 then y.busy1 else max y.busy1 s.cycle + x.c
        state := if n < 8 then y.state else .retraining }) with
        transit := s.transit.map fun y =>
          if y.on s.cycle l = true ∧ (y.last.any fun e => e.1.dir == x.b && decide (x.d ≤ e.2)) = true then
            { y with ready := y.ready + x.c, late := y.late + x.c, stalled := y.stalled || decide (8 ≤ n) } else y }) ∧
    (356 ≤ l → l < 420 → k.state = .active ∨ k.state = .degraded →
      (x.c + 96 = s.cycle → exec .syncFlit s = .next s) ∧
      (x.c + 96 ≠ s.cycle →
        let u := s.onLink l fun y => { y with state := .retraining, attempts := 0, again := 0 }
        exec .syncFlit s = .next { u with globals := { s.globals with
          missync := true
          clkfree := s.globals.clkfree || (List.range 64).all fun p => !(u.link_ (356 + p)).up } })) ∧
    (x.a < 432 →
      let present := (x.a :: (x.parts.map (·.1)).filter (· < 432)).eraseDups
      (s.groups ≠ [] → exec .domainBringUp s = .next s) ∧
      (s.groups = [] →
        let u := { s with globals := { s.globals with modIdx := x.a, present := present, missync := false, clkfree := false } }
        exec .domainBringUp s = .next (if present.all fun m => decide (x.a ≤ m) then u.downUnfaced else (u.loadCount x.c).downUnfaced))) ∧
    (∀ c : Nat, let u := s.loadCount c
      u.cycle = c ∧ (∀ e ∈ s.timers,
        (e.2.1 = .slotFrameBoundary → ((c / frameOf e.2.2.a + 1) * frameOf e.2.2.a, e.2) ∈ u.timers) ∧ (e.2.1 = .timedRelease → e ∈ u.timers))) ∧
    (s.downUnfaced.link_ l = if 356 ≤ l ∧ l < 420 ∧ s.facing l = none then { k with state := .down, width := 0, rate := 0 } else k) ∧
    (m < 96 →
      let err := fun (e : Nat) => (Host.Outcome.next (s.setPower m { w with lastErr := e }) : Out)
      let starts := fun (p : PowerState) (c : Nat) => (Host.Outcome.next
        ((s.setPower m { w with pending := some (p, c), lastErr := 0 }).at_ c .powerTransitionDone { Args.none with a := m }) : Out)
      (s.hostPort = false →
        exec .powerReqFull s = .next s ∧ exec .powerReqReduced s = .next s ∧ exec .powerReqRetention s = .next s ∧ exec .powerReqOff s = .next s) ∧
      (s.hostPort = true → w.pending.isSome = true →
        exec .powerReqFull s = err 1 ∧ exec .powerReqReduced s = err 1 ∧ exec .powerReqRetention s = err 1 ∧ exec .powerReqOff s = err 1) ∧
      (s.hostPort = true → w.pending = none →
        (w.state = .off → exec .powerReqFull s = starts .full (s.cycle + 16384) ∧ exec .powerReqReduced s = starts .reduced (s.cycle + 16384) ∧
          exec .powerReqOff s = err 2 ∧ exec .powerReqRetention s = err 2) ∧
        (w.state = .retention → exec .powerReqFull s = starts .full (s.cycle + 1536) ∧
          exec .powerReqReduced s = starts .reduced (s.cycle + 1536) ∧ exec .powerReqRetention s = err 2) ∧
        (w.state = .full → exec .powerReqFull s = err 2 ∧
          exec .powerReqReduced s = (if s.massifLockstep m then err 3 else starts .reduced ((s.cycle / 4096 + 1) * 4096))) ∧
        (w.state = .reduced → exec .powerReqReduced s = err 2 ∧
          exec .powerReqFull s = (if s.massifLockstep m then err 3 else starts .full ((s.cycle / 4096 + 1) * 4096))) ∧
        (w.state = .full ∨ w.state = .reduced →
          exec .powerReqRetention s = (if s.massifIdle m then starts .retention (s.cycle + 1536) else err 1)) ∧
        (w.state ≠ .off → s.massifIdle m = false → exec .powerReqOff s = err 1) ∧
        (w.state ≠ .off → s.massifIdle m = true → ∃ c, s.cycle ≤ c ∧ c ≤ s.cycle + 1536 ∧ exec .powerReqOff s =
          .next ((({ s with freeCtr := s.freeCtr + 1 }).setPower m { w with pending := some (.off, c), lastErr := 0 }).at_ c .powerTransitionDone
            { Args.none with a := m })))) ∧
    (∀ p d, m < 96 → w.pending = some (p, d) →
      (s.cycle < d → exec .powerTransitionDone s = .next s) ∧
      (d ≤ s.cycle → w.state = .full → p = .retention → x.parts = [] → (∀ e ∈ s.tilesAt m, e.2.ecc = []) →
        exec .powerTransitionDone s = .next ((s.setPower m { w with state := .retention, pending := none }).summit)) ∧
      (d ≤ s.cycle → w.state = .retention → p = .full → x.parts = [] → s.parkedAtEdge = [] → (∀ e ∈ s.tilesAt m, e.2.ecc = []) →
        exec .powerTransitionDone s = .next ((((s.setPower m { w with state := .full, pending := none }).onMerr m fun e =>
          { e with retce := satInc e.retce x.c })).summit)) ∧
      (d ≤ s.cycle → s.parkedAtEdge = [] → ∀ a b, (w.state = .full ∧ p = .reduced ∧ a = 1 ∧ b = 2) ∨ (w.state = .reduced ∧ p = .full ∧ a = 2 ∧ b = 1) →
        exec .powerTransitionDone s = .next { (s.setPower m { w with state := p, pending := none }) with
          tile := if massifOf s.cur = m then s.tile.rescale s.cycle a b else s.tile
          tiles := s.tiles.map fun e => if massifOf e.1 = m then (e.1, e.2.rescale s.cycle a b) else e
          timers := (s.timers.map fun e => if e.2.1 == .gangStopSignal && massifOf e.2.2.a == m then (rescaled s.cycle a b e.1, e.2) else e) ++
            [(s.cycle, .placementDecision, .none)] }) ∧
      (d ≤ s.cycle → w.state ≠ .off → p = .off → s.parkedAtEdge = [] → ∃ u, exec .powerTransitionDone s = .next u ∧
        u.powerOf m = { w with state := .off, pending := none } ∧ ∀ t, massifOf t = m → s.tileExists t = true →
          (u.getTile t).spad = { epoch := some s.nextNum, cells := [] } ∧ (u.getTile t).imem = { epoch := some (s.nextNum + 1), cells := [] } ∧
          (u.getTile t).ecc = [] ∧ (u.getTile t).iecc = []) ∧
      (d ≤ s.cycle → w.state = .off → p = .full ∨ p = .reduced → s.parkedAtEdge = [] → ∃ u, exec .powerTransitionDone s = .next u ∧
        u.powerOf m = { w with state := p, pending := none } ∧ ∀ t, massifOf t = m → s.tileExists t = true →
          (u.getTile t).spad = .empty ∧ (u.getTile t).imem = .empty ∧ (u.getTile t).regs = (s.getTile t).regs)) ∧
    (∀ now c : Nat, rescaled now 1 2 (now + c) = now + 2 * c ∧ rescaled now 2 1 (now + 2 * c) = now + c ∧ (c ≤ now → rescaled now 1 2 c = c) ∧
      (2 * c ≤ now → rescaledPast now 1 2 (now - c) = now - 2 * c ∧ rescaledPast now 2 1 (now - 2 * c) = now - c)) ∧
    (x.a = 0 → ∃ u, exec .moduleReset s = .next u ∧ u.globals.modIdx = s.globals.modIdx ∧ u.globals.mapped = s.globals.mapped ∧
      u.counters = s.counters ∧ u.cycle = s.cycle ∧ u.contexts = [] ∧ u.groups = [] ∧ u.launches = [] ∧ u.gates = [] ∧ u.queues = [] ∧ u.tlb = [] ∧
      u.tiles = State.reset.tiles ∧ u.tile = State.reset.tile ∧ u.globals.step = 0x40 ∧ u.globals.stagger = true ∧ u.globals.win = 0x400 ∧
      u.globals.bootstat = 1 ∧ ∃ c, s.cycle < c ∧ u.timers = [(c, .moduleReset, { x with a := 1, b := 0 })]) ∧
    (x.a ≠ 0 → 7 ≤ x.a ∨ s.globals.boot ≠ x.a → exec .moduleReset s = .next s) ∧
    (let ends := fun (k : Nat) (P : Globals → Prop) => s.globals.boot = k → x.a = k → ∃ u, exec .moduleReset s = .next u ∧ P u.globals ∧
       u.contexts = s.contexts ∧ u.tiles = s.tiles
     (x.boot = .fwFail → ends 1 fun g => g.boot = 0x80 ∧ g.bootDetail = 0) ∧
     (x.boot ≠ .fwFail → ends 1 fun g => g.boot = 2 ∧ g.measured = firmwareOf s.globals.modIdx) ∧
     -- the training of stage 2: the CXL port and the edges from its start, the ridge ports in its second part
     (x.boot ≠ .fwFail → s.globals.boot = 1 → x.a = 1 → ∃ u, exec .moduleReset s = .next u ∧ ∀ l < 421, u.link_ l =
       if (l < 356 ∨ l = 420) ∧ (s.link_ l).state = .down then { Link.zero with state := .training } else s.link_ l) ∧
     (∀ l y, find s.links l = some y → find (s.endTraining x.parts x.boot).links l = some (
       if y.state ≠ .training then y
       else if x.boot = .linkFail l then { Link.zero with state := .failed }
       else match x.parts.find? (fun e => e.1 == l) with
         | some e => trained l e.2.1 e.2.2
         | none => { Link.zero with state := .active, width := 16, rate := if l = 420 then 1 else 0 })) ∧
     (let v := s.endTraining x.parts x.boot
      let failed := fun (l : Nat) => l < 356 ∧ ∃ y, (l, y) ∈ v.links ∧ y.state = .failed
      (x.b ≠ 1 → (∃ l, failed l) → s.globals.boot = 2 → x.a = 2 → ∃ u l, exec .moduleReset s = .next u ∧ failed l ∧
        u.globals.boot = 0x81 ∧ u.globals.bootDetail = l) ∧
      (x.b ≠ 1 → (∀ l, ¬ failed l) → s.globals.boot = 2 → x.a = 2 → ∃ u c, exec .moduleReset s = .next u ∧ u.globals.boot = 2 ∧
        s.cycle < c ∧ u.timers = s.timers ++ [(c, .moduleReset, { x with a := 2, b := 1 })] ∧
        ∀ l < 421, u.link_ l = if 356 ≤ l ∧ l < 420 ∧ (s.facing l).isSome = true ∧ (v.link_ l).state = .down then
          { Link.zero with state := .training } else v.link_ l)) ∧
     (x.b = 1 → ends 2 fun g => g.boot = 3) ∧
     (∀ k, (∀ e, x.boot ≠ .repairFail e) → k < 96 → 2 < (s.globals.rowsOut k).length → (∀ j < k, (s.globals.rowsOut j).length ≤ 2) →
       ends 3 fun g => g.boot = 0x83 ∧ g.bootDetail = k) ∧
     (∀ k, x.boot = .repairFail k → ends 3 fun g => g.boot = 0x83 ∧ g.bootDetail = k) ∧
     ((∀ e, x.boot ≠ .repairFail e) → (∀ k < 96, (s.globals.rowsOut k).length ≤ 2) → ends 3 fun g => g.boot = 4) ∧
     (∀ k, x.boot = .selfTestFail k → ends 4 fun g => g.boot = 0x82 ∧ g.bootDetail = k) ∧
     ((∀ e, x.boot ≠ .selfTestFail e) → ends 4 fun g => g.boot = 5) ∧
     (ends 5 fun g => g.boot = 6) ∧
     (s.globals.boot = 6 → x.a = 6 → ∃ u, exec .moduleReset s = .next u ∧ u.globals.boot = 7 ∧ u.contexts = s.contexts ∧
       u.cycle = (if s.globals.source then s.cycle else s.cycle + x.c) ∧
       (∀ k, (u.powerOf k).state = .full ∧ (u.powerOf k).pending = none) ∧
       (∀ t, (u.getTile t).spad = .empty ∧ (u.getTile t).imem = .empty ∧ (u.getTile t).ecc = [] ∧ (u.getTile t).iecc = []))) ∧
    (x.a < 2 ^ 25 → s.hostPort = false → exec .registerWrite s = .next s) ∧
    (x.a < 2 ^ 25 → s.hostPort = true →
      let u := (x.bytes.zipIdx).foldl (fun u e => u.bar0Write (x.a + e.2) e.1) s
      (x.a + x.bytes.length ≤ 0x200000 ∨ 0x240000 ≤ x.a → exec .registerWrite s = .next u) ∧
      (∀ k, x.a = 0x200000 + 64 * k + 8 → k < 4096 → x.bytes.length = 8 → leNat x.bytes ∉ [1, 2, 3] →
        exec .registerWrite s = .next (u.setInterface k { u.interface k with ires := 1 })) ∧
      (∀ k, x.a = 0x200000 + 64 * k + 8 → k < 4096 → x.bytes.length = 8 → leNat x.bytes ∈ [1, 2, 3] → exec .registerWrite s = .next u)) ∧
    (x.a < s.globals.hdmBase ∨ 0x140000000000 ≤ x.a - s.globals.hdmBase → exec .hostCxlMemAccess s =
      .next (if x.flag then { s with host := s.host.writeCells (cellsAt x.a x.bytes) }
        else { s with sent := s.sent ++ [.readData (s.host.bytes x.a x.c)] })) ∧
    (x.flag = true → s.hostPort = true → s.globals.hdmBase ≤ x.a → x.a - s.globals.hdmBase < 0x140000000000 → ownDpa (x.a - s.globals.hdmBase) ≠ .bad →
      exec .hostCxlMemAccess s = .next (s.dpaWrite (x.a - s.globals.hdmBase) x.bytes)) ∧
    (x.flag = false → s.hostPort = true → s.globals.hdmBase ≤ x.a → x.a - s.globals.hdmBase < 0x140000000000 → ownDpa (x.a - s.globals.hdmBase) ≠ .bad →
      let r := s.hostEcc (x.a - s.globals.hdmBase) x.c
      exec .hostCxlMemAccess s = .next { r.1 with
        sent := r.1.sent ++ [if r.2 then .poison else .readData (r.1.dpaBytes (x.a - s.globals.hdmBase) x.c)] })

/-- A step runs the decoded instruction (R79, R80, R127, R141). When the phase at hand is the issue of a lone issuing tile with nothing else before its bundle, and the bundle at its pc decodes to one syllable among NOPs, step executes exec of that syllable with its slot, the literal and no pending transfer set; the transfer that was pending or the next address follows, the next bundle issues one tile cycle later, and a tile whose request finds its halt point there halts in this cycle; a syllable that traps leaves only the trap. A step first executes an event that is due, with its arguments, and with nothing left of a cycle it enters the next. The order of events and phases inside a cycle is the model's choice (log 4, DESIGN CHOICE), and so is the halt in the cycle of the halt point's bundle (log 14) unless a trap of that bundle comes first (log 88). -/
def Obligations.StepRunsDecoded : Prop :=
  (∀ (s u : State) (i : Instr) (x : Args), s.nextEvent = some ((i, x), u) → step s = exec i { u with args := x }) ∧
  (∀ s : State, s.nextEvent = none → s.todo = [] → step s = .next s.tick) ∧
  (∀ s : State, find s.tile.iecc (s.tile.ctl.pc / 32) = none → s.tile.stale = [] → s.tile.ctl.levels = [] →
    s.fetch s.tile.ctl.pc = (s, some (s.tile.bundleAt s.tile.ctl.pc))) ∧
  (∀ (s u w : State) (rest : List (Nat × Phase)) (b : Bundle) (l pre post : Syllables) (k : Nat) (i : Instr),
    s.nextEvent = none → s.todo = (s.cur, .issue) :: rest → s.tile.place.status = .issuing → s.tile.place.members.length ≤ 1 →
    s.tile.place.stop = none → s.tile.ctl.nextIssue ≤ s.cycle → s.tile.ctl.leaving = false → s.tile.place.gated = false →
    (s.tile.ctl.haltPoint = false ∨ s.tile.ctl.requested = false) → s.tile.ctl.entry = none → s.tile.ctl.landing = none →
    s.tile.ctl.pc % 32 = 0 → s.tile.ctl.pc < 0x10000 →
    s.fetch s.tile.ctl.pc = (u, some b) → checkBundle u.tile.mx.mode b = .ok l →
    ¬(s.cycle < s.tile.ctl.scatterUntil ∧ isMemory (b.syllable 3) = true) → stageCheck s.tile.ctl.levels s.tile.ctl.pc l = .ok l →
    l = pre ++ [(k, i)] ++ post → (∀ e ∈ pre ++ post, ∃ m, e.2 = Instr.nop m) →
    exec i { u with
      lastTrap := none
      tile := { u.tile with
        slot := k, lit := Bundle.literal b, kval := none
        ctl := { u.tile.ctl with transfer := none, lastPc := u.tile.ctl.pc } } } = .next w →
    (w.lastTrap = none → overFlow u.tile w.tile = none →
      let v := { w with tile := { w.tile with
        slot := 0, lit := none, kval := none
        ctl := { w.tile.ctl with nextIssue := u.after 1 } } }
      let r := if w.tile.place.status = .starting ∨ w.tile.place.status = .ended then v
        else v.advance u.tile.ctl.transfer u.tile.ctl.levels v.tile.ctl.requested
      r.tile.place.members.length ≤ 1 →
      (r.haltsNow = false → step s = .next { r with todo := r.todo.drop 1 }) ∧
      (r.haltsNow = true → step s = .next { r.preempted r.tile.ctl.waits with todo := r.todo.drop 1 })) ∧
    (∀ x, w.lastTrap = some x → step s = .next ({ u with tile := { u.tile with slot := k } }.takeTrap x)))

/-- The state after reset (R37, R362, R373, R379, R381, R384). After reset VFMT names FP32 in its three formats, STEP is 0x40, the stagger is on, WIN is 0x400 and bring-up has not begun; no tile issues, no context, queue, gate, group or launch exists, no link is up, and every memory is canonical. That tiles are idle with empty registers of control (log 1), that no context, queue, gate, group, launch or cached entry exists and CLKSTAT is zero (log 2, both DESIGN CHOICE) and the canonical form of memories (log 71) are the model's; the other values are the spec's. -/
def Obligations.ResetState : Prop :=
  let s := State.reset
  s.tile.csr.vfmt = 0x4210 ∧ s.tile.aFmt = some (.ieee 32 24 8) ∧ s.globals.step = 0x40 ∧ s.globals.stagger = true ∧ s.globals.win = 0x400 ∧
    s.globals.limctl = 0x40010400 ∧ s.globals.bootstat = 0 ∧ s.globals.clkstat = 0 ∧ s.tile.place.status = .idle ∧ s.contexts = [] ∧
    s.queues = [] ∧ s.gates = [] ∧ s.groups = [] ∧ s.launches = [] ∧ s.tlb = [] ∧ s.tile.flights = [] ∧ s.tile.ctl.handler = false ∧
    s.tile.ctl.levels = [] ∧ (∀ l, (s.link_ l).state = .down ∧ (s.link_ l).lstat = 0) ∧ (∀ m, (s.powerOf m).state = .full) ∧
    (∀ n, (s.queue n).state = .free) ∧ (∀ n, (s.gate n).state = .free) ∧ s.memOk = true

/-- A syllable lands nothing by itself (R50, R51, R80, R152). Whatever syllable executes, and whether it completes or traps: no register of the tile, no latch, no byte of its scratchpad or its instruction memory changes in that execution, and no other tile, no group, context, partition, launch, gate record or link; results and stores take effect later, as landings and store writes. -/
def Obligations.SyllableFrame : Prop :=
  ∀ (i : Instr) (s t : State), i.home ≠ none → exec i s = .next t →
    t.tile.regs = s.tile.regs ∧ t.tile.lat = s.tile.lat ∧ (∀ a n, t.tile.spad.bytes a n = s.tile.spad.bytes a n) ∧
    (∀ a n, t.tile.imem.bytes a n = s.tile.imem.bytes a n) ∧ t.tile.csr.vfmt = s.tile.csr.vfmt ∧ t.tile.csr.seed = s.tile.csr.seed ∧
    t.cur = s.cur ∧ t.tiles = s.tiles ∧ t.cycle = s.cycle ∧ t.groups = s.groups ∧ t.contexts = s.contexts ∧ t.partitions = s.partitions ∧
    t.launches = s.launches ∧ t.gates = s.gates ∧ t.links = s.links

/-- The exact values of quires, products and blocks (R62, R69, R70, R74, R191, R192, R219). A quire word is the two's complement of its integer and 2^(W-1) is NaR; qadd is the exact sum, NaR with QOVF past the range and NaR for a NaR. A product of two operands is exact, NaR with INV for an infinity and NaR for a NaN; every product of two formats is an integer number of LSBs of its view, with 31 bits to spare, and so is every single value in an F quire. The sum that VQDOT and VQACC add is that of the active elements, NaR when one of them is, with their flags. VQSCALE multiplies by 2^k and drops what lies below the LSB. qround rounds the exact value of the quire times the scale once, a zero being +0, and gives NaR, the canonical NaN, or 0 with NV for a NaR. A block element is its nibble times 2^(E8 - 127), NaR for 0xFF, NaR with INV for a reserved byte; MSCALE folds the entry times 2^-8 and the two scales, exactly. -/
def Obligations.QuireValues : Prop :=
  let rat := fun (v : Val) => (v.num : ℚ) / v.den
  let format := fun (F : Fmt) => ∃ c, Fmt.ofCode c = some F
  (∀ W ∈ ([32, 256, 512, 1024] : List Nat),
    quireInt W (2 ^ (W - 1)) = none ∧ quireWord W none = 2 ^ (W - 1) ∧ (∀ w, w < 2 ^ W → quireWord W (quireInt W w) = w) ∧
    (∀ i : ℤ, -2 ^ (W - 1) < i → i < 2 ^ (W - 1) →
      quireInt W (quireWord W (some i)) = some i ∧ quireWord W (some i) < 2 ^ W ∧ (quireWord W (some i) : ℤ) % 2 ^ W = i % 2 ^ W) ∧
    (∀ a b : ℤ, qadd W (some a) (some b) = if |a + b| ≤ 2 ^ (W - 1) - 1 then (some (a + b), 0) else (none, Flag.QOVF)) ∧
    ∀ q, qadd W none q = (none, 0) ∧ qadd W q none = (none, 0)) ∧
  (∀ (s t : Bool) (n d m e : Nat) (b : Val),
    quireProduct (.fin s n d) (.fin t m e) = (.fin (s != t) (n * m) (d * e), 0) ∧
    quireProduct (.inf s) b = (.nan, Flag.INV) ∧ quireProduct b (.inf s) = (.nan, Flag.INV) ∧
    (b.isInf = false → quireProduct .nan b = (.nan, 0) ∧ quireProduct b .nan = (.nan, 0)) ∧
    quireTerm (.inf s) = (.nan, Flag.INV) ∧ (b.isInf = false → quireTerm b = (b, 0)) ∧ (∀ W, Val.nan.toQuire W = none)) ∧
  (∀ (F G : Fmt) (x y v : Nat), format F → format G → max F.view G.view ≤ v → v ≤ 2 →
    let W := viewBits v
    let A := (F.xval x).1
    let B := (G.xval y).1
    A.isNan = false → A.isInf = false →
      (∃ q : ℤ, (quireTerm A).1.toQuire 1024 = some q ∧ (q : ℚ) = rat A * 2 ^ 512) ∧
      (B.isNan = false → B.isInf = false →
        ∃ q : ℤ, (quireProduct A B).1.toQuire W = some q ∧ (q : ℚ) = rat A * rat B * 2 ^ (W / 2) ∧ |q| ≤ 2 ^ (W - 32))) ∧
  (∀ (act : Nat → Bool) (term : Nat → VF) (n : Nat),
    let r := sumTerms act term n
    let q := fun e => (term e).1.toQuire 1024
    ((∀ e < n, act e = true → q e ≠ none) → r.1 = some (((List.range n).map fun e => if act e then (q e).getD 0 else 0).sum)) ∧
    ((∃ e < n, act e = true ∧ q e = none) → r.1 = none) ∧
    ∀ i, r.2.getLsbD i = true ↔ ∃ e < n, act e = true ∧ (term e).2.getLsbD i = true) ∧
  (∀ (q : QReg) (k : ℤ),
    (quireInt 1024 q.toNat = none → scaleQuire q k = (q, 0)) ∧
    ∀ i, quireInt 1024 q.toNat = some i →
      let j := ⌊(i : ℚ) * 2 ^ k⌋
      scaleQuire q k = if |j| ≤ 2 ^ 1023 - 1 then (.ofNat 1024 (quireWord 1024 (some j)), 0) else (.ofNat 1024 (2 ^ 1023), Flag.QOVF)) ∧
  (∀ (W : Nat) (D : Fmt) (z : Option Nat) (x : Val),
    qround W none x D z = D.rnd .nan z ∧ (∀ q, qround W q .nan D z = D.rnd .nan z) ∧
    (∀ (i : ℤ) (s : Bool) (n d : Nat), 0 < d → ∃ (u : Bool) (m e : Nat), 0 < e ∧ (m = 0 → u = false) ∧
      rat (.fin u m e) = i * rat (.fin s n d) / 2 ^ (W / 2) ∧ qround W (some i) (.fin s n d) D z = D.rnd (.fin u m e) z) ∧
    (∀ n es, (Fmt.tap n es).rnd .nan z = (2 ^ (n - 1), 0)) ∧ (∀ s w, (Fmt.int s w).rnd .nan z = (0, Flag.NV)) ∧
    (Fmt.ieee 32 24 8).rnd .nan z = (0x7FC00000, 0) ∧ (Fmt.ieee 16 8 8).rnd .nan z = (0x7FC0, 0) ∧ (Fmt.ieee 16 11 5).rnd .nan z = (0x7E00, 0)) ∧
  (∀ w e8 es : Nat, es < 2 →
    bdecode w 0xFF es = (.nan, 0) ∧ (e8 < 0x20 ∨ (0xDF < e8 ∧ e8 ≠ 0xFF) → bdecode w e8 es = (.nan, Flag.INV)) ∧
    (0x20 ≤ e8 → e8 ≤ 0xDF →
      (w % 16 = 8 → bdecode w e8 es = (.nan, 0)) ∧
      (w % 16 ≠ 8 → ∃ (s : Bool) (n d : Nat), 0 < d ∧ bdecode w e8 es = (.fin s n d, 0) ∧
        rat (.fin s n d) = rat ((Fmt.tap 4 es).xval w).1 * (2 : ℚ) ^ ((e8 : ℤ) - 127)))) ∧
  ∀ entry ea eb : Nat, entry < 2 ^ 32 →
    let barred := fun (e : Nat) => e < 0x20 ∨ 0xDF < e
    (foldValue entry ea eb = none ↔ barred ea ∨ barred eb ∨ entry = 2 ^ 31) ∧
    ∀ v, quireInt 32 entry = some v → ¬ barred ea → ¬ barred eb →
      ∃ q : ℤ, foldValue entry ea eb = some q ∧
        (q : ℚ) = v * (2 : ℚ) ^ (-8 : ℤ) * (2 : ℚ) ^ ((ea : ℤ) - 127) * (2 : ℚ) ^ ((eb : ℤ) - 127) * 2 ^ 256

/-- Roots, minimum and maximum, and the special cases of the special functions (R119, R186, R207). The square root and its reciprocal are exact when they are rational, and otherwise a value strictly inside the same cell of a lattice 2^128 times finer than the operand's fraction; outside their domain they give NaN with NV for an IEEE operand and are undefined otherwise; zero and the infinities have the cases of the table. VMIN and VMAX choose an operand by value, -0 below +0, the other one of an IEEE NaN, and NaR for a tapered one. VEXP2 is exact on the integers and VLOG2 on the powers of two; they, VTANH and VSIGM have the cases of the table. The value inside the cell and the values far outside every format's range are the model's way to the exact rounding (log 8, DEDUCED). -/
def Obligations.FunctionValues : Prop :=
  let rat := fun (v : Val) => (v.num : ℚ) / v.den
  let root := fun (r : OpRes) (x : ℝ) (n : Nat) => ∃ m e : Nat, 0 < e ∧ r = .ofVal (.fin false m e) ∧
    ((∀ a b : Nat, 0 < b → x = (a : ℝ) / b → (m : ℝ) / e = x) ∧
      ((¬ ∃ a b : Nat, 0 < b ∧ x = (a : ℝ) / b) → ∃ k : Nat,
        (k : ℝ) / (n * 2 ^ 128) < x ∧ x < (k + 1 : ℝ) / (n * 2 ^ 128) ∧
        (k : ℝ) / (n * 2 ^ 128) < (m : ℝ) / e ∧ (m : ℝ) / e < (k + 1 : ℝ) / (n * 2 ^ 128)))
  let outside := fun (ieee : Bool) => if ieee then (⟨.nan, Flag.NV, false⟩ : OpRes) else ⟨.nan, 0, true⟩
  let pole := fun (ieee s : Bool) => if ieee then (⟨.inf s, Flag.DZ, false⟩ : OpRes) else ⟨.nan, 0, true⟩
  let val := OpRes.ofVal
  (∀ (ieee s : Bool) (n d : Nat), 0 < d →
    (0 < n → root (vsqrt ieee (.fin false n d)) (Real.sqrt ((n : ℝ) / d)) d ∧ root (vrsqrt ieee (.fin false n d)) (1 / Real.sqrt ((n : ℝ) / d)) n ∧
      vsqrt ieee (.fin true n d) = outside ieee ∧ vrsqrt ieee (.fin true n d) = outside ieee ∧ vlog2 ieee (.fin true n d) = outside ieee) ∧
    vsqrt ieee (.fin s 0 d) = val (.fin s 0 1) ∧ vrsqrt ieee (.fin s 0 d) = pole ieee s ∧ vlog2 ieee (.fin s 0 d) = pole ieee true ∧
    vrecip ieee (.fin s 0 d) = pole ieee s ∧ vtanh (.fin s 0 d) = val (.fin s 0 1) ∧ vsigm (.fin s 0 d) = val (.fin false 1 2)) ∧
  (∀ ieee s : Bool,
    vsqrt ieee (.inf true) = outside ieee ∧ vrsqrt ieee (.inf true) = outside ieee ∧ vlog2 ieee (.inf true) = outside ieee ∧
    vsqrt ieee (.inf false) = val (.inf false) ∧ vrsqrt ieee (.inf false) = val (.fin false 0 1) ∧ vlog2 ieee (.inf false) = val (.inf false) ∧
    vrecip ieee (.inf s) = val (.fin s 0 1) ∧ vexp2 (.inf true) = val (.fin false 0 1) ∧ vexp2 (.inf false) = val (.inf false) ∧
    vtanh (.inf s) = val (.fin s 1 1) ∧ vsigm (.inf true) = val (.fin false 0 1) ∧ vsigm (.inf false) = val (.fin false 1 1) ∧
    (∀ op ∈ [vsqrt ieee, vrsqrt ieee, vrecip ieee, vexp2, vlog2 ieee, vtanh, vsigm], op .nan = val .nan)) ∧
  (∀ (g ta tb s t : Bool) (n d m e : Nat) (a b : Val),
    (0 < d → 0 < e →
      let x := Val.fin s n d
      let y := Val.fin t m e
      let below := rat x < rat y ∨ (n = 0 ∧ m = 0 ∧ s = true ∧ t = false)
      let above := rat y < rat x ∨ (n = 0 ∧ m = 0 ∧ t = true ∧ s = false)
      (below → vminmax true ta tb x y = y ∧ vminmax false ta tb x y = x) ∧ (above → vminmax true ta tb x y = x ∧ vminmax false ta tb x y = y) ∧
      (¬ below → ¬ above → vminmax g ta tb x y = x)) ∧
    (b.isNan = false → (b = .inf (!s) ∨ b.isInf = false) →
      vminmax g ta tb (.inf s) b = (if s = g then b else .inf s) ∧ vminmax g ta tb b (.inf s) = (if s = g then b else .inf s)) ∧
    vminmax g true tb .nan b = .nan ∧ vminmax g ta true a .nan = .nan ∧
    (b.isNan = false → vminmax g false tb .nan b = b ∧ vminmax g tb false b .nan = b) ∧ vminmax g ta tb .nan .nan = .nan) ∧
  (∀ (s : Bool) (n d : Nat), 0 < d →
    let x := rat (.fin s n d)
    (∀ i : ℤ, |i| ≤ 8192 → x = i → ∃ m e : Nat, 0 < e ∧ vexp2 (.fin s n d) = val (.fin false m e) ∧ (m : ℚ) / e = (2 : ℚ) ^ i) ∧
    (8193 ≤ x → vexp2 (.fin s n d) = val (.fin false (2 ^ 8192) 1)) ∧ (x < -8192 → vexp2 (.fin s n d) = val (.fin false 1 (2 ^ 8192))) ∧
    (∀ (ieee : Bool) (l : ℤ), x = (2 : ℚ) ^ l → vlog2 ieee (.fin s n d) = val (.ofInt l)))

/-- VEXP2, VLOG2, VTANH and VSIGM are close to the real functions (R207). The value that VEXP2 rounds lies within 2^-1190 of 2^x in relation to it, for every x between -8192 and 8192; those that VLOG2, VTANH and VSIGM round lie within 2^-1190, 2^-1150 and 2^-1150 of log2 x, tanh x and 1/(1 + e^-x). That the rounding of such a value is that of the exact one is the model's reading of what correct rounding needs (log 8, DEDUCED). -/
def Obligations.TranscendentalValues : Prop :=
  ∀ (ieee s : Bool) (n d : Nat), 0 < d →
    let x : ℝ := (if s then -1 else 1) * ((n : ℝ) / d)
    let near := fun (r : OpRes) (y bound : ℝ) => ∃ (t : Bool) (m e : Nat), 0 < e ∧ r = .ofVal (.fin t m e) ∧
      |(if t then -1 else 1) * ((m : ℝ) / e) - y| ≤ bound
    (|x| ≤ 8192 → near (vexp2 (.fin s n d)) ((2 : ℝ) ^ x) ((2 : ℝ) ^ x / 2 ^ 1190)) ∧
    (0 < x → near (vlog2 ieee (.fin s n d)) (Real.logb 2 x) (1 / 2 ^ 1190)) ∧
    near (vtanh (.fin s n d)) (Real.tanh x) (1 / 2 ^ 1150) ∧ near (vsigm (.fin s n d)) (1 / (1 + Real.exp (-x))) (1 / 2 ^ 1150)

/-- Random words, the order of VTOPK and the SHA-256 compression (R75, R204, R205, R206). vrand is the mixing of R75 on 32-bit words and gives the word of the worked example. Candidates are ordered by value from greatest to least, NaR and NaN last, equals by index (-0 and +0 are equal), and what VTOPK takes its entries from is the list of its candidates in that order. A block is compressed by the message schedule and the 64 rounds of SHA-256 with its constants, blocks one after another, from the words of their bytes, the most significant first. That candidates of equal value and index stay in the order in which they came is the model's reading (log 103, DEDUCED). -/
def Obligations.SelectionAndDigests : Prop :=
  (∀ (S c : BitVec 64) (T : BitVec 32),
    let lo := fun (x : BitVec 64) => x.setWidth 32
    let hi := fun (x : BitVec 64) => (x >>> 32).setWidth 32
    let mix := fun (x : BitVec 32) =>
      let y := (x ^^^ (x >>> 15)) * 0x297A2D39
      y ^^^ (y >>> 12)
    vrand S.toNat T.toNat c.toNat = (mix (mix (((lo c ^^^ (hi c).rotateLeft 16) + T * 0x2C1B3C6D) ^^^ lo S)) + hi S).toNat) ∧
  vrand 0 0 1 = 0x3949F53C ∧
  (let ext := fun (v : Val) => (match v with
      | .inf true => ⊥
      | .inf false => ⊤
      | v => (((v.num : ℚ) / v.den : ℚ) : ℝ) : EReal)
   (∀ a b : Val, 0 < a.den → 0 < b.den → a.isNan = false → b.isNan = false →
    (a.lt b = true ↔ ext a < ext b) ∧ (a.eqv b = true ↔ ext a = ext b)) ∧
   (∀ x y : Candidate, 0 < x.val.den → 0 < y.val.den →
    (x.before y = true ↔ (x.val.isNan = false ∧ y.val.isNan = true) ∨ (x.val.isNan = true ∧ y.val.isNan = true ∧ x.index < y.index) ∨
      (x.val.isNan = false ∧ y.val.isNan = false ∧ (ext y.val < ext x.val ∨ (ext x.val = ext y.val ∧ x.index < y.index))))) ∧
   ∀ cs : List Candidate, (∀ c ∈ cs, 0 < c.val.den) →
    let l := cs.foldl (fun l c => insertCandidate c l) []
    l.Perm cs ∧ l.Pairwise (fun x y => y.before x = false)) ∧
  Sha.h0 = [0x6A09E667, 0xBB67AE85, 0x3C6EF372, 0xA54FF53A, 0x510E527F, 0x9B05688C, 0x1F83D9AB, 0x5BE0CD19] ∧
  Sha.kTable = [0x428A2F98, 0x71374491, 0xB5C0FBCF, 0xE9B5DBA5, 0x3956C25B, 0x59F111F1, 0x923F82A4, 0xAB1C5ED5,
    0xD807AA98, 0x12835B01, 0x243185BE, 0x550C7DC3, 0x72BE5D74, 0x80DEB1FE, 0x9BDC06A7, 0xC19BF174,
    0xE49B69C1, 0xEFBE4786, 0x0FC19DC6, 0x240CA1CC, 0x2DE92C6F, 0x4A7484AA, 0x5CB0A9DC, 0x76F988DA,
    0x983E5152, 0xA831C66D, 0xB00327C8, 0xBF597FC7, 0xC6E00BF3, 0xD5A79147, 0x06CA6351, 0x14292967] ++
    [0x27B70A85, 0x2E1B2138, 0x4D2C6DFC, 0x53380D13, 0x650A7354, 0x766A0ABB, 0x81C2C92E, 0x92722C85,
    0xA2BFE8A1, 0xA81A664B, 0xC24B8B70, 0xC76C51A3, 0xD192E819, 0xD6990624, 0xF40E3585, 0x106AA070,
    0x19A4C116, 0x1E376C08, 0x2748774C, 0x34B0BCB5, 0x391C0CB3, 0x4ED8AA4A, 0x5B9CCA4F, 0x682E6FF3,
    0x748F82EE, 0x78A5636F, 0x84C87814, 0x8CC70208, 0x90BEFFFA, 0xA4506CEB, 0xBEF9A3F7, 0xC67178F2] ∧
  (∀ (h b : List (BitVec 32)) (w : Nat → BitVec 32) (v : Nat → Nat → BitVec 32), h.length = 8 → b.length = 16 →
    let rot := fun (x : BitVec 32) (i j k : Nat) => x.rotateRight i ^^^ x.rotateRight j ^^^ x.rotateRight k
    let shr := fun (x : BitVec 32) (i j k : Nat) => x.rotateRight i ^^^ x.rotateRight j ^^^ x >>> k
    (∀ t < 16, w t = b.getD t 0) → (∀ t, w (t + 16) = shr (w (t + 14)) 17 19 10 + w (t + 9) + shr (w (t + 1)) 7 18 3 + w t) →
    (∀ k < 8, v 0 k = h.getD k 0) →
    (∀ t,
      let t1 := v t 7 + rot (v t 4) 6 11 25 + ((v t 4 &&& v t 5) ^^^ (~~~(v t 4) &&& v t 6)) + .ofNat 32 (Sha.kTable.getD t 0) + w t
      let t2 := rot (v t 0) 2 13 22 + ((v t 0 &&& v t 1) ^^^ (v t 0 &&& v t 2) ^^^ (v t 1 &&& v t 2))
      v (t + 1) 0 = t1 + t2 ∧ v (t + 1) 4 = v t 3 + t1 ∧ ∀ k ∈ ([0, 1, 2, 4, 5, 6] : List Nat), v (t + 1) (k + 1) = v t k) →
    Sha.compress (h.map (·.toNat)) (b.map (·.toNat)) = (List.range 8).map fun k => (h.getD k 0 + v 64 k).toNat) ∧
  ∀ (n : Nat) (h bs : List Nat),
    Sha.blocks 0 h bs = h ∧ Sha.blocks (n + 1) h bs = Sha.blocks n (Sha.compress h (Sha.words 16 (bs.take 64))) (bs.drop 64) ∧
    (4 * n ≤ bs.length → Sha.words n bs =
      (List.range n).map fun i => bs.getD (4 * i) 0 * 2 ^ 24 + bs.getD (4 * i + 1) 0 * 2 ^ 16 + bs.getD (4 * i + 2) 0 * 2 ^ 8 + bs.getD (4 * i + 3) 0) ∧
    Sha.toBe n = [n / 2 ^ 24 % 256, n / 2 ^ 16 % 256, n / 2 ^ 8 % 256, n % 256]

/-- When a wait is satisfied (R53, R135, R171, R172, R173, R179, R230). SWAIT is satisfied when the count has reached its value and subtracts it, SWAITE when the count has reached the expect, which it subtracts and clears; BARWAIT when no phase is pending or the release wave of the pending one has reached the tile, which clears it; GWAIT when the sequence value has reached its target, and it is denied without a shadow, without the WAIT right or at a REVOKED gate; CWAIT when its id lies below DONESH; WAITC when the next bundle may issue at its cycle. A wait instruction tests in its issue cycle and otherwise leaves the tile waiting. That CWAIT goes on waiting while its binding is gone is the model's reading (log 123, DEDUCED). -/
def Obligations.WaitTests : Prop :=
  ∀ (s : State),
    let t := s.tile
    (∀ w : Wait, (∀ u, s.testWait w = .satisfied u → s.startWait w = u) ∧ (s.testWait w = .waiting → s.startWait w = s.withWait w) ∧
      (s.testWait w = .denied → s.startWait w = s.withWait w)) ∧
    (∀ n value : Nat, n < 256 →
      let x := rd t.sems n
      (x.count.toNat < value → s.testWait (.sem n value) = .waiting) ∧
      (value ≤ x.count.toNat → ∃ sems, s.testWait (.sem n value) = .satisfied { s with tile := { t with sems := sems } } ∧
        (rd sems n).count.toNat = x.count.toNat - value ∧ (rd sems n).expect = x.expect ∧ ∀ m, m ≠ n → rd sems m = rd t.sems m) ∧
      (x.count.toNat < x.expect.toNat → s.testWait (.semExpect n) = .waiting) ∧
      (x.expect.toNat ≤ x.count.toNat → ∃ sems, s.testWait (.semExpect n) = .satisfied { s with tile := { t with sems := sems } } ∧
        (rd sems n).count.toNat = x.count.toNat - x.expect.toNat ∧ (rd sems n).expect = 0 ∧ ∀ m, m ≠ n → rd sems m = rd t.sems m)) ∧
    (∀ n : Nat, n < 32 →
      (rd t.io.pending n = none → s.testWait (.barrier n) = .satisfied s) ∧
      (∀ p, rd t.io.pending n = some p →
        (rd t.io.lphase n = p → s.testWait (.barrier n) = .waiting) ∧
        (rd t.io.lphase n ≠ p → ∃ pending, s.testWait (.barrier n) = .satisfied { s with tile := { t with io := { t.io with pending := pending } } } ∧
          rd pending n = none ∧ ∀ m, m ≠ n → rd pending m = rd t.io.pending m))) ∧
    (∀ x : W64,
      let gate := x.toNat % 2 ^ 21
      let target : Nat := x.toNat / 2 ^ 32
      (s.shadow gate (massifOf s.cur) = none → s.testWait (.gate x) = .denied) ∧
      ∀ h, s.shadow gate (massifOf s.cur) = some h →
        (h.state = .revoked ∨ (h.rightsOf t.place.ctx).2 = false → s.testWait (.gate x) = .denied) ∧
        (h.state ≠ .revoked → (h.rightsOf t.place.ctx).2 = true →
          (((h.seq.toNat : ℤ) - target) % 2 ^ 32 < 2 ^ 31 → s.testWait (.gate x) = .satisfied s) ∧
          (2 ^ 31 ≤ ((h.seq.toNat : ℤ) - target) % 2 ^ 32 → s.testWait (.gate x) = .waiting))) ∧
    (∀ (b : Nat) (id : W64),
      (s.binding t b = none → s.testWait (.copy b id) = .waiting) ∧
      ∀ x, s.binding t b = some x →
        (((x.donesh.toNat : ℤ) - id.toNat) % 2 ^ 64 < 2 ^ 63 → s.testWait (.copy b id) = .satisfied s) ∧
        (2 ^ 63 ≤ ((x.donesh.toNat : ℤ) - id.toNat) % 2 ^ 64 → s.testWait (.copy b id) = .waiting)) ∧
    ∀ c : Nat, (c ≤ s.cycle + s.unit → s.testWait (.cycle c) = .satisfied s) ∧ (s.cycle + s.unit < c → s.testWait (.cycle c) = .waiting)

/-- The checks of a launch in their order, and the choice and placement of a candidate (R291, R292, R293, R294, R295, R298, R300, R306, R307, R308, R309). An image is read at a 64-byte aligned address, first its header, then the rest, then its arguments; a read that faults parks the packet. The header fails at the first of its fields, by rule and then as the table lists them, that is not legal, the image at its relocations and tasks, then at its binding entries, then at a sequence number that is taken, then at the packet's own fields; then come LOAD_PRIV, LOAD_ITERMAX and LOAD_RELOC_RANGE for the first relocation out of range, and nothing is placed before every check has passed. A round of a placement decision gives credit to every context with an eligible candidate at the level, and tries the oldest eligible candidate of the context with the most credit, the lowest number first among equals; a candidate that cannot be placed is passed over, one that is placed ends the decision and its context pays its tiles. A group takes the first place that fits: extents, then rows, then columns in rising order. The order of fields within a rule is the model's reading (log 46, DEDUCED); the tiles counted as free are those of a group that leaves (log 49, DEDUCED). -/
def Obligations.LaunchChecks : Prop :=
  (∀ (l : List (Bool × Nat)), (firstBad l = none ↔ ∀ x ∈ l, x.1 = true) ∧
    ∀ o, firstBad l = some o ↔ ∃ a b, l = a ++ (false, o) :: b ∧ ∀ x ∈ a, x.1 = true) ∧
  (∀ h : List Byte,
    let f := fun (o n : Nat) => fieldOf h o n
    let inside := fun (o n : Nat) => o + n ≤ f 0x68 4
    let res0 := fun (a b : Nat) => zeroIn h a b = true
    firstBad (headerChecks h) = none ↔
      (h.take 8 = [0x42, 0x49, 0x4C, 0x42, 0x4F, 0x52, 0x4B, 0x31] ∧ (f 8 2 = 1 ∨ f 8 2 = 2) ∧ f 0x0A 2 < 4 ∧ res0 0x13 0x14 ∧ res0 0x1F 0x20 ∧
        res0 0x2C 0x30 ∧ res0 0x3C 0x40 ∧ res0 0x4C 0x50 ∧ res0 0x5C 0x60 ∧ res0 0x74 0x80) ∧
      ((f 0x10 1 = 0 ∧ f 0x11 1 = 0 ∧ f 0x12 1 = 0) ∨
        (1 ≤ f 0x10 1 ∧ f 0x10 1 ≤ 32 ∧ 1 ≤ f 0x11 1 ∧ f 0x11 1 ≤ 32 ∧ 1 ≤ f 0x12 1 ∧ f 0x12 1 ≤ 8)) ∧
      (1 ≤ f 0x18 2 ∧ f 0x18 2 ≤ 1024 ∧ f 0x1A 2 ≤ 256 ∧ f 0x1C 2 ≤ 4096 ∧ (f 8 2 = 1 → f 0x1A 2 = 0 ∧ f 0x1C 2 = 0 ∧ f 0x1E 1 = 0) ∧
        128 ≤ f 0x68 4 ∧ f 0x68 4 ≤ 2 ^ 24) ∧
      (inside (f 0x20 4) (f 0x24 4) ∧ f 0x24 4 % 32 = 0 ∧ 32 ≤ f 0x24 4 ∧ f 0x24 4 ≤ 65536 ∧ f 0x28 4 = 0) ∧
      (inside (f 0x30 4) (f 0x34 4) ∧ f 0x34 4 % 16 = 0 ∧ f 0x34 4 ≤ 393216 ∧ f 0x38 4 % 16 = 0 ∧ f 0x38 4 + f 0x34 4 ≤ 0x60000) ∧
      (inside (f 0x40 4) (f 0x44 4) ∧ f 0x44 4 % 128 = 0 ∧ f 0x44 4 ≤ 393216 ∧ f 0x48 4 % 16 = 0 ∧ f 0x48 4 + f 0x44 4 ≤ 0x60000 ∧
        (f 0x44 4 = 0 ∨ f 0x34 4 = 0 ∨ f 0x48 4 + f 0x44 4 ≤ f 0x38 4 ∨ f 0x38 4 + f 0x34 4 ≤ f 0x48 4)) ∧
      (inside (f 0x50 4) (f 0x54 4) ∧ f 0x54 4 = 80 * f 0x18 2 ∧ f 0x58 4 = 0) ∧
      inside (f 0x60 4) (16 * f 0x1C 2) ∧ inside (f 0x64 4) (32 * f 0x1A 2) ∧ inside (f 0x70 4) 128 ∧
      (f 0x14 4 = 0xFFFFFFFF ∨ (f 0x14 4 % 32 = 0 ∧ f 0x14 4 < f 0x24 4))) ∧
  (∀ (s : State) (n : Nat) (l : Launch) (bs : List Byte),
    let m := l.queue / 1024
    (l.image % 64 ≠ 0 → s.checkLaunch n l bs = .fail s 0x50 (8 + 2 * 2 ^ 32)) ∧
    (l.image % 64 = 0 →
      (∀ t, s.readGva l.ctx m (l.image % 2 ^ 57) 4 128 [] = .hold t → s.checkLaunch n l bs = .hold t) ∧
      (∀ t g, s.readGva l.ctx m (l.image % 2 ^ 57) 4 128 [] = .fault t g → s.checkLaunch n l bs = .park t g) ∧
      ∀ t h, s.readGva l.ctx m (l.image % 2 ^ 57) 4 128 [] = .ok t h →
        (∀ o, firstBad (headerChecks h) = some o → s.checkLaunch n l bs = .fail t 0x50 o) ∧
        (firstBad (headerChecks h) = none →
          let rest := t.readGva l.ctx m (l.image % 2 ^ 57 + 128) (fieldOf h 0x68 4 / 64 + 2) (fieldOf h 0x68 4 - 128) h
          (∀ u, rest = .hold u → s.checkLaunch n l bs = .hold u) ∧ (∀ u g, rest = .fault u g → s.checkLaunch n l bs = .park u g) ∧
          ∀ u img, rest = .ok u img →
            let len := 8 * (fieldOf h 0x1A 2 + fieldOf h 0x1E 1)
            let args := u.readGva l.ctx m (l.args % 2 ^ 57) (len / 64 + 2) len []
            (∀ v, args = .hold v → s.checkLaunch n l bs = .hold v) ∧ (∀ v g, args = .fault v g → s.checkLaunch n l bs = .park v g) ∧
            ∀ v x, args = .ok v x → s.checkLaunch n l bs = v.checkImage n l bs h img x))) ∧
  (∀ (s : State) (n : Nat) (l : Launch) (bs h img args : List Byte),
    let f := fun (o k : Nat) => fieldOf h o k
    let code := (img.drop (f 0x20 4)).take (f 0x24 4)
    let bound := (List.range (f 0x1E 1)).map fun i => fieldOf args (8 * (f 0x1A 2 + i)) 8 % 256
    let relocs := (List.range (f 0x1C 2)).map fun i => f 0x60 4 + 16 * i
    let first := (relocs.flatMap fun o => relocChecks img code (f 0x34 4) (f 0x1A 2) o) ++
      (List.range (f 0x18 2)).flatMap fun i => taskChecks img (f 0x24 4) bound (f 0x50 4 + 80 * i)
    let second := (List.range (f 0x1E 1)).flatMap fun i => s.bindChecks l.ctx args (f 0x1A 2) (f 0x1E 1) i
    let out := fun (o : Nat) =>
      let r := relocAt img o
      relocValue args r < (relocRange r.kind).1 ∨ (relocRange r.kind).2 < relocValue args r
    (∀ o, firstBad first = some o → s.checkImage n l bs h img args = .fail s 0x50 o) ∧
    (firstBad first = none →
      (∀ o, firstBad second = some o → s.checkImage n l bs h img args = .fail s 0x50 (o + 2 ^ 32)) ∧
      (firstBad second = none →
        (s.launchDup l n = true → s.checkImage n l bs h img args = .fail s 0x50 (32 + 2 * 2 ^ 32)) ∧
        (s.launchDup l n = false →
          (∀ o, firstBad (launchPacketChecks bs) = some o → s.checkImage n l bs h img args = .fail s 0x50 (o + 2 * 2 ^ 32)) ∧
          (firstBad (launchPacketChecks bs) = none →
            ((f 0x0A 2).testBit 0 = true → s.ctxHvpriv l.ctx = false → s.checkImage n l bs h img args = .fail s 0x53 0) ∧
            ((f 0x0A 2).testBit 0 = false ∨ s.ctxHvpriv l.ctx = true →
              ((f 0x0C 4 = 0 ∨ 12000 < f 0x0C 4) → s.effNopre (s.ctxPath l.ctx) = false → s.checkImage n l bs h img args = .fail s 0x52 (f 0x0C 4)) ∧
              ((f 0x0C 4 ≠ 0 ∧ f 0x0C 4 ≤ 12000) ∨ s.effNopre (s.ctxPath l.ctx) = true →
                (∀ a o b, relocs = a ++ o :: b → (∀ p ∈ a, ¬ out p) → out o →
                  ∃ d, s.checkImage n l bs h img args = .fail s 0x51 d ∧
                    d = (relocAt img o).sym + 2 ^ 16 * (relocAt img o).section_ + 2 ^ 20 * ((relocAt img o).site % 2 ^ 19) +
                      2 ^ 40 * relocWidth (relocAt img o).kind) ∧
                ((∀ o ∈ relocs, ¬ out o) → ∃ k, s.checkImage n l bs h img args = .ok s k img)))))))) ∧
  (∀ bs : List Byte,
    let f := fun (o k : Nat) => fieldOf bs o k
    firstBad (launchPacketChecks bs) = none ↔ f 8 8 < 2 ^ 57 ∧ f 16 8 < 2 ^ 57 ∧ f 32 4 ≠ 0 ∧ (f 36 4 % 2 ^ 20 ≠ 0 ∧ f 36 4 / 2 ^ 20 ≠ 0) ∧
      (f 40 4 / 2 ^ 20 = 0 ∧ f 40 4 ≠ 0 ∧ f 40 4 ≤ f 36 4 % 2 ^ 20) ∧ f 60 1 < 16 ∧ zeroIn bs 61 63 = true) ∧
  (∀ (s : State) (extra : List Nat) (fuel level : Nat) (tried : List (Bool × Nat)),
    let all := s.candidates
    let elig := all.filter fun c => c.level == level && !tried.contains (c.isGroup, c.num) && !heldBack all c
    let gains := fun (c : Nat) => ∃ y ∈ elig, y.ctx = c
    let credit := fun (u : State) (c : Nat) => (find u.contexts c).map (·.credit)
    (∀ c, heldBack all c = true ↔ ∃ y ∈ all, 8 ≤ y.passes ∧ ¬ (y.isGroup = c.isGroup ∧ y.num = c.num) ∧ y.part = c.part ∧
      (c.level < y.level ∨ (y.level = c.level ∧ (c.passes < 8 ∨ y.seq < c.seq)))) ∧
    (elig = [] → (level = 0 → s.decision extra (fuel + 1) level tried = (s, none)) ∧
      ∀ k, level = k + 1 → s.decision extra (fuel + 1) level tried = s.decision extra fuel k tried) ∧
    (elig ≠ [] → ∃ u : State,
      (∀ c, credit u c = (credit s c).map fun v => if gains c then max (-2 ^ 47 : ℤ) (min (v + s.effTiles (s.ctxPath c)) (2 ^ 47)) else v) ∧
      u = { s with contexts := u.contexts } ∧
      ∀ x ∈ elig, (∀ y ∈ elig, y ≠ x → y.ctx = x.ctx → x.seq < y.seq) →
        (∀ y ∈ elig, y.ctx ≠ x.ctx →
          let a := (credit u x.ctx).getD 0
          let b := (credit u y.ctx).getD 0
          b < a ∨ (a = b ∧ x.ctx < y.ctx)) →
        (∀ size gw ts, u.placeCand x extra = some (size, gw, ts) →
          s.decision extra (fuel + 1) level tried = ((u.takeTiles x size gw ts).addCredit x.ctx (-(size : ℤ)), some ts)) ∧
        (u.placeCand x extra = none →
          s.decision extra (fuel + 1) level tried = (u.addPass x).decision extra fuel level (tried ++ [(x.isGroup, x.num)])))) ∧
  (∀ (s : State) (extra : List Nat),
    s.runDecision extra = s.decision extra (s.candidates.length + 9) 7 [] ∧ (s.candidates = [] → s.runDecision extra = (s, none)) ∧
    ∀ c, s.candidates = [c] → c.level ≤ 7 →
      let u := s.addCredit c.ctx (s.effTiles (s.ctxPath c.ctx))
      (∀ size gw ts, u.placeCand c extra = some (size, gw, ts) →
        s.runDecision extra = ((u.takeTiles c size gw ts).addCredit c.ctx (-(size : ℤ)), some ts)) ∧
      (u.placeCand c extra = none → s.runDecision extra = (u.addPass c, none))) ∧
  ∀ (s : State) (part : Nat) (extra : List Nat) (k : Kernel) (size gw : Nat) (p : Partition), find s.partitions part = some p →
    let fits := fun (i oy ox : Nat) (ts : List Nat) => ∃ e, p.extents[i]? = some e ∧ e.valid = true ∧ e.mod = s.globals.modIdx ∧
      oy + gridRows size gw ≤ e.h ∧ ox + min size gw ≤ e.w ∧
      ts = ((List.range size).map fun r => (e.ty + oy + r / gw) * 384 + e.tx + ox + r % gw) ∧ (∀ t ∈ ts, s.tileFree part extra t = true) ∧
      ∀ r < size, massifOf (ts.getD r 0) = massifOf (ts.getD ((gangRanks k size gw r).headD r) 0)
    (s.findPlace part extra k size gw = none ↔ ∀ i oy ox ts, ¬ fits i oy ox ts) ∧
    (∀ ts, s.findPlace part extra k size gw = some ts → ∃ i oy ox, fits i oy ox ts ∧
      ∀ j qy qx us, fits j qy qx us → i < j ∨ (i = j ∧ (oy < qy ∨ (oy = qy ∧ ox ≤ qx)))) ∧
    ∀ t, s.tileFree part extra t = true ↔ s.tileExists t = true ∧ ((s.getTile t).place.group = none ∨ t ∈ extra) ∧ s.reservedFor t = none ∧
      massifOf t ∈ p.massifs ∧ ((s.powerOf (massifOf t)).state = .full ∨ (s.powerOf (massifOf t)).state = .reduced) ∧
      (s.powerOf (massifOf t)).pending = none
end

