-- ==== Sys2Proof/Laws/Access.lean ====
section
/-! SUPPORT. What an access and the accesses of a command can answer. -/

namespace Sys2Proof.Machine

/-- An access that completes has completed both its parts. -/
theorem Acc.bind_ok {α β : Type} {x : Acc α} {f : State → α → Acc β} {u : State} {b : β} (h : x.bind f = .ok u b) :
    ∃ s a, x = .ok s a ∧ f s a = .ok u b := by
  cases x with
  | ok s a => exact ⟨s, a, rfl, h⟩
  | fault s r => exact absurd h (by simp [Acc.bind])
  | hold s => exact absurd h (by simp [Acc.bind])

/-- A port is open, shut, or still to open; the state is as it was. -/
theorem State.through_cases (s : State) (gva : Nat) (port : Option Nat) :
    (s.through gva port = .ok s () ∧ ∀ l, port = some l → (s.link_ l).shut = false ∧ (s.link_ l).waits = false) ∨
    (∃ l, port = some l ∧ (s.link_ l).shut = true ∧ s.through gva port = .fault s (.plain 0x0A gva 0 l)) ∨
    (∃ l, port = some l ∧ (s.link_ l).waits = true ∧ s.through gva port = .hold s) := by
  cases port with
  | none => exact .inl ⟨rfl, by simp⟩
  | some l =>
    by_cases h : (s.link_ l).shut = true
    · exact .inr (.inl ⟨l, rfl, h, by simp [State.through, h]⟩)
    · by_cases g : (s.link_ l).waits = true
      · exact .inr (.inr ⟨l, rfl, g, by simp [State.through, h, g]⟩)
      · exact .inl ⟨by simp [State.through, h, g], fun k e => by cases e; exact ⟨by simpa using h, by simpa using g⟩⟩

/-- A range that is reached leaves the state as it was. -/
theorem State.reach_ok {s u : State} {gva a : Nat} (h : s.reach gva a = .ok u ()) : u = s := by
  obtain ⟨e, -⟩ | ⟨l, -, -, e⟩ | ⟨l, -, -, e⟩ := s.through_cases gva (s.portOfDpa a) <;> simp only [State.reach, e] at h <;> cases h
  rfl
theorem State.reachAll_ok {s u : State} {gva a n : Nat} (h : s.reachAll gva a n = .ok u ()) : u = s ∧ s.reach gva a = .ok s () := by
  unfold State.reachAll at h
  split at h
  · cases h
  · cases h
  · obtain rfl := State.reach_ok h; exact ⟨rfl, h⟩

/-- A command whose data are read has reached each range and met no lost granule. -/
theorem State.commandReads_cons {s u : State} {a n : Nat} {r : List (Nat × Nat)} (h : s.commandReads ((a, n) :: r) = .ok u ()) :
    s.reachAll 0 a n = .ok s () ∧ ∃ t, s.readErrors a n = (t, none) ∧ t.commandReads r = .ok u () := by
  rw [State.commandReads] at h
  obtain ⟨v, w, hv, hr⟩ := Acc.bind_ok h
  obtain ⟨rfl, -⟩ := State.reachAll_ok hv
  refine ⟨hv, ?_⟩
  cases e : v.readErrors a n with
  | mk t g =>
    simp only [e] at hr
    cases g with
    | none => exact ⟨t, rfl, hr⟩
    | some g => cases hr

end Sys2Proof.Machine
end

