-- ==== Sys2Proof/Laws/Cairn.lean ====
section
/-! SUPPORT. Lengths of enciphered text, and what the body of an image reads as: its chunks, their tags and its signature
(spec/10_context.md R272). -/

namespace Sys2Proof.Aes

theorem addBytes_length {n : Nat} {a b : List Nat} (ha : a.length = n) (hb : b.length = n) : (addBytes a b).length = n := by
  simp [addBytes, ha, hb]

theorem rounds_length : ∀ (ks : List (List Nat)) (st : List Nat), (∀ k ∈ ks, k.length = 16) → st.length = 16 → (rounds ks st).length = 16
  | [], _, _, h => h
  | [k], st, hk, _ => addBytes_length (by simp [shiftRows]) (hk k (by simp))
  | k :: l :: ks, st, hk, _ =>
    rounds_length (l :: ks) _ (fun x h => hk x (List.mem_cons_of_mem _ h)) (addBytes_length (by simp [mixColumns]) (hk k (by simp)))

theorem cipher_length {ks : List (List Nat)} {block : List Nat} (hk : ∀ k ∈ ks, k.length = 16) (hn : ks ≠ []) (hb : block.length = 16) :
    (cipher ks block).length = 16 := by
  obtain ⟨k, r, rfl⟩ := List.exists_cons_of_ne_nil hn
  exact rounds_length _ _ (fun x h => hk x (List.mem_of_mem_drop h)) (addBytes_length hb (hk k (by simp)))

theorem ofNum_length : ∀ n v : Nat, (ofNum n v).length = n
  | 0, _ => rfl
  | n + 1, v => by simp [ofNum, ofNum_length n]

theorem stream_length {ks : List (List Nat)} {nonce : List Nat} (hk : ∀ k ∈ ks, k.length = 16) (hn : ks ≠ []) (h : nonce.length = 12) :
    ∀ (n c : Nat) (bs : List Nat), bs.length ≤ 16 * n → (stream ks nonce n c bs).length = bs.length
  | 0, _, bs, hb => by simp [stream]; omega
  | n + 1, c, bs, hb => by
    have e : (cipher ks (counterBlock nonce c)).length = 16 := cipher_length hk hn (by simp [counterBlock, ofNum_length, h])
    have i := stream_length hk hn h n (c + 1) (bs.drop 16) (by simp; omega)
    simp [stream, addBytes, e, i]; omega

/-- A ciphertext is as long as its text, and a tag has 16 bytes. -/
theorem gcm_length {key nonce : List Nat} (hk : ∀ k ∈ roundKeys key, k.length = 16) (h : nonce.length = 12) (ad text : List Nat) :
    (gcm key nonce ad text).1.length = text.length ∧ (gcm key nonce ad text).2.length = 16 := by
  have hn : roundKeys key ≠ [] := by simp [roundKeys]
  refine ⟨stream_length hk hn h _ _ _ (by omega), addBytes_length (ofNum_length _ _) (cipher_length hk hn ?_)⟩
  simp [counterBlock, ofNum_length, h]

end Sys2Proof.Aes

namespace Sys2Proof.Machine

/-- The lengths of a chunk and its tag. -/
theorem sealChunk_length {key payload : List Byte} (hk : ∀ k ∈ Aes.roundKeys (toNats key), k.length = 16) (hp : payload.length ≤ 2 ^ 20) :
    (sealChunk key payload 0).1.length = payload.length ∧ (sealChunk key payload 0).2.length = 16 := by
  have g := Aes.gcm_length hk (show (toNats (natBytes 0 8) ++ [0, 0, 0, 0]).length = 12 by decide) (toNats (natBytes 0 8))
    (toNats ((payload.drop (0 * 2 ^ 20)).take (2 ^ 20)))
  refine ⟨?_, by simpa [sealChunk, ofNats] using g.2⟩
  have := g.1
  simp only [sealChunk, ofNats, List.length_map] at this ⊢
  rw [this]; simp [toNats]; omega

/-- The body of an image of one chunk: its chunk with its tag, and behind them the signature over the header and the tag. -/
theorem body_one {k : Cairn} {header : List Byte} (hk : ∀ r ∈ Aes.roundKeys (toNats k.key), r.length = 16) (h0 : 0 < k.payload.length)
    (h1 : k.payload.length ≤ 2 ^ 20) :
    let c := sealChunk k.key k.payload 0
    k.body header k.payload = c.1 ++ c.2 ++ signature k.source k.salt header [c.2] ∧ sealChunks k.key k.payload = [c] ∧ c.1.length = k.payload.length ∧
      c.2.length = 16 := by
  have e : chunksOf k.payload.length = 1 := by simp only [chunksOf]; omega
  have l := sealChunk_length hk h1
  have s : sealChunks k.key k.payload = [sealChunk k.key k.payload 0] := by simp [sealChunks, e]
  exact ⟨by simp [Cairn.body, s], s, l⟩

/-- What RESTORE reads of such an image: its tag, its chunk, and a trailer that verifies against the certificate of its source. -/
theorem sealed_one {k : Cairn} {i : Sealed} (hk : ∀ r ∈ Aes.roundKeys (toNats k.key), r.length = 16) (h0 : 0 < k.payload.length)
    (h1 : k.payload.length ≤ 2 ^ 20) (hp : i.paylen = k.payload.length) (hb : i.body = k.body i.header k.payload) :
    i.verifies k (certificateOf k.source) = true ∧ i.chunks = ((sealChunks k.key k.payload).map fun x => x.1 ++ x.2).flatten := by
  obtain ⟨b, s, l1, l2⟩ := body_one (header := i.header) hk h0 h1
  have e : chunksOf k.payload.length = 1 := by simp only [chunksOf]; omega
  have t : i.tags = [(sealChunk k.key k.payload 0).2] := by
    simp only [Sealed.tags, hp, e, hb, b, List.range_one, List.map_cons, List.map_nil, Nat.zero_mul, Nat.sub_zero, Nat.zero_add, Nat.min_eq_right h1]
    rw [List.append_assoc, List.drop_left' l1, List.take_left' l2]
  have d : i.body.drop (i.paylen + 16 * chunksOf i.paylen) = signature k.source k.salt i.header i.tags := by
    rw [hp, e, hb, b, t]; exact List.drop_left' (by simp [l1, l2])
  refine ⟨by simp [Sealed.verifies, d], ?_⟩
  rw [Sealed.chunks, hp, e, hb, b, s]
  simp only [List.map_cons, List.map_nil, List.flatten_cons, List.flatten_nil, List.append_nil]
  exact List.take_left' (by simp [l1, l2])

end Sys2Proof.Machine
end

