-- ==== Sys2Proof/Laws/State.lean ====
section
/-! SUPPORT. What each update of the state leaves in each field: one lemma per field per update, so that no proof unfolds a record
update. -/

namespace Sys2Proof.Machine

/-! ### The tile in focus -/

@[simp] theorem State.onTile_cur (s : State) (f : Tile → Tile) : (s.onTile f).cur = s.cur := rfl
@[simp] theorem State.onTile_tile (s : State) (f : Tile → Tile) : (s.onTile f).tile = f s.tile := rfl
@[simp] theorem State.onTile_tiles (s : State) (f : Tile → Tile) : (s.onTile f).tiles = s.tiles := rfl
@[simp] theorem State.onTile_cycle (s : State) (f : Tile → Tile) : (s.onTile f).cycle = s.cycle := rfl
@[simp] theorem State.onTile_todo (s : State) (f : Tile → Tile) : (s.onTile f).todo = s.todo := rfl
@[simp] theorem State.onTile_timers (s : State) (f : Tile → Tile) : (s.onTile f).timers = s.timers := rfl
@[simp] theorem State.onTile_script (s : State) (f : Tile → Tile) : (s.onTile f).script = s.script := rfl
@[simp] theorem State.onTile_args (s : State) (f : Tile → Tile) : (s.onTile f).args = s.args := rfl
@[simp] theorem State.onTile_freeCtr (s : State) (f : Tile → Tile) : (s.onTile f).freeCtr = s.freeCtr := rfl
@[simp] theorem State.onTile_lastTrap (s : State) (f : Tile → Tile) : (s.onTile f).lastTrap = s.lastTrap := rfl
@[simp] theorem State.onTile_sent (s : State) (f : Tile → Tile) : (s.onTile f).sent = s.sent := rfl
@[simp] theorem State.onTile_dev (s : State) (f : Tile → Tile) : (s.onTile f).dev = s.dev := rfl
@[simp] theorem State.onTile_devEcc (s : State) (f : Tile → Tile) : (s.onTile f).devEcc = s.devEcc := rfl
@[simp] theorem State.onTile_host (s : State) (f : Tile → Tile) : (s.onTile f).host = s.host := rfl
@[simp] theorem State.onTile_globals (s : State) (f : Tile → Tile) : (s.onTile f).globals = s.globals := rfl
@[simp] theorem State.onTile_contexts (s : State) (f : Tile → Tile) : (s.onTile f).contexts = s.contexts := rfl
@[simp] theorem State.onTile_partitions (s : State) (f : Tile → Tile) : (s.onTile f).partitions = s.partitions := rfl
@[simp] theorem State.onTile_counters (s : State) (f : Tile → Tile) : (s.onTile f).counters = s.counters := rfl
@[simp] theorem State.onTile_released (s : State) (f : Tile → Tile) : (s.onTile f).released = s.released := rfl
@[simp] theorem State.onTile_queues (s : State) (f : Tile → Tile) : (s.onTile f).queues = s.queues := rfl
@[simp] theorem State.onTile_interfaces (s : State) (f : Tile → Tile) : (s.onTile f).interfaces = s.interfaces := rfl
@[simp] theorem State.onTile_launches (s : State) (f : Tile → Tile) : (s.onTile f).launches = s.launches := rfl
@[simp] theorem State.onTile_groups (s : State) (f : Tile → Tile) : (s.onTile f).groups = s.groups := rfl
@[simp] theorem State.onTile_nextNum (s : State) (f : Tile → Tile) : (s.onTile f).nextNum = s.nextNum := rfl
@[simp] theorem State.onTile_gates (s : State) (f : Tile → Tile) : (s.onTile f).gates = s.gates := rfl
@[simp] theorem State.onTile_shadows (s : State) (f : Tile → Tile) : (s.onTile f).shadows = s.shadows := rfl
@[simp] theorem State.onTile_posts (s : State) (f : Tile → Tile) : (s.onTile f).posts = s.posts := rfl
@[simp] theorem State.onTile_links (s : State) (f : Tile → Tile) : (s.onTile f).links = s.links := rfl
@[simp] theorem State.onTile_transit (s : State) (f : Tile → Tile) : (s.onTile f).transit = s.transit := rfl
@[simp] theorem State.onTile_away (s : State) (f : Tile → Tile) : (s.onTile f).away = s.away := rfl
@[simp] theorem State.onTile_power (s : State) (f : Tile → Tile) : (s.onTile f).power = s.power := rfl
@[simp] theorem State.onTile_merr (s : State) (f : Tile → Tile) : (s.onTile f).merr = s.merr := rfl
@[simp] theorem State.onTile_cerr (s : State) (f : Tile → Tile) : (s.onTile f).cerr = s.cerr := rfl
@[simp] theorem State.onTile_access (s : State) (f : Tile → Tile) : (s.onTile f).access = s.access := rfl
@[simp] theorem State.onTile_pulling (s : State) (f : Tile → Tile) : (s.onTile f).pulling = s.pulling := rfl
@[simp] theorem State.onTile_tlb (s : State) (f : Tile → Tile) : (s.onTile f).tlb = s.tlb := rfl
@[simp] theorem State.onTile_msix (s : State) (f : Tile → Tile) : (s.onTile f).msix = s.msix := rfl
@[simp] theorem State.onTile_pba (s : State) (f : Tile → Tile) : (s.onTile f).pba = s.pba := rfl
@[simp] theorem State.onTile_parkedAtEdge (s : State) (f : Tile → Tile) : (s.onTile f).parkedAtEdge = s.parkedAtEdge := rfl
@[simp] theorem State.onTile_cairns (s : State) (f : Tile → Tile) : (s.onTile f).cairns = s.cairns := rfl
@[simp] theorem State.onTile_sealing (s : State) (f : Tile → Tile) : (s.onTile f).sealing = s.sealing := rfl
@[simp] theorem State.onTile_carried (s : State) (f : Tile → Tile) : (s.onTile f).carried = s.carried := rfl

/-- onCtl is an update of the tile in focus. -/
@[simp] theorem State.onCtl_eq (s : State) (f : Control → Control) : s.onCtl f = s.onTile (·.onCtl f) := rfl
/-- onMx is an update of the tile in focus. -/
@[simp] theorem State.onMx_eq (s : State) (f : Mx → Mx) : s.onMx f = s.onTile (·.onMx f) := rfl
/-- onIo is an update of the tile in focus. -/
@[simp] theorem State.onIo_eq (s : State) (f : Ports → Ports) : s.onIo f = s.onTile (·.onIo f) := rfl
/-- onPlace is an update of the tile in focus. -/
@[simp] theorem State.onPlace_eq (s : State) (f : Place → Place) : s.onPlace f = s.onTile (·.onPlace f) := rfl

@[simp] theorem Tile.onCtl_regs (t : Tile) (f : Control → Control) : (t.onCtl f).regs = t.regs := rfl
@[simp] theorem Tile.onCtl_lat (t : Tile) (f : Control → Control) : (t.onCtl f).lat = t.lat := rfl
@[simp] theorem Tile.onCtl_csr (t : Tile) (f : Control → Control) : (t.onCtl f).csr = t.csr := rfl
@[simp] theorem Tile.onCtl_ctl (t : Tile) (f : Control → Control) : (t.onCtl f).ctl = f t.ctl := rfl
@[simp] theorem Tile.onCtl_mx (t : Tile) (f : Control → Control) : (t.onCtl f).mx = t.mx := rfl
@[simp] theorem Tile.onCtl_io (t : Tile) (f : Control → Control) : (t.onCtl f).io = t.io := rfl
@[simp] theorem Tile.onCtl_place (t : Tile) (f : Control → Control) : (t.onCtl f).place = t.place := rfl
@[simp] theorem Tile.onCtl_flights (t : Tile) (f : Control → Control) : (t.onCtl f).flights = t.flights := rfl
@[simp] theorem Tile.onCtl_nextId (t : Tile) (f : Control → Control) : (t.onCtl f).nextId = t.nextId := rfl
@[simp] theorem Tile.onCtl_sems (t : Tile) (f : Control → Control) : (t.onCtl f).sems = t.sems := rfl
@[simp] theorem Tile.onCtl_frame (t : Tile) (f : Control → Control) : (t.onCtl f).frame = t.frame := rfl
@[simp] theorem Tile.onCtl_halt (t : Tile) (f : Control → Control) : (t.onCtl f).halt = t.halt := rfl
@[simp] theorem Tile.onCtl_spad (t : Tile) (f : Control → Control) : (t.onCtl f).spad = t.spad := rfl
@[simp] theorem Tile.onCtl_imem (t : Tile) (f : Control → Control) : (t.onCtl f).imem = t.imem := rfl
@[simp] theorem Tile.onCtl_stale (t : Tile) (f : Control → Control) : (t.onCtl f).stale = t.stale := rfl
@[simp] theorem Tile.onCtl_loopBuf (t : Tile) (f : Control → Control) : (t.onCtl f).loopBuf = t.loopBuf := rfl
@[simp] theorem Tile.onCtl_bufFor (t : Tile) (f : Control → Control) : (t.onCtl f).bufFor = t.bufFor := rfl
@[simp] theorem Tile.onCtl_ecc (t : Tile) (f : Control → Control) : (t.onCtl f).ecc = t.ecc := rfl
@[simp] theorem Tile.onCtl_iecc (t : Tile) (f : Control → Control) : (t.onCtl f).iecc = t.iecc := rfl
@[simp] theorem Tile.onCtl_slot (t : Tile) (f : Control → Control) : (t.onCtl f).slot = t.slot := rfl
@[simp] theorem Tile.onCtl_lit (t : Tile) (f : Control → Control) : (t.onCtl f).lit = t.lit := rfl
@[simp] theorem Tile.onCtl_kval (t : Tile) (f : Control → Control) : (t.onCtl f).kval = t.kval := rfl

@[simp] theorem Tile.onRegs_regs (t : Tile) (f : Regs → Regs) : (t.onRegs f).regs = f t.regs := rfl
@[simp] theorem Tile.onRegs_lat (t : Tile) (f : Regs → Regs) : (t.onRegs f).lat = t.lat := rfl
@[simp] theorem Tile.onRegs_csr (t : Tile) (f : Regs → Regs) : (t.onRegs f).csr = t.csr := rfl
@[simp] theorem Tile.onRegs_ctl (t : Tile) (f : Regs → Regs) : (t.onRegs f).ctl = t.ctl := rfl
@[simp] theorem Tile.onRegs_mx (t : Tile) (f : Regs → Regs) : (t.onRegs f).mx = t.mx := rfl
@[simp] theorem Tile.onRegs_io (t : Tile) (f : Regs → Regs) : (t.onRegs f).io = t.io := rfl
@[simp] theorem Tile.onRegs_place (t : Tile) (f : Regs → Regs) : (t.onRegs f).place = t.place := rfl
@[simp] theorem Tile.onRegs_flights (t : Tile) (f : Regs → Regs) : (t.onRegs f).flights = t.flights := rfl
@[simp] theorem Tile.onRegs_nextId (t : Tile) (f : Regs → Regs) : (t.onRegs f).nextId = t.nextId := rfl
@[simp] theorem Tile.onRegs_sems (t : Tile) (f : Regs → Regs) : (t.onRegs f).sems = t.sems := rfl
@[simp] theorem Tile.onRegs_frame (t : Tile) (f : Regs → Regs) : (t.onRegs f).frame = t.frame := rfl
@[simp] theorem Tile.onRegs_halt (t : Tile) (f : Regs → Regs) : (t.onRegs f).halt = t.halt := rfl
@[simp] theorem Tile.onRegs_spad (t : Tile) (f : Regs → Regs) : (t.onRegs f).spad = t.spad := rfl
@[simp] theorem Tile.onRegs_imem (t : Tile) (f : Regs → Regs) : (t.onRegs f).imem = t.imem := rfl
@[simp] theorem Tile.onRegs_stale (t : Tile) (f : Regs → Regs) : (t.onRegs f).stale = t.stale := rfl
@[simp] theorem Tile.onRegs_loopBuf (t : Tile) (f : Regs → Regs) : (t.onRegs f).loopBuf = t.loopBuf := rfl
@[simp] theorem Tile.onRegs_bufFor (t : Tile) (f : Regs → Regs) : (t.onRegs f).bufFor = t.bufFor := rfl
@[simp] theorem Tile.onRegs_ecc (t : Tile) (f : Regs → Regs) : (t.onRegs f).ecc = t.ecc := rfl
@[simp] theorem Tile.onRegs_iecc (t : Tile) (f : Regs → Regs) : (t.onRegs f).iecc = t.iecc := rfl
@[simp] theorem Tile.onRegs_slot (t : Tile) (f : Regs → Regs) : (t.onRegs f).slot = t.slot := rfl
@[simp] theorem Tile.onRegs_lit (t : Tile) (f : Regs → Regs) : (t.onRegs f).lit = t.lit := rfl
@[simp] theorem Tile.onRegs_kval (t : Tile) (f : Regs → Regs) : (t.onRegs f).kval = t.kval := rfl

@[simp] theorem Tile.onMx_regs (t : Tile) (f : Mx → Mx) : (t.onMx f).regs = t.regs := rfl
@[simp] theorem Tile.onMx_lat (t : Tile) (f : Mx → Mx) : (t.onMx f).lat = t.lat := rfl
@[simp] theorem Tile.onMx_csr (t : Tile) (f : Mx → Mx) : (t.onMx f).csr = t.csr := rfl
@[simp] theorem Tile.onMx_ctl (t : Tile) (f : Mx → Mx) : (t.onMx f).ctl = t.ctl := rfl
@[simp] theorem Tile.onMx_mx (t : Tile) (f : Mx → Mx) : (t.onMx f).mx = f t.mx := rfl
@[simp] theorem Tile.onMx_io (t : Tile) (f : Mx → Mx) : (t.onMx f).io = t.io := rfl
@[simp] theorem Tile.onMx_place (t : Tile) (f : Mx → Mx) : (t.onMx f).place = t.place := rfl
@[simp] theorem Tile.onMx_flights (t : Tile) (f : Mx → Mx) : (t.onMx f).flights = t.flights := rfl
@[simp] theorem Tile.onMx_nextId (t : Tile) (f : Mx → Mx) : (t.onMx f).nextId = t.nextId := rfl
@[simp] theorem Tile.onMx_sems (t : Tile) (f : Mx → Mx) : (t.onMx f).sems = t.sems := rfl
@[simp] theorem Tile.onMx_frame (t : Tile) (f : Mx → Mx) : (t.onMx f).frame = t.frame := rfl
@[simp] theorem Tile.onMx_halt (t : Tile) (f : Mx → Mx) : (t.onMx f).halt = t.halt := rfl
@[simp] theorem Tile.onMx_spad (t : Tile) (f : Mx → Mx) : (t.onMx f).spad = t.spad := rfl
@[simp] theorem Tile.onMx_imem (t : Tile) (f : Mx → Mx) : (t.onMx f).imem = t.imem := rfl
@[simp] theorem Tile.onMx_stale (t : Tile) (f : Mx → Mx) : (t.onMx f).stale = t.stale := rfl
@[simp] theorem Tile.onMx_loopBuf (t : Tile) (f : Mx → Mx) : (t.onMx f).loopBuf = t.loopBuf := rfl
@[simp] theorem Tile.onMx_bufFor (t : Tile) (f : Mx → Mx) : (t.onMx f).bufFor = t.bufFor := rfl
@[simp] theorem Tile.onMx_ecc (t : Tile) (f : Mx → Mx) : (t.onMx f).ecc = t.ecc := rfl
@[simp] theorem Tile.onMx_iecc (t : Tile) (f : Mx → Mx) : (t.onMx f).iecc = t.iecc := rfl
@[simp] theorem Tile.onMx_slot (t : Tile) (f : Mx → Mx) : (t.onMx f).slot = t.slot := rfl
@[simp] theorem Tile.onMx_lit (t : Tile) (f : Mx → Mx) : (t.onMx f).lit = t.lit := rfl
@[simp] theorem Tile.onMx_kval (t : Tile) (f : Mx → Mx) : (t.onMx f).kval = t.kval := rfl

@[simp] theorem Tile.onIo_regs (t : Tile) (f : Ports → Ports) : (t.onIo f).regs = t.regs := rfl
@[simp] theorem Tile.onIo_lat (t : Tile) (f : Ports → Ports) : (t.onIo f).lat = t.lat := rfl
@[simp] theorem Tile.onIo_csr (t : Tile) (f : Ports → Ports) : (t.onIo f).csr = t.csr := rfl
@[simp] theorem Tile.onIo_ctl (t : Tile) (f : Ports → Ports) : (t.onIo f).ctl = t.ctl := rfl
@[simp] theorem Tile.onIo_mx (t : Tile) (f : Ports → Ports) : (t.onIo f).mx = t.mx := rfl
@[simp] theorem Tile.onIo_io (t : Tile) (f : Ports → Ports) : (t.onIo f).io = f t.io := rfl
@[simp] theorem Tile.onIo_place (t : Tile) (f : Ports → Ports) : (t.onIo f).place = t.place := rfl
@[simp] theorem Tile.onIo_flights (t : Tile) (f : Ports → Ports) : (t.onIo f).flights = t.flights := rfl
@[simp] theorem Tile.onIo_nextId (t : Tile) (f : Ports → Ports) : (t.onIo f).nextId = t.nextId := rfl
@[simp] theorem Tile.onIo_sems (t : Tile) (f : Ports → Ports) : (t.onIo f).sems = t.sems := rfl
@[simp] theorem Tile.onIo_frame (t : Tile) (f : Ports → Ports) : (t.onIo f).frame = t.frame := rfl
@[simp] theorem Tile.onIo_halt (t : Tile) (f : Ports → Ports) : (t.onIo f).halt = t.halt := rfl
@[simp] theorem Tile.onIo_spad (t : Tile) (f : Ports → Ports) : (t.onIo f).spad = t.spad := rfl
@[simp] theorem Tile.onIo_imem (t : Tile) (f : Ports → Ports) : (t.onIo f).imem = t.imem := rfl
@[simp] theorem Tile.onIo_stale (t : Tile) (f : Ports → Ports) : (t.onIo f).stale = t.stale := rfl
@[simp] theorem Tile.onIo_loopBuf (t : Tile) (f : Ports → Ports) : (t.onIo f).loopBuf = t.loopBuf := rfl
@[simp] theorem Tile.onIo_bufFor (t : Tile) (f : Ports → Ports) : (t.onIo f).bufFor = t.bufFor := rfl
@[simp] theorem Tile.onIo_ecc (t : Tile) (f : Ports → Ports) : (t.onIo f).ecc = t.ecc := rfl
@[simp] theorem Tile.onIo_iecc (t : Tile) (f : Ports → Ports) : (t.onIo f).iecc = t.iecc := rfl
@[simp] theorem Tile.onIo_slot (t : Tile) (f : Ports → Ports) : (t.onIo f).slot = t.slot := rfl
@[simp] theorem Tile.onIo_lit (t : Tile) (f : Ports → Ports) : (t.onIo f).lit = t.lit := rfl
@[simp] theorem Tile.onIo_kval (t : Tile) (f : Ports → Ports) : (t.onIo f).kval = t.kval := rfl

@[simp] theorem Tile.onPlace_regs (t : Tile) (f : Place → Place) : (t.onPlace f).regs = t.regs := rfl
@[simp] theorem Tile.onPlace_lat (t : Tile) (f : Place → Place) : (t.onPlace f).lat = t.lat := rfl
@[simp] theorem Tile.onPlace_csr (t : Tile) (f : Place → Place) : (t.onPlace f).csr = t.csr := rfl
@[simp] theorem Tile.onPlace_ctl (t : Tile) (f : Place → Place) : (t.onPlace f).ctl = t.ctl := rfl
@[simp] theorem Tile.onPlace_mx (t : Tile) (f : Place → Place) : (t.onPlace f).mx = t.mx := rfl
@[simp] theorem Tile.onPlace_io (t : Tile) (f : Place → Place) : (t.onPlace f).io = t.io := rfl
@[simp] theorem Tile.onPlace_place (t : Tile) (f : Place → Place) : (t.onPlace f).place = f t.place := rfl
@[simp] theorem Tile.onPlace_flights (t : Tile) (f : Place → Place) : (t.onPlace f).flights = t.flights := rfl
@[simp] theorem Tile.onPlace_nextId (t : Tile) (f : Place → Place) : (t.onPlace f).nextId = t.nextId := rfl
@[simp] theorem Tile.onPlace_sems (t : Tile) (f : Place → Place) : (t.onPlace f).sems = t.sems := rfl
@[simp] theorem Tile.onPlace_frame (t : Tile) (f : Place → Place) : (t.onPlace f).frame = t.frame := rfl
@[simp] theorem Tile.onPlace_halt (t : Tile) (f : Place → Place) : (t.onPlace f).halt = t.halt := rfl
@[simp] theorem Tile.onPlace_spad (t : Tile) (f : Place → Place) : (t.onPlace f).spad = t.spad := rfl
@[simp] theorem Tile.onPlace_imem (t : Tile) (f : Place → Place) : (t.onPlace f).imem = t.imem := rfl
@[simp] theorem Tile.onPlace_stale (t : Tile) (f : Place → Place) : (t.onPlace f).stale = t.stale := rfl
@[simp] theorem Tile.onPlace_loopBuf (t : Tile) (f : Place → Place) : (t.onPlace f).loopBuf = t.loopBuf := rfl
@[simp] theorem Tile.onPlace_bufFor (t : Tile) (f : Place → Place) : (t.onPlace f).bufFor = t.bufFor := rfl
@[simp] theorem Tile.onPlace_ecc (t : Tile) (f : Place → Place) : (t.onPlace f).ecc = t.ecc := rfl
@[simp] theorem Tile.onPlace_iecc (t : Tile) (f : Place → Place) : (t.onPlace f).iecc = t.iecc := rfl
@[simp] theorem Tile.onPlace_slot (t : Tile) (f : Place → Place) : (t.onPlace f).slot = t.slot := rfl
@[simp] theorem Tile.onPlace_lit (t : Tile) (f : Place → Place) : (t.onPlace f).lit = t.lit := rfl
@[simp] theorem Tile.onPlace_kval (t : Tile) (f : Place → Place) : (t.onPlace f).kval = t.kval := rfl

@[simp] theorem Tile.onCsr_regs (t : Tile) (f : Csrs → Csrs) : (t.onCsr f).regs = t.regs := rfl
@[simp] theorem Tile.onCsr_lat (t : Tile) (f : Csrs → Csrs) : (t.onCsr f).lat = t.lat := rfl
@[simp] theorem Tile.onCsr_csr (t : Tile) (f : Csrs → Csrs) : (t.onCsr f).csr = f t.csr := rfl
@[simp] theorem Tile.onCsr_ctl (t : Tile) (f : Csrs → Csrs) : (t.onCsr f).ctl = t.ctl := rfl
@[simp] theorem Tile.onCsr_mx (t : Tile) (f : Csrs → Csrs) : (t.onCsr f).mx = t.mx := rfl
@[simp] theorem Tile.onCsr_io (t : Tile) (f : Csrs → Csrs) : (t.onCsr f).io = t.io := rfl
@[simp] theorem Tile.onCsr_place (t : Tile) (f : Csrs → Csrs) : (t.onCsr f).place = t.place := rfl
@[simp] theorem Tile.onCsr_flights (t : Tile) (f : Csrs → Csrs) : (t.onCsr f).flights = t.flights := rfl
@[simp] theorem Tile.onCsr_nextId (t : Tile) (f : Csrs → Csrs) : (t.onCsr f).nextId = t.nextId := rfl
@[simp] theorem Tile.onCsr_sems (t : Tile) (f : Csrs → Csrs) : (t.onCsr f).sems = t.sems := rfl
@[simp] theorem Tile.onCsr_frame (t : Tile) (f : Csrs → Csrs) : (t.onCsr f).frame = t.frame := rfl
@[simp] theorem Tile.onCsr_halt (t : Tile) (f : Csrs → Csrs) : (t.onCsr f).halt = t.halt := rfl
@[simp] theorem Tile.onCsr_spad (t : Tile) (f : Csrs → Csrs) : (t.onCsr f).spad = t.spad := rfl
@[simp] theorem Tile.onCsr_imem (t : Tile) (f : Csrs → Csrs) : (t.onCsr f).imem = t.imem := rfl
@[simp] theorem Tile.onCsr_stale (t : Tile) (f : Csrs → Csrs) : (t.onCsr f).stale = t.stale := rfl
@[simp] theorem Tile.onCsr_loopBuf (t : Tile) (f : Csrs → Csrs) : (t.onCsr f).loopBuf = t.loopBuf := rfl
@[simp] theorem Tile.onCsr_bufFor (t : Tile) (f : Csrs → Csrs) : (t.onCsr f).bufFor = t.bufFor := rfl
@[simp] theorem Tile.onCsr_ecc (t : Tile) (f : Csrs → Csrs) : (t.onCsr f).ecc = t.ecc := rfl
@[simp] theorem Tile.onCsr_iecc (t : Tile) (f : Csrs → Csrs) : (t.onCsr f).iecc = t.iecc := rfl
@[simp] theorem Tile.onCsr_slot (t : Tile) (f : Csrs → Csrs) : (t.onCsr f).slot = t.slot := rfl
@[simp] theorem Tile.onCsr_lit (t : Tile) (f : Csrs → Csrs) : (t.onCsr f).lit = t.lit := rfl
@[simp] theorem Tile.onCsr_kval (t : Tile) (f : Csrs → Csrs) : (t.onCsr f).kval = t.kval := rfl

/-! ### Timers -/

@[simp] theorem State.at_cur (s : State) (c : Nat) (i : Instr) (x : Args) : (s.at_ c i x).cur = s.cur := rfl
@[simp] theorem State.at_tile (s : State) (c : Nat) (i : Instr) (x : Args) : (s.at_ c i x).tile = s.tile := rfl
@[simp] theorem State.at_tiles (s : State) (c : Nat) (i : Instr) (x : Args) : (s.at_ c i x).tiles = s.tiles := rfl
@[simp] theorem State.at_cycle (s : State) (c : Nat) (i : Instr) (x : Args) : (s.at_ c i x).cycle = s.cycle := rfl
@[simp] theorem State.at_todo (s : State) (c : Nat) (i : Instr) (x : Args) : (s.at_ c i x).todo = s.todo := rfl
@[simp] theorem State.at_timers (s : State) (c : Nat) (i : Instr) (x : Args) : (s.at_ c i x).timers = s.timers ++ [(c, i, x)] := rfl
@[simp] theorem State.at_script (s : State) (c : Nat) (i : Instr) (x : Args) : (s.at_ c i x).script = s.script := rfl
@[simp] theorem State.at_args (s : State) (c : Nat) (i : Instr) (x : Args) : (s.at_ c i x).args = s.args := rfl
@[simp] theorem State.at_freeCtr (s : State) (c : Nat) (i : Instr) (x : Args) : (s.at_ c i x).freeCtr = s.freeCtr := rfl
@[simp] theorem State.at_lastTrap (s : State) (c : Nat) (i : Instr) (x : Args) : (s.at_ c i x).lastTrap = s.lastTrap := rfl
@[simp] theorem State.at_sent (s : State) (c : Nat) (i : Instr) (x : Args) : (s.at_ c i x).sent = s.sent := rfl
@[simp] theorem State.at_dev (s : State) (c : Nat) (i : Instr) (x : Args) : (s.at_ c i x).dev = s.dev := rfl
@[simp] theorem State.at_devEcc (s : State) (c : Nat) (i : Instr) (x : Args) : (s.at_ c i x).devEcc = s.devEcc := rfl
@[simp] theorem State.at_host (s : State) (c : Nat) (i : Instr) (x : Args) : (s.at_ c i x).host = s.host := rfl
@[simp] theorem State.at_globals (s : State) (c : Nat) (i : Instr) (x : Args) : (s.at_ c i x).globals = s.globals := rfl
@[simp] theorem State.at_contexts (s : State) (c : Nat) (i : Instr) (x : Args) : (s.at_ c i x).contexts = s.contexts := rfl
@[simp] theorem State.at_partitions (s : State) (c : Nat) (i : Instr) (x : Args) : (s.at_ c i x).partitions = s.partitions := rfl
@[simp] theorem State.at_counters (s : State) (c : Nat) (i : Instr) (x : Args) : (s.at_ c i x).counters = s.counters := rfl
@[simp] theorem State.at_released (s : State) (c : Nat) (i : Instr) (x : Args) : (s.at_ c i x).released = s.released := rfl
@[simp] theorem State.at_queues (s : State) (c : Nat) (i : Instr) (x : Args) : (s.at_ c i x).queues = s.queues := rfl
@[simp] theorem State.at_interfaces (s : State) (c : Nat) (i : Instr) (x : Args) : (s.at_ c i x).interfaces = s.interfaces := rfl
@[simp] theorem State.at_launches (s : State) (c : Nat) (i : Instr) (x : Args) : (s.at_ c i x).launches = s.launches := rfl
@[simp] theorem State.at_groups (s : State) (c : Nat) (i : Instr) (x : Args) : (s.at_ c i x).groups = s.groups := rfl
@[simp] theorem State.at_nextNum (s : State) (c : Nat) (i : Instr) (x : Args) : (s.at_ c i x).nextNum = s.nextNum := rfl
@[simp] theorem State.at_gates (s : State) (c : Nat) (i : Instr) (x : Args) : (s.at_ c i x).gates = s.gates := rfl
@[simp] theorem State.at_shadows (s : State) (c : Nat) (i : Instr) (x : Args) : (s.at_ c i x).shadows = s.shadows := rfl
@[simp] theorem State.at_posts (s : State) (c : Nat) (i : Instr) (x : Args) : (s.at_ c i x).posts = s.posts := rfl
@[simp] theorem State.at_links (s : State) (c : Nat) (i : Instr) (x : Args) : (s.at_ c i x).links = s.links := rfl
@[simp] theorem State.at_transit (s : State) (c : Nat) (i : Instr) (x : Args) : (s.at_ c i x).transit = s.transit := rfl
@[simp] theorem State.at_away (s : State) (c : Nat) (i : Instr) (x : Args) : (s.at_ c i x).away = s.away := rfl
@[simp] theorem State.at_power (s : State) (c : Nat) (i : Instr) (x : Args) : (s.at_ c i x).power = s.power := rfl
@[simp] theorem State.at_merr (s : State) (c : Nat) (i : Instr) (x : Args) : (s.at_ c i x).merr = s.merr := rfl
@[simp] theorem State.at_cerr (s : State) (c : Nat) (i : Instr) (x : Args) : (s.at_ c i x).cerr = s.cerr := rfl
@[simp] theorem State.at_access (s : State) (c : Nat) (i : Instr) (x : Args) : (s.at_ c i x).access = s.access := rfl
@[simp] theorem State.at_pulling (s : State) (c : Nat) (i : Instr) (x : Args) : (s.at_ c i x).pulling = s.pulling := rfl
@[simp] theorem State.at_tlb (s : State) (c : Nat) (i : Instr) (x : Args) : (s.at_ c i x).tlb = s.tlb := rfl
@[simp] theorem State.at_msix (s : State) (c : Nat) (i : Instr) (x : Args) : (s.at_ c i x).msix = s.msix := rfl
@[simp] theorem State.at_pba (s : State) (c : Nat) (i : Instr) (x : Args) : (s.at_ c i x).pba = s.pba := rfl
@[simp] theorem State.at_parkedAtEdge (s : State) (c : Nat) (i : Instr) (x : Args) : (s.at_ c i x).parkedAtEdge = s.parkedAtEdge := rfl
@[simp] theorem State.at_cairns (s : State) (c : Nat) (i : Instr) (x : Args) : (s.at_ c i x).cairns = s.cairns := rfl
@[simp] theorem State.at_sealing (s : State) (c : Nat) (i : Instr) (x : Args) : (s.at_ c i x).sealing = s.sealing := rfl
@[simp] theorem State.at_carried (s : State) (c : Nat) (i : Instr) (x : Args) : (s.at_ c i x).carried = s.carried := rfl

/-! ### Derived reads -/

@[simp] theorem State.ctl_eq (s : State) : s.ctl = s.tile.ctl := rfl
@[simp] theorem State.onTile_unit (s : State) (f : Tile → Tile) : (s.onTile f).unit = s.unit := rfl
@[simp] theorem State.onTile_after (s : State) (f : Tile → Tile) (n : Nat) : (s.onTile f).after n = s.after n := rfl

end Sys2Proof.Machine
end

