-- ==== Sys2Proof/Laws/Claims.lean ====
section
/-! SUPPORT. The shared operations in the terms of the claims: issuing a result, noting a lost latch, raising an issue-kind trap. -/

namespace Sys2Proof.Machine

/-- Issuing a result puts it in flight and does nothing else. -/
theorem State.issue_eq (s : State) (l : Nat) (d : Dest) (p : Payload) (fl : Flags) (nwb : Bool) (k : Option Latch) :
    s.issue l d p fl nwb k = s.withResult l d p fl nwb k := rfl

@[simp] theorem State.withLost_false (s : State) : s.withLost false = s := rfl

/-- Reading scalar operands notes a lost latch and does nothing else. -/
theorem State.touchS_one (s : State) (a : BitVec 7) : s.touchS [a] = s.withLost (s.tile.scalarLost a) := by
  simp [State.touchS, State.withLost]; rfl
theorem State.touchS_two (s : State) (a b : BitVec 7) :
    s.touchS [a, b] = s.withLost (s.tile.scalarLost a || s.tile.scalarLost b) := by
  simp [State.touchS, State.withLost]; rfl
theorem State.touchV_one (s : State) (a : BitVec 7) : s.touchV [a] = s.withLost (s.tile.vectorLost a) := by
  simp [State.touchV, State.withLost]; rfl
theorem State.touchV_two (s : State) (a b : BitVec 7) :
    s.touchV [a, b] = s.withLost (s.tile.vectorLost a || s.tile.vectorLost b) := by
  simp [State.touchV, State.withLost]; rfl

theorem State.sLatch_eq (s : State) : s.sLatch = s.ownLatch := rfl

/-- Raising an issue-kind trap where traps are taken at once takes it. -/
theorem State.raise_eq (s : State) (cause hi h : Nat) (ht : s.trapsAt h) : s.raise cause hi = s.trapped cause hi := by
  obtain ⟨h1, h2, h3⟩ := ht
  simp [State.raise, State.takeTrap, h1, State.trapped, State.report, Tile.ganged, Nat.not_lt.mpr h2]

/-! ### What noting a lost latch leaves -/

@[simp] theorem State.withLost_cur (s : State) (x : Bool) : (s.withLost x).cur = s.cur := by cases x <;> rfl
@[simp] theorem State.withLost_tiles (s : State) (x : Bool) : (s.withLost x).tiles = s.tiles := by cases x <;> rfl
@[simp] theorem State.withLost_cycle (s : State) (x : Bool) : (s.withLost x).cycle = s.cycle := by cases x <;> rfl
@[simp] theorem State.withLost_todo (s : State) (x : Bool) : (s.withLost x).todo = s.todo := by cases x <;> rfl
@[simp] theorem State.withLost_timers (s : State) (x : Bool) : (s.withLost x).timers = s.timers := by cases x <;> rfl
@[simp] theorem State.withLost_script (s : State) (x : Bool) : (s.withLost x).script = s.script := by cases x <;> rfl
@[simp] theorem State.withLost_args (s : State) (x : Bool) : (s.withLost x).args = s.args := by cases x <;> rfl
@[simp] theorem State.withLost_freeCtr (s : State) (x : Bool) : (s.withLost x).freeCtr = s.freeCtr := by cases x <;> rfl
@[simp] theorem State.withLost_lastTrap (s : State) (x : Bool) : (s.withLost x).lastTrap = s.lastTrap := by cases x <;> rfl
@[simp] theorem State.withLost_sent (s : State) (x : Bool) : (s.withLost x).sent = s.sent := by cases x <;> rfl
@[simp] theorem State.withLost_dev (s : State) (x : Bool) : (s.withLost x).dev = s.dev := by cases x <;> rfl
@[simp] theorem State.withLost_devEcc (s : State) (x : Bool) : (s.withLost x).devEcc = s.devEcc := by cases x <;> rfl
@[simp] theorem State.withLost_host (s : State) (x : Bool) : (s.withLost x).host = s.host := by cases x <;> rfl
@[simp] theorem State.withLost_globals (s : State) (x : Bool) : (s.withLost x).globals = s.globals := by cases x <;> rfl
@[simp] theorem State.withLost_contexts (s : State) (x : Bool) : (s.withLost x).contexts = s.contexts := by cases x <;> rfl
@[simp] theorem State.withLost_partitions (s : State) (x : Bool) : (s.withLost x).partitions = s.partitions := by cases x <;> rfl
@[simp] theorem State.withLost_counters (s : State) (x : Bool) : (s.withLost x).counters = s.counters := by cases x <;> rfl
@[simp] theorem State.withLost_queues (s : State) (x : Bool) : (s.withLost x).queues = s.queues := by cases x <;> rfl
@[simp] theorem State.withLost_interfaces (s : State) (x : Bool) : (s.withLost x).interfaces = s.interfaces := by cases x <;> rfl
@[simp] theorem State.withLost_launches (s : State) (x : Bool) : (s.withLost x).launches = s.launches := by cases x <;> rfl
@[simp] theorem State.withLost_groups (s : State) (x : Bool) : (s.withLost x).groups = s.groups := by cases x <;> rfl
@[simp] theorem State.withLost_nextNum (s : State) (x : Bool) : (s.withLost x).nextNum = s.nextNum := by cases x <;> rfl
@[simp] theorem State.withLost_gates (s : State) (x : Bool) : (s.withLost x).gates = s.gates := by cases x <;> rfl
@[simp] theorem State.withLost_shadows (s : State) (x : Bool) : (s.withLost x).shadows = s.shadows := by cases x <;> rfl
@[simp] theorem State.withLost_posts (s : State) (x : Bool) : (s.withLost x).posts = s.posts := by cases x <;> rfl
@[simp] theorem State.withLost_links (s : State) (x : Bool) : (s.withLost x).links = s.links := by cases x <;> rfl
@[simp] theorem State.withLost_transit (s : State) (x : Bool) : (s.withLost x).transit = s.transit := by cases x <;> rfl
@[simp] theorem State.withLost_power (s : State) (x : Bool) : (s.withLost x).power = s.power := by cases x <;> rfl
@[simp] theorem State.withLost_merr (s : State) (x : Bool) : (s.withLost x).merr = s.merr := by cases x <;> rfl
@[simp] theorem State.withLost_cerr (s : State) (x : Bool) : (s.withLost x).cerr = s.cerr := by cases x <;> rfl
@[simp] theorem State.withLost_access (s : State) (x : Bool) : (s.withLost x).access = s.access := by cases x <;> rfl
@[simp] theorem State.withLost_pulling (s : State) (x : Bool) : (s.withLost x).pulling = s.pulling := by cases x <;> rfl
@[simp] theorem State.withLost_tlb (s : State) (x : Bool) : (s.withLost x).tlb = s.tlb := by cases x <;> rfl
@[simp] theorem State.withLost_msix (s : State) (x : Bool) : (s.withLost x).msix = s.msix := by cases x <;> rfl
@[simp] theorem State.withLost_parkedAtEdge (s : State) (x : Bool) : (s.withLost x).parkedAtEdge = s.parkedAtEdge := by cases x <;> rfl
@[simp] theorem State.withLost_cairns (s : State) (x : Bool) : (s.withLost x).cairns = s.cairns := by cases x <;> rfl
@[simp] theorem State.withLost_tile_regs (s : State) (x : Bool) : (s.withLost x).tile.regs = s.tile.regs := by cases x <;> rfl
@[simp] theorem State.withLost_tile_lat (s : State) (x : Bool) : (s.withLost x).tile.lat = s.tile.lat := by cases x <;> rfl
@[simp] theorem State.withLost_tile_ctl (s : State) (x : Bool) : (s.withLost x).tile.ctl = s.tile.ctl := by cases x <;> rfl
@[simp] theorem State.withLost_tile_mx (s : State) (x : Bool) : (s.withLost x).tile.mx = s.tile.mx := by cases x <;> rfl
@[simp] theorem State.withLost_tile_io (s : State) (x : Bool) : (s.withLost x).tile.io = s.tile.io := by cases x <;> rfl
@[simp] theorem State.withLost_tile_place (s : State) (x : Bool) : (s.withLost x).tile.place = s.tile.place := by cases x <;> rfl
@[simp] theorem State.withLost_tile_flights (s : State) (x : Bool) : (s.withLost x).tile.flights = s.tile.flights := by cases x <;> rfl
@[simp] theorem State.withLost_tile_nextId (s : State) (x : Bool) : (s.withLost x).tile.nextId = s.tile.nextId := by cases x <;> rfl
@[simp] theorem State.withLost_tile_sems (s : State) (x : Bool) : (s.withLost x).tile.sems = s.tile.sems := by cases x <;> rfl
@[simp] theorem State.withLost_tile_frame (s : State) (x : Bool) : (s.withLost x).tile.frame = s.tile.frame := by cases x <;> rfl
@[simp] theorem State.withLost_tile_halt (s : State) (x : Bool) : (s.withLost x).tile.halt = s.tile.halt := by cases x <;> rfl
@[simp] theorem State.withLost_tile_spad (s : State) (x : Bool) : (s.withLost x).tile.spad = s.tile.spad := by cases x <;> rfl
@[simp] theorem State.withLost_tile_imem (s : State) (x : Bool) : (s.withLost x).tile.imem = s.tile.imem := by cases x <;> rfl
@[simp] theorem State.withLost_tile_stale (s : State) (x : Bool) : (s.withLost x).tile.stale = s.tile.stale := by cases x <;> rfl
@[simp] theorem State.withLost_tile_loopBuf (s : State) (x : Bool) : (s.withLost x).tile.loopBuf = s.tile.loopBuf := by cases x <;> rfl
@[simp] theorem State.withLost_tile_bufFor (s : State) (x : Bool) : (s.withLost x).tile.bufFor = s.tile.bufFor := by cases x <;> rfl
@[simp] theorem State.withLost_tile_ecc (s : State) (x : Bool) : (s.withLost x).tile.ecc = s.tile.ecc := by cases x <;> rfl
@[simp] theorem State.withLost_tile_iecc (s : State) (x : Bool) : (s.withLost x).tile.iecc = s.tile.iecc := by cases x <;> rfl
@[simp] theorem State.withLost_tile_slot (s : State) (x : Bool) : (s.withLost x).tile.slot = s.tile.slot := by cases x <;> rfl
@[simp] theorem State.withLost_tile_lit (s : State) (x : Bool) : (s.withLost x).tile.lit = s.tile.lit := by cases x <;> rfl
@[simp] theorem State.withLost_tile_kval (s : State) (x : Bool) : (s.withLost x).tile.kval = s.tile.kval := by cases x <;> rfl
@[simp] theorem State.withLost_csr_vfmt (s : State) (x : Bool) : (s.withLost x).tile.csr.vfmt = s.tile.csr.vfmt := by cases x <;> rfl
@[simp] theorem State.withLost_csr_ten (s : State) (x : Bool) : (s.withLost x).tile.csr.ten = s.tile.csr.ten := by cases x <;> rfl
@[simp] theorem State.withLost_csr_seed (s : State) (x : Bool) : (s.withLost x).tile.csr.seed = s.tile.csr.seed := by cases x <;> rfl
@[simp] theorem State.withLost_csr_clamp (s : State) (x : Bool) : (s.withLost x).tile.csr.clamp = s.tile.csr.clamp := by cases x <;> rfl
@[simp] theorem State.withLost_scalarLost (s : State) (x : Bool) (c : BitVec 7) : (s.withLost x).tile.scalarLost c = s.tile.scalarLost c := by cases x <;> rfl
@[simp] theorem State.withLost_vectorLost (s : State) (x : Bool) (c : BitVec 7) : (s.withLost x).tile.vectorLost c = s.tile.vectorLost c := by cases x <;> rfl
@[simp] theorem State.withLost_scalar (s : State) (x : Bool) (c : BitVec 7) : (s.withLost x).tile.scalar c = s.tile.scalar c := by cases x <;> rfl
@[simp] theorem State.withLost_kOperand (s : State) (x : Bool) (c : BitVec 7) : (s.withLost x).tile.kOperand c = s.tile.kOperand c := by cases x <;> rfl
@[simp] theorem State.withLost_sreg (s : State) (x : Bool) (c : Nat) : (s.withLost x).tile.sreg c = s.tile.sreg c := by cases x <;> rfl
@[simp] theorem State.withLost_vreg (s : State) (x : Bool) (c : Nat) : (s.withLost x).tile.vreg c = s.tile.vreg c := by cases x <;> rfl
@[simp] theorem State.withLost_preg (s : State) (x : Bool) (c : Nat) : (s.withLost x).tile.preg c = s.tile.preg c := by cases x <;> rfl
@[simp] theorem State.withLost_phys (s : State) (x : Bool) (c : Nat) : (s.withLost x).tile.phys c = s.tile.phys c := by cases x <;> rfl
@[simp] theorem State.withLost_predOn (s : State) (x : Bool) (c : BitVec 3) : (s.withLost x).tile.predOn c = s.tile.predOn c := by cases x <;> rfl
@[simp] theorem State.withLost_quire (s : State) (x : Bool) (c : BitVec 7) : (s.withLost x).tile.quire c = s.tile.quire c := by cases x <;> rfl
@[simp] theorem State.withLost_bundleAt (s : State) (x : Bool) (c : Nat) : (s.withLost x).tile.bundleAt c = s.tile.bundleAt c := by cases x <;> rfl
@[simp] theorem State.withLost_spadNat (s : State) (x : Bool) (c n : Nat) : (s.withLost x).tile.spadNat c n = s.tile.spadNat c n := by cases x <;> rfl
@[simp] theorem State.withLost_vector (s : State) (x : Bool) (c : BitVec 7) (w : Nat) : (s.withLost x).tile.vector c w = s.tile.vector c w := by cases x <;> rfl
@[simp] theorem State.withLost_aFmt (s : State) (x : Bool) : (s.withLost x).tile.aFmt = s.tile.aFmt := by cases x <;> rfl
@[simp] theorem State.withLost_bFmt (s : State) (x : Bool) : (s.withLost x).tile.bFmt = s.tile.bFmt := by cases x <;> rfl
@[simp] theorem State.withLost_dFmt (s : State) (x : Bool) : (s.withLost x).tile.dFmt = s.tile.dFmt := by cases x <;> rfl
@[simp] theorem State.withLost_rmode (s : State) (x : Bool) : (s.withLost x).tile.rmode = s.tile.rmode := by cases x <;> rfl
@[simp] theorem State.withLost_tids (s : State) (x : Bool) : (s.withLost x).tile.tids = s.tile.tids := by cases x <;> rfl
@[simp] theorem State.withLost_ownLatch (s : State) (x : Bool) : (s.withLost x).ownLatch = s.ownLatch := by cases x <;> rfl
@[simp] theorem State.withLost_unit (s : State) (x : Bool) : (s.withLost x).unit = s.unit := by cases x <;> rfl
@[simp] theorem State.withLost_after (s : State) (x : Bool) (n : Nat) : (s.withLost x).after n = s.after n := by cases x <;> rfl
@[simp] theorem State.withLost_rounding (s : State) (x : Bool) (d : Fmt) : (s.withLost x).tile.rounding d = s.tile.rounding d := by cases x <;> rfl

end Sys2Proof.Machine
end

