-- ==== Sys2Proof/Laws/Frame.lean ====
section
/-! SUPPORT. What no syllable changes when it executes: each shared operation of the meanings keeps it. -/

namespace Sys2Proof.Machine

/-- What every syllable leaves as it is: results land and stores are written later. -/
structure Kept where
  regs : Regs
  lat : Latches
  spad : Memory
  imem : Memory
  vfmt : W32
  seed : W64
  cur : Nat
  tiles : List (Nat × Tile)
  cycle : Nat
  groups : List (Nat × Group)
  contexts : List (Nat × Context)
  partitions : List (Nat × Partition)
  launches : List (Nat × Launch)
  gates : List (Nat × Gate)
  links : List (Nat × Link)

/-- That part of a state. -/
def State.kept (s : State) : Kept :=
  { regs := s.tile.regs, lat := s.tile.lat, spad := s.tile.spad, imem := s.tile.imem, vfmt := s.tile.csr.vfmt, seed := s.tile.csr.seed,
    cur := s.cur, tiles := s.tiles, cycle := s.cycle, groups := s.groups, contexts := s.contexts, partitions := s.partitions,
    launches := s.launches, gates := s.gates, links := s.links }

@[simp] theorem State.onCtl_kept (s : State) (f : Control → Control) : (s.onCtl f).kept = s.kept := rfl
@[simp] theorem State.onMx_kept (s : State) (f : Mx → Mx) : (s.onMx f).kept = s.kept := rfl
@[simp] theorem State.onIo_kept (s : State) (f : Ports → Ports) : (s.onIo f).kept = s.kept := rfl
@[simp] theorem State.onPlace_kept (s : State) (f : Place → Place) : (s.onPlace f).kept = s.kept := rfl
@[simp] theorem State.tileCtl_kept (s : State) (f : Control → Control) : (s.onTile fun t => t.onCtl f).kept = s.kept := rfl
@[simp] theorem State.tileMx_kept (s : State) (f : Mx → Mx) : (s.onTile fun t => t.onMx f).kept = s.kept := rfl
@[simp] theorem State.tileIo_kept (s : State) (f : Ports → Ports) : (s.onTile fun t => t.onIo f).kept = s.kept := rfl
@[simp] theorem State.tilePlace_kept (s : State) (f : Place → Place) : (s.onTile fun t => t.onPlace f).kept = s.kept := rfl
@[simp] theorem State.onMerr_kept (s : State) (m : Nat) (f : Merr → Merr) : (s.onMerr m f).kept = s.kept := rfl
@[simp] theorem State.at_kept (s : State) (c : Nat) (i : Instr) (x : Args) : (s.at_ c i x).kept = s.kept := rfl
@[simp] theorem State.issue_kept (s : State) (l : Nat) (d : Dest) (p : Payload) (fl : Flags) (n : Bool) (k : Option Latch) :
    (s.issue l d p fl n k).kept = s.kept := rfl
@[simp] theorem State.setShadow_kept (s : State) (x : Shadow) : (s.setShadow x).kept = s.kept := rfl
@[simp] theorem State.store_kept (s : State) (l : Nat) (k : StoreKind) (cs : List Host.Cell) : (s.store l k cs).kept = s.kept := rfl
@[simp] theorem State.readLater_kept (s : State) (l f : Nat) (cs : List (Nat × Nat)) : (s.readLater l f cs).kept = s.kept := rfl
@[simp] theorem State.pendMx_kept (s : State) (l : Nat) (k : MxKind) : (s.pendMx l k).kept = s.kept := rfl
@[simp] theorem State.touchS_kept (s : State) (cs : List (BitVec 7)) : (s.touchS cs).kept = s.kept := by
  unfold State.touchS; split <;> rfl
@[simp] theorem State.touchK_kept (s : State) (x : BitVec 7) : (s.touchK x).kept = s.kept := by
  unfold State.touchK; split <;> simp
@[simp] theorem State.touchV_kept (s : State) (cs : List (BitVec 7)) : (s.touchV cs).kept = s.kept := by
  unfold State.touchV; split <;> rfl
@[simp] theorem State.touchR_kept (s : State) (r : Rounding) : (s.touchR r).kept = s.kept := by
  unfold State.touchR; split <;> simp

@[simp] theorem State.devErr_kept (s : State) (a : Nat) : (s.devErr a).kept = s.kept := by
  unfold State.devErr State.devEccAt; repeat' split
  all_goals rfl

@[simp] theorem State.post_kept (s : State) (r : Record) : (s.post r).kept = s.kept := by
  unfold State.post State.ring; split
  · rfl
  · simp only; repeat' split
    all_goals first | rfl | exact State.devErr_kept s _

@[simp] theorem State.fatalAt_kept (s : State) (a b e : Nat) : (s.fatalAt a b e).kept = s.kept := by
  unfold State.fatalAt; simp only; split
  · exact State.post_kept s _
  · rfl

@[simp] theorem State.fatal_kept (s : State) (a : Nat) : (s.fatal a).kept = s.kept := by
  unfold State.fatal; split <;> exact State.fatalAt_kept s _ _ _

@[simp] theorem State.enterTrap_kept (s : State) (i : TrapInfo) : (s.enterTrap i).kept = s.kept := by
  cases h : s.tile.place.entryPoint with
  | none => simp [State.enterTrap, h]
  | some n => rw [State.enterTrap]; simp only [h]; rfl

@[simp] theorem State.takeTrap_kept (s : State) (i : TrapInfo) : (s.takeTrap i).kept = s.kept := by
  unfold State.takeTrap
  simp only
  split
  · exact State.fatalAt_kept { s with lastTrap := some i } _ _ _
  · split
    · rfl
    · exact State.enterTrap_kept { s with lastTrap := some i } i

@[simp] theorem State.raise_kept (s : State) (c h : Nat) : (s.raise c h).kept = s.kept := State.takeTrap_kept _ _
@[simp] theorem State.raiseTarget_kept (s : State) (a b c : Nat) : (s.raiseTarget a b c).kept = s.kept := State.takeTrap_kept _ _
@[simp] theorem State.illegal_kept (s : State) : s.illegal.kept = s.kept := State.raise_kept _ _ _

@[simp] theorem State.noteLanding_kept (s : State) (c : Nat) (v : W64) : (s.noteLanding c v).kept = s.kept := by
  unfold State.noteLanding
  simp only
  split
  · split <;> simp
  · rfl

@[simp] theorem State.readEcc_kept (s : State) (l : List Nat) : (s.readEcc l).kept = s.kept := by
  induction l generalizing s with
  | nil => rfl
  | cons w r ih =>
    unfold State.readEcc
    split
    · exact ih s
    · rw [ih, State.noteLanding_kept]; rfl
    · rw [State.fatal_kept]; rfl

@[simp] theorem State.touchSpad_kept (s : State) (l : List Nat) : (s.touchSpad l).kept = s.kept := by
  unfold State.touchSpad; split <;> simp

@[simp] theorem State.startWait_kept (s : State) (w : Wait) : (s.startWait w).kept = s.kept := by
  unfold State.startWait
  split
  · next h =>
    cases w <;> simp only [State.testWait] at h
    all_goals (repeat' split at h)
    all_goals first | contradiction | (injection h with h; subst h; rfl)
  · rfl

@[simp] theorem State.putS_kept (s : State) (l : Nat) (d : BitVec 6) (v : W64) (fl : Flags) (n : Bool) : (s.putS l d v fl n).kept = s.kept := rfl
@[simp] theorem State.putA_kept (s : State) (d : BitVec 6) (v : W32) (n : Bool) : (s.putA d v n).kept = s.kept := rfl
@[simp] theorem State.putV_kept (s : State) (l n : Nat) (m : PReg) (v : VReg) (fl : Flags) (x : Bool) (k : Option Latch) :
    (s.putV l n m v fl x k).kept = s.kept := rfl
@[simp] theorem State.putVa_kept (s : State) (l : Nat) (f : RG) (m : PReg) (v : VReg) (fl : Flags) : (s.putVa l f m v fl).kept = s.kept := rfl
@[simp] theorem State.putVb_kept (s : State) (l : Nat) (f : RG) (m : PReg) (v : VReg) (fl : Flags) : (s.putVb l f m v fl).kept = s.kept := rfl
@[simp] theorem State.putQ_kept (s : State) (l : Nat) (f : RG) (p : Payload) (fl : Flags) : (s.putQ l f p fl).kept = s.kept := rfl
@[simp] theorem State.putP_kept (s : State) (f : RG) (v : PReg) : (s.putP f v).kept = s.kept := rfl
@[simp] theorem State.putLs_kept (s : State) (d : BitVec 6) (v : W64) : (s.putLs d v).kept = s.kept := rfl
@[simp] theorem State.putCp_kept (s : State) (d : BitVec 6) (v : W64) : (s.putCp d v).kept = s.kept := rfl
@[simp] theorem State.jump_kept (s : State) (t : Nat) : (s.jump t).kept = s.kept := rfl
@[simp] theorem State.link_kept (s : State) : s.link.kept = s.kept := rfl
@[simp] theorem State.lsWindow_kept (s : State) (l : Nat) : (s.lsWindow l).kept = s.kept := rfl
@[simp] theorem State.postInc_kept (s : State) (f : Mem) (n : Nat) : (s.postInc f n).kept = s.kept := by
  unfold State.postInc; split <;> rfl
@[simp] theorem State.touchIndex_kept (s : State) (f : Mem) : (s.touchIndex f).kept = s.kept := by
  unfold State.touchIndex; split <;> simp

/-! ### Operations with a continuation -/

theorem State.checked_kept (s : State) (o n a l : Nat) (k : State → State) (h : (k s).kept = s.kept) : (s.checked o n a l k).kept = s.kept := by
  unfold State.checked; repeat' split
  all_goals simp [h]
theorem State.strided_kept (s : State) (f : Mem) (k : State → State) (h : (k (s.touchS [f.index])).kept = s.kept) : (s.strided f k).kept = s.kept := by
  unfold State.strided; simp only; repeat' split
  all_goals simp [h]
theorem State.indexed_kept (s : State) (f : Mem) (k : State → State) (h : (k (s.touchV [f.index])).kept = s.kept) : (s.indexed f k).kept = s.kept := by
  unfold State.indexed; simp only; repeat' split
  all_goals simp [h]
theorem State.pushWrite_kept (s : State) (mk : Nat → OutKind) (k : State → Nat → State) (h : ∀ t n, t.kept = s.kept → (k t n).kept = s.kept) :
    (s.pushWrite mk k).kept = s.kept := by
  unfold State.pushWrite; split
  · simp
  · exact h _ _ rfl
theorem State.pushRequest_kept (s : State) (mk : Nat → ReqKind) (k : State → Nat → State) (h : ∀ t n, t.kept = s.kept → (k t n).kept = s.kept) :
    (s.pushRequest mk k).kept = s.kept := by
  unfold State.pushRequest; split
  · simp
  · exact h _ _ rfl
theorem State.pushMarkers_kept (s : State) (w r : Bool) (a : Nat → OutKind) (b : Nat → ReqKind) (k : State → Nat → State)
    (h : ∀ t n, t.kept = s.kept → (k t n).kept = s.kept) : (s.pushMarkers w r a b k).kept = s.kept := by
  unfold State.pushMarkers; split
  · simp
  · exact h _ _ rfl
theorem State.fence_kept (s : State) (p : BitVec 6) (c : Nat) (k : State → State) (h : ∀ t, t.kept = s.kept → (k t).kept = s.kept) :
    (s.fence p c k).kept = s.kept := by
  unfold State.fence
  refine State.pushMarkers_kept _ _ _ _ _ _ fun t n ht => h _ ?_
  split
  · simpa using ht
  · exact ht
theorem State.gateChecked_kept (s : State) (w : W64) (a b : Bool) (k : Shadow → State) (h : ∀ x, (k x).kept = s.kept) :
    (s.gateChecked w a b k).kept = s.kept := by
  unfold State.gateChecked; simp only; repeat' split
  all_goals simp [h]
theorem State.withBinding_kept (s : State) (f : Copy) (p : Bool) (k : Binding → State) (h : ∀ b, (k b).kept = s.kept) :
    (s.withBinding f p k).kept = s.kept := by
  unfold State.withBinding; repeat' split
  all_goals simp [h]
theorem State.feedRead_kept (s : State) (os : List Nat) (z : Nat) (k : State → State) (h : (k s).kept = s.kept) : (s.feedRead os z k).kept = s.kept := by
  unfold State.feedRead; repeat' split
  all_goals simp [h]
theorem State.feedBlock_kept (s : State) (b n : Nat) (r : Bool) (c : Nat) (k : State → State) (h : (k s).kept = s.kept) :
    (s.feedBlock b n r c k).kept = s.kept := by
  unfold State.feedBlock; repeat' split
  all_goals simp [h]
theorem State.modifyMx_kept (s : State) (k : State → State) (h : ∀ t, t.kept = s.kept → (k t).kept = s.kept) : (s.modifyMx k).kept = s.kept := by
  unfold State.modifyMx; repeat' split
  · exact h _ rfl
  · simp
  · exact h _ rfl
theorem State.rounder_kept (s : State) (f : RG) (k : Fmt → Rounding → Val → State → State)
    (h : ∀ d r z t, t.kept = s.kept → (k d r z t).kept = s.kept) : (s.rounder f k).kept = s.kept := by
  unfold State.rounder; repeat' split
  all_goals first | simp; done | exact h _ _ _ _ (by simp)
theorem State.whole_kept (s : State) (f : RG) (k : State) (h : k.kept = s.kept) : (s.whole f k).kept = s.kept := by
  unfold State.whole; split <;> simp [h]
theorem State.rawOp_kept (s : State) (f : RG) (k : VReg → VReg → State → State) (h : ∀ a b t, t.kept = s.kept → (k a b t).kept = s.kept) :
    (s.rawOp f k).kept = s.kept := by
  unfold State.rawOp; split
  · exact h _ _ _ (by simp)
  · simp
theorem State.rawUnary_kept (s : State) (f : RG) (k : VReg → State → State) (h : ∀ a t, t.kept = s.kept → (k a t).kept = s.kept) :
    (s.rawUnary f k).kept = s.kept := by
  unfold State.rawUnary; split
  · exact h _ _ (by simp)
  · simp

/-! ### Forms shared by several instructions -/

@[simp] theorem State.scalarOp_kept (s : State) (f : RG) (l : Nat) (op : W64 → W64 → W64 → W64) : (s.scalarOp f l op).kept = s.kept := by
  unfold State.scalarOp; split <;> simp
@[simp] theorem State.immOp_kept (s : State) (f : RI) (op : W64 → W64 → W64) : (s.immOp f op).kept = s.kept := by simp [State.immOp]
@[simp] theorem State.summary_kept (s : State) (f : RG) (g : Nat → Nat → W64) : (s.summary f g).kept = s.kept := by
  unfold State.summary; split <;> simp
@[simp] theorem State.loadScalar_kept (s : State) (f : Mem) (n : Nat) (e : Nat → W64) : (s.loadScalar f n e).kept = s.kept := by
  unfold State.loadScalar; split
  · simp only; rw [State.checked_kept] <;> simp
  · rfl
@[simp] theorem State.storeScalar_kept (s : State) (f : Mem) (n : Nat) : (s.storeScalar f n).kept = s.kept := by
  unfold State.storeScalar; split
  · simp only; rw [State.checked_kept] <;> simp
  · rfl
@[simp] theorem State.atomic_kept (s : State) (f : Atomic) (a b c : Nat) : (s.atomic f a b c).kept = s.kept := by
  unfold State.atomic; split
  · simp only; rw [State.checked_kept] <;> simp
  · rfl
@[simp] theorem State.remoteOp_kept (s : State) (f : Remote) (n : Nat) (k : RemoteKind) (g : W64 → Option Nat) (u : Bool) :
    (s.remoteOp f n k g u).kept = s.kept := by
  unfold State.remoteOp; simp only; repeat' split
  all_goals first | simp; done | exact State.pushWrite_kept _ _ _ fun t n h => by simpa using h
@[simp] theorem State.arrive_kept (s : State) (b : Nat) (t : Bool) : (s.arrive b t).kept = s.kept := by
  unfold State.arrive; split
  · simp
  · exact State.pushWrite_kept _ _ _ fun t n h => by simpa using h
@[simp] theorem State.openLoop_kept (s : State) (x : BitVec 7) (n : Nat) (l : Bool) (a b : Nat) : (s.openLoop x n l a b).kept = s.kept := by
  unfold State.openLoop; simp only; repeat' split
  all_goals simp
@[simp] theorem State.elementwise_kept (s : State) (f : RG) (a b : Bool) (l : Bool → Nat)
    (op : Bool → Fmt → Fmt → Val → Val → Val → OpRes) : (s.elementwise f a b l op).kept = s.kept := by
  unfold State.elementwise; simp only; repeat' split
  all_goals simp
@[simp] theorem State.compare_kept (s : State) (f : RG) (a b c : Bool) : (s.compare f a b c).kept = s.kept := by
  unfold State.compare; simp only; repeat' split
  all_goals simp
@[simp] theorem State.shift_kept (s : State) (f : RG) (op : Nat → Nat → Nat → Nat) : (s.shift f op).kept = s.kept := by
  unfold State.shift; split
  · simp
  · exact State.rawOp_kept _ _ _ fun a b t h => by simpa using h
@[simp] theorem State.special_kept (s : State) (f : RG) (op : Bool → Val → OpRes) : (s.special f op).kept = s.kept := by
  unfold State.special; simp only; repeat' split
  all_goals simp
@[simp] theorem State.laneTerm_kept (s : State) (f : RG) (p : Bool) : (s.laneTerm f p).kept = s.kept := by
  unfold State.laneTerm
  refine State.modifyMx_kept _ _ fun t h => ?_
  simp only; repeat' split
  all_goals simp [h]
@[simp] theorem State.floatOp_kept (s : State) (f : RG) (l : Nat) (op : W64 → W64 → W64 → Option (W64 × Flags)) :
    (s.floatOp f l op).kept = s.kept := by
  unfold State.floatOp; repeat' split
  all_goals simp
@[simp] theorem State.fpRounded_kept (s : State) (f : RG) (l : Nat) (op : Val → Val → Val → OpRes) (b : Bool) :
    (s.fpRounded f l op b).kept = s.kept := by
  unfold State.fpRounded; repeat' split
  all_goals simp
@[simp] theorem State.taperedOp_kept (s : State) (f : RG) (op : Val → Val → Val → OpRes) : (s.taperedOp f op).kept = s.kept := by
  unfold State.taperedOp; repeat' split
  all_goals simp
@[simp] theorem State.feedStores_kept (s : State) (b c : Nat) (l : List (List Byte)) : (s.feedStores b c l).kept = s.kept := by
  induction l generalizing s b c with
  | nil => rfl
  | cons x r ih => simp [State.feedStores, ih]

end Sys2Proof.Machine
end

