-- ==== Sys2Proof/Laws/Memory.lean ====
section
/-! SUPPORT. Byte memories: every operation keeps the canonical form, and reading after writing. -/

namespace Sys2Proof.Machine

/-- A canonical list: its first cell differs from the default, lies below every other, and the rest is canonical. -/
theorem cellsWf_cons {d : Nat → Byte} {a : Nat} {b : Byte} {r : List Host.Cell} :
    cellsWf d ((a, b) :: r) = true ↔ b ≠ d a ∧ (∀ x ∈ r, a < x.1) ∧ cellsWf d r = true := by
  induction r generalizing a b with
  | nil => simp [cellsWf]
  | cons x r ih =>
    obtain ⟨k, c⟩ := x
    have hx := ih (a := k) (b := c)
    have step : cellsWf d ((a, b) :: (k, c) :: r) = true ↔ (b ≠ d a ∧ a < k) ∧ cellsWf d ((k, c) :: r) = true := by
      rw [show cellsWf d ((a, b) :: (k, c) :: r) = ((b != d a && decide (a < k)) && cellsWf d ((k, c) :: r)) from rfl]
      simp
    rw [step]
    constructor
    · rintro ⟨⟨h1, h2⟩, h3⟩
      refine ⟨h1, ?_, h3⟩
      intro y hy
      rcases List.mem_cons.mp hy with rfl | hy
      · exact h2
      · exact Nat.lt_trans h2 ((hx.mp h3).2.1 y hy)
    · rintro ⟨h1, h2, h3⟩
      exact ⟨⟨h1, h2 _ List.mem_cons_self⟩, h3⟩

/-- Writing adds no address but the written one. -/
theorem cellWrite_mem {d b : Byte} {a : Nat} {x : Host.Cell} :
    ∀ {l : List Host.Cell}, x ∈ cellWrite d l a b → x ∈ l ∨ x = (a, b) := by
  intro l
  induction l with
  | nil =>
    intro h
    simp only [cellWrite] at h
    split at h
    · cases h
    · exact .inr (List.mem_singleton.mp h)
  | cons y r ih =>
    obtain ⟨k, c⟩ := y
    intro h
    simp only [cellWrite] at h
    split at h
    · rcases List.mem_cons.mp h with rfl | h
      · exact .inl List.mem_cons_self
      · exact (ih h).imp (List.mem_cons_of_mem _) id
    · split at h
      · split at h
        · exact .inl (List.mem_cons_of_mem _ h)
        · rcases List.mem_cons.mp h with rfl | h
          · exact .inr rfl
          · exact .inl (List.mem_cons_of_mem _ h)
      · split at h
        · exact .inl h
        · rcases List.mem_cons.mp h with rfl | h
          · exact .inr rfl
          · exact .inl h

/-- Writing a byte keeps a list canonical. -/
theorem cellWrite_wf {d : Nat → Byte} {a : Nat} {b : Byte} :
    ∀ {l : List Host.Cell}, cellsWf d l = true → cellsWf d (cellWrite (d a) l a b) = true := by
  intro l
  induction l with
  | nil =>
    intro _
    simp only [cellWrite]
    split
    · rfl
    · next h => exact cellsWf_cons.mpr ⟨h, by simp, rfl⟩
  | cons y r ih =>
    obtain ⟨k, c⟩ := y
    intro h
    obtain ⟨h1, h2, h3⟩ := cellsWf_cons.mp h
    simp only [cellWrite]
    split
    · next hk =>
      refine cellsWf_cons.mpr ⟨h1, ?_, ih h3⟩
      intro x hx
      rcases cellWrite_mem hx with hx | rfl
      · exact h2 x hx
      · exact hk
    · split
      · next hk =>
        split
        · exact h3
        · next hb => exact cellsWf_cons.mpr ⟨hb, fun x hx => hk ▸ h2 x hx, h3⟩
      · split
        · exact h
        · next hb =>
          refine cellsWf_cons.mpr ⟨hb, ?_, h⟩
          intro x hx
          rcases List.mem_cons.mp hx with rfl | hx
          · show a < k; omega
          · have := h2 x hx; omega

/-- A canonical list holds no entry for an address below all of its own. -/
theorem find_none {l : List Host.Cell} {a : Nat} (h : ∀ x ∈ l, a < x.1) : find l a = none := by
  induction l with
  | nil => rfl
  | cons y r ih =>
    obtain ⟨k, c⟩ := y
    have hk : a < k := h _ List.mem_cons_self
    show (if k = a then some c else find r a) = none
    rw [if_neg (by omega)]
    exact ih fun x hx => h x (List.mem_cons_of_mem _ hx)

/-- The written address reads the written byte. -/
theorem find_cellWrite_same {d : Nat → Byte} {a : Nat} {b : Byte} :
    ∀ {l : List Host.Cell}, cellsWf d l = true → (find (cellWrite (d a) l a b) a).getD (d a) = b := by
  intro l
  induction l with
  | nil =>
    intro _
    simp only [cellWrite]
    split
    · next h => exact h.symm
    · simp [find]
  | cons y r ih =>
    obtain ⟨k, c⟩ := y
    intro h
    obtain ⟨h1, h2, h3⟩ := cellsWf_cons.mp h
    simp only [cellWrite]
    split
    · next hk =>
      show ((if k = a then some c else find (cellWrite (d a) r a b) a)).getD (d a) = b
      rw [if_neg (by omega)]
      exact ih h3
    · split
      · next hk =>
        split
        · next hb =>
          rw [find_none (fun x hx => hk ▸ h2 x hx)]
          exact hb.symm
        · simp [find]
      · split
        · next hb =>
          rw [find_none]
          · exact hb.symm
          · intro x hx
            rcases List.mem_cons.mp hx with rfl | hx
            · show a < k; omega
            · have := h2 x hx; omega
        · simp [find]

/-- Every other address reads as before. -/
theorem find_cellWrite_other {d b : Byte} {a k : Nat} (hk : k ≠ a) :
    ∀ {l : List Host.Cell}, find (cellWrite d l a b) k = find l k := by
  intro l
  induction l with
  | nil =>
    simp only [cellWrite]
    split
    · rfl
    · show (if a = k then some b else none) = none
      rw [if_neg (Ne.symm hk)]
  | cons y r ih =>
    obtain ⟨j, c⟩ := y
    simp only [cellWrite]
    split
    · show (if j = k then some c else find (cellWrite d r a b) k) = (if j = k then some c else find r k)
      rw [ih]
    · split
      · next hj =>
        split
        · show find r k = (if j = k then some c else find r k)
          rw [if_neg (by omega)]
        · show (if a = k then some b else find r k) = (if j = k then some c else find r k)
          rw [if_neg (by omega), if_neg (by omega)]
      · split
        · rfl
        · show (if a = k then some b else find ((j, c) :: r) k) = find ((j, c) :: r) k
          rw [if_neg (by omega)]

theorem Memory.empty_wf : Memory.empty.wf = true := rfl

/-- A memory with nothing listed is canonical. -/
theorem Memory.nil_wf (e : Option Nat) : Memory.wf { epoch := e, cells := [] } = true := rfl

@[simp] theorem Memory.write_epoch (m : Memory) (a : Nat) (b : Byte) : (m.write a b).epoch = m.epoch := rfl
@[simp] theorem Memory.write_dflt (m : Memory) (a : Nat) (b : Byte) : (m.write a b).dflt = m.dflt := rfl

/-- Writing a byte keeps the canonical form. -/
theorem Memory.write_wf {m : Memory} (h : m.wf = true) (a : Nat) (b : Byte) : (m.write a b).wf = true :=
  cellWrite_wf (d := m.dflt) h

/-- Writing bytes keeps the canonical form. -/
theorem Memory.writeCells_wf (cs : List Host.Cell) : ∀ {m : Memory}, m.wf = true → (m.writeCells cs).wf = true := by
  induction cs with
  | nil => exact id
  | cons c r ih => exact fun h => ih (Memory.write_wf h _ _)

/-- Writing a value keeps the canonical form. -/
theorem Memory.writeNat_wf {m : Memory} (h : m.wf = true) (a n w : Nat) : (m.writeNat a n w).wf = true :=
  Memory.writeCells_wf _ h

/-- Appending to a ring keeps the canonical form. -/
theorem ringAppend_wf {m : Memory} (h : m.wf = true) (base log : Nat) (header : Nat × Nat × Nat) (bs : List Byte) :
    (ringAppend m base log header bs).wf = true := by
  unfold ringAppend
  dsimp only
  split
  · exact Memory.writeNat_wf (Memory.writeNat_wf (Memory.writeCells_wf _ h) _ _ _) _ _ _
  · exact Memory.writeNat_wf h _ _ _

/-- The written byte reads back. -/
theorem Memory.read_write_same {m : Memory} (h : m.wf = true) (a : Nat) (b : Byte) : (m.write a b).read a = b :=
  find_cellWrite_same (d := m.dflt) h

/-- Every other byte reads as before. -/
theorem Memory.read_write_other (m : Memory) {a k : Nat} (b : Byte) (hk : k ≠ a) : (m.write a b).read k = m.read k := by
  show (find (cellWrite (m.dflt a) m.cells a b) k).getD _ = _
  rw [find_cellWrite_other hk]
  rfl

/-- A byte outside the written cells reads as before. -/
theorem Memory.read_writeCells_other (cs : List Host.Cell) :
    ∀ (m : Memory) {k : Nat}, (∀ c ∈ cs, c.1 ≠ k) → (m.writeCells cs).read k = m.read k := by
  induction cs with
  | nil => exact fun _ _ _ => rfl
  | cons c r ih =>
    intro m k h
    show ((m.write c.1 c.2).writeCells r).read k = _
    rw [ih _ fun x hx => h x (List.mem_cons_of_mem _ hx)]
    exact m.read_write_other _ (Ne.symm (h c List.mem_cons_self))

/-- The addresses of consecutive cells. -/
theorem mem_cellsAt {bs : List Byte} : ∀ {a : Nat} {c : Host.Cell}, c ∈ cellsAt a bs → a ≤ c.1 ∧ c.1 < a + bs.length := by
  induction bs with
  | nil => intro a c h; cases h
  | cons b r ih =>
    intro a c h
    rcases List.mem_cons.mp h with rfl | h
    · simp
    · have := ih h
      simp only [List.length_cons]
      omega

theorem natBytes_length (n : Nat) : ∀ w, (natBytes w n).length = n := by
  induction n with
  | zero => exact fun _ => rfl
  | succ n ih => intro w; simp [natBytes, ih]

/-- A byte outside a written value reads as before. -/
theorem Memory.read_writeNat_other (m : Memory) (a n w : Nat) {k : Nat} (h : k < a ∨ a + n ≤ k) :
    (m.writeNat a n w).read k = m.read k := by
  refine m.read_writeCells_other _ fun c hc => ?_
  have := mem_cellsAt hc
  rw [natBytes_length] at this
  omega

end Sys2Proof.Machine
end

