-- ==== Sys2Proof/Laws/PerInstr.lean ====
section
/-! SUPPORT. Decoding an encoded well-formed instruction gives it back: field lemmas of each format, then one lemma per
constructor (the family RoundTrip of LAWS.json). -/

namespace Sys2Proof

/-- The opcode of a RG word. -/
theorem RG.word_op (op : BitVec 8) (f : RG) : BitVec.extractLsb' 24 8 (f.word op) = op := by
  obtain ⟨dst, srcA, srcB, pred, nwb⟩ := f
  have h : (op ++ dst ++ srcA ++ srcB ++ pred ++ BitVec.ofBool nwb).extractLsb' 24 8 = op := by
    rw [BitVec.extractLsb'_append_eq_of_le (by omega), BitVec.extractLsb'_append_eq_of_le (by omega), BitVec.extractLsb'_append_eq_of_le (by omega), BitVec.extractLsb'_append_eq_of_le (by omega), BitVec.extractLsb'_append_eq_of_le (by omega)]
    exact BitVec.extractLsb'_eq_self
  exact h

/-- Encoding keeps every field of a RG. -/
theorem RG.ofWord_word (op : BitVec 8) (f : RG) : RG.ofWord (f.word op) = f := by
  obtain ⟨dst, srcA, srcB, pred, nwb⟩ := f
  have h1 : (op ++ dst ++ srcA ++ srcB ++ pred ++ BitVec.ofBool nwb).extractLsb' 18 6 = dst := by
    rw [BitVec.extractLsb'_append_eq_of_le (by omega), BitVec.extractLsb'_append_eq_of_le (by omega), BitVec.extractLsb'_append_eq_of_le (by omega), BitVec.extractLsb'_append_eq_of_le (by omega), BitVec.extractLsb'_append_eq_of_add_le (by omega)]
    exact BitVec.extractLsb'_eq_self
  have h2 : (op ++ dst ++ srcA ++ srcB ++ pred ++ BitVec.ofBool nwb).extractLsb' 11 7 = srcA := by
    rw [BitVec.extractLsb'_append_eq_of_le (by omega), BitVec.extractLsb'_append_eq_of_le (by omega), BitVec.extractLsb'_append_eq_of_le (by omega), BitVec.extractLsb'_append_eq_of_add_le (by omega)]
    exact BitVec.extractLsb'_eq_self
  have h3 : (op ++ dst ++ srcA ++ srcB ++ pred ++ BitVec.ofBool nwb).extractLsb' 4 7 = srcB := by
    rw [BitVec.extractLsb'_append_eq_of_le (by omega), BitVec.extractLsb'_append_eq_of_le (by omega), BitVec.extractLsb'_append_eq_of_add_le (by omega)]
    exact BitVec.extractLsb'_eq_self
  have h4 : (op ++ dst ++ srcA ++ srcB ++ pred ++ BitVec.ofBool nwb).extractLsb' 1 3 = pred := by
    rw [BitVec.extractLsb'_append_eq_of_le (by omega), BitVec.extractLsb'_append_eq_of_add_le (by omega)]
    exact BitVec.extractLsb'_eq_self
  have h5 : (op ++ dst ++ srcA ++ srcB ++ pred ++ BitVec.ofBool nwb).getLsbD 0 = nwb := by
    rw [BitVec.getLsbD_append]
    simp
  exact (show RG.ofWord ((op ++ dst ++ srcA ++ srcB ++ pred ++ BitVec.ofBool nwb : BitVec _)) = _ from by
    unfold RG.ofWord
    congr 1)

/-- The opcode of a RI word. -/
theorem RI.word_op (op : BitVec 8) (f : RI) : BitVec.extractLsb' 24 8 (f.word op) = op := by
  obtain ⟨dst, srcA, imm⟩ := f
  have h : (op ++ dst ++ srcA ++ imm).extractLsb' 24 8 = op := by
    rw [BitVec.extractLsb'_append_eq_of_le (by omega), BitVec.extractLsb'_append_eq_of_le (by omega), BitVec.extractLsb'_append_eq_of_le (by omega)]
    exact BitVec.extractLsb'_eq_self
  exact h

/-- Encoding keeps every field of a RI. -/
theorem RI.ofWord_word (op : BitVec 8) (f : RI) : RI.ofWord (f.word op) = f := by
  obtain ⟨dst, srcA, imm⟩ := f
  have h1 : (op ++ dst ++ srcA ++ imm).extractLsb' 18 6 = dst := by
    rw [BitVec.extractLsb'_append_eq_of_le (by omega), BitVec.extractLsb'_append_eq_of_le (by omega), BitVec.extractLsb'_append_eq_of_add_le (by omega)]
    exact BitVec.extractLsb'_eq_self
  have h2 : (op ++ dst ++ srcA ++ imm).extractLsb' 11 7 = srcA := by
    rw [BitVec.extractLsb'_append_eq_of_le (by omega), BitVec.extractLsb'_append_eq_of_add_le (by omega)]
    exact BitVec.extractLsb'_eq_self
  have h3 : (op ++ dst ++ srcA ++ imm).extractLsb' 0 11 = imm := by
    rw [BitVec.extractLsb'_append_eq_of_add_le (by omega)]
    exact BitVec.extractLsb'_eq_self
  exact (show RI.ofWord ((op ++ dst ++ srcA ++ imm : BitVec _)) = _ from by
    unfold RI.ofWord
    congr 1)

/-- The opcode of a I20 word. -/
theorem I20.word_op (op : BitVec 6) (f : I20) : BitVec.extractLsb' 26 6 (f.word op) = op := by
  obtain ⟨dst, imm⟩ := f
  have h : (op ++ dst ++ imm).extractLsb' 26 6 = op := by
    rw [BitVec.extractLsb'_append_eq_of_le (by omega), BitVec.extractLsb'_append_eq_of_le (by omega)]
    exact BitVec.extractLsb'_eq_self
  exact h

/-- Encoding keeps every field of a I20. -/
theorem I20.ofWord_word (op : BitVec 6) (f : I20) : I20.ofWord (f.word op) = f := by
  obtain ⟨dst, imm⟩ := f
  have h1 : (op ++ dst ++ imm).extractLsb' 20 6 = dst := by
    rw [BitVec.extractLsb'_append_eq_of_le (by omega), BitVec.extractLsb'_append_eq_of_add_le (by omega)]
    exact BitVec.extractLsb'_eq_self
  have h2 : (op ++ dst ++ imm).extractLsb' 0 20 = imm := by
    rw [BitVec.extractLsb'_append_eq_of_add_le (by omega)]
    exact BitVec.extractLsb'_eq_self
  exact (show I20.ofWord ((op ++ dst ++ imm : BitVec _)) = _ from by
    unfold I20.ofWord
    congr 1)

/-- The opcode of a Mem word. -/
theorem Mem.word_op (op : BitVec 8) (f : Mem) : BitVec.extractLsb' 24 8 (f.word op) = op := by
  obtain ⟨reg, base, mode, off, pred⟩ := f
  have h : (op ++ reg ++ base ++ mode ++ off ++ pred).extractLsb' 24 8 = op := by
    rw [BitVec.extractLsb'_append_eq_of_le (by omega), BitVec.extractLsb'_append_eq_of_le (by omega), BitVec.extractLsb'_append_eq_of_le (by omega), BitVec.extractLsb'_append_eq_of_le (by omega), BitVec.extractLsb'_append_eq_of_le (by omega)]
    exact BitVec.extractLsb'_eq_self
  exact h

/-- Encoding keeps every field of a Mem. -/
theorem Mem.ofWord_word (op : BitVec 8) (f : Mem) : Mem.ofWord (f.word op) = f := by
  obtain ⟨reg, base, mode, off, pred⟩ := f
  have h1 : (op ++ reg ++ base ++ mode ++ off ++ pred).extractLsb' 18 6 = reg := by
    rw [BitVec.extractLsb'_append_eq_of_le (by omega), BitVec.extractLsb'_append_eq_of_le (by omega), BitVec.extractLsb'_append_eq_of_le (by omega), BitVec.extractLsb'_append_eq_of_le (by omega), BitVec.extractLsb'_append_eq_of_add_le (by omega)]
    exact BitVec.extractLsb'_eq_self
  have h2 : (op ++ reg ++ base ++ mode ++ off ++ pred).extractLsb' 14 4 = base := by
    rw [BitVec.extractLsb'_append_eq_of_le (by omega), BitVec.extractLsb'_append_eq_of_le (by omega), BitVec.extractLsb'_append_eq_of_le (by omega), BitVec.extractLsb'_append_eq_of_add_le (by omega)]
    exact BitVec.extractLsb'_eq_self
  have h3 : (op ++ reg ++ base ++ mode ++ off ++ pred).extractLsb' 12 2 = mode := by
    rw [BitVec.extractLsb'_append_eq_of_le (by omega), BitVec.extractLsb'_append_eq_of_le (by omega), BitVec.extractLsb'_append_eq_of_add_le (by omega)]
    exact BitVec.extractLsb'_eq_self
  have h4 : (op ++ reg ++ base ++ mode ++ off ++ pred).extractLsb' 3 9 = off := by
    rw [BitVec.extractLsb'_append_eq_of_le (by omega), BitVec.extractLsb'_append_eq_of_add_le (by omega)]
    exact BitVec.extractLsb'_eq_self
  have h5 : (op ++ reg ++ base ++ mode ++ off ++ pred).extractLsb' 0 3 = pred := by
    rw [BitVec.extractLsb'_append_eq_of_add_le (by omega)]
    exact BitVec.extractLsb'_eq_self
  exact (show Mem.ofWord ((op ++ reg ++ base ++ mode ++ off ++ pred : BitVec _)) = _ from by
    unfold Mem.ofWord
    congr 1)

/-- The opcode of a Atomic word. -/
theorem Atomic.word_op (op : BitVec 8) (f : Atomic) : BitVec.extractLsb' 24 8 (f.word op) = op := by
  obtain ⟨dst, base, size, srcB, es, pred⟩ := f
  have h : (op ++ dst ++ base ++ size ++ srcB ++ es ++ pred).extractLsb' 24 8 = op := by
    rw [BitVec.extractLsb'_append_eq_of_le (by omega), BitVec.extractLsb'_append_eq_of_le (by omega), BitVec.extractLsb'_append_eq_of_le (by omega), BitVec.extractLsb'_append_eq_of_le (by omega), BitVec.extractLsb'_append_eq_of_le (by omega), BitVec.extractLsb'_append_eq_of_le (by omega)]
    exact BitVec.extractLsb'_eq_self
  exact h

/-- Encoding keeps every field of a Atomic. -/
theorem Atomic.ofWord_word (op : BitVec 8) (f : Atomic) : Atomic.ofWord (f.word op) = f := by
  obtain ⟨dst, base, size, srcB, es, pred⟩ := f
  have h1 : (op ++ dst ++ base ++ size ++ srcB ++ es ++ pred).extractLsb' 18 6 = dst := by
    rw [BitVec.extractLsb'_append_eq_of_le (by omega), BitVec.extractLsb'_append_eq_of_le (by omega), BitVec.extractLsb'_append_eq_of_le (by omega), BitVec.extractLsb'_append_eq_of_le (by omega), BitVec.extractLsb'_append_eq_of_le (by omega), BitVec.extractLsb'_append_eq_of_add_le (by omega)]
    exact BitVec.extractLsb'_eq_self
  have h2 : (op ++ dst ++ base ++ size ++ srcB ++ es ++ pred).extractLsb' 14 4 = base := by
    rw [BitVec.extractLsb'_append_eq_of_le (by omega), BitVec.extractLsb'_append_eq_of_le (by omega), BitVec.extractLsb'_append_eq_of_le (by omega), BitVec.extractLsb'_append_eq_of_le (by omega), BitVec.extractLsb'_append_eq_of_add_le (by omega)]
    exact BitVec.extractLsb'_eq_self
  have h3 : (op ++ dst ++ base ++ size ++ srcB ++ es ++ pred).extractLsb' 12 2 = size := by
    rw [BitVec.extractLsb'_append_eq_of_le (by omega), BitVec.extractLsb'_append_eq_of_le (by omega), BitVec.extractLsb'_append_eq_of_le (by omega), BitVec.extractLsb'_append_eq_of_add_le (by omega)]
    exact BitVec.extractLsb'_eq_self
  have h4 : (op ++ dst ++ base ++ size ++ srcB ++ es ++ pred).extractLsb' 5 7 = srcB := by
    rw [BitVec.extractLsb'_append_eq_of_le (by omega), BitVec.extractLsb'_append_eq_of_le (by omega), BitVec.extractLsb'_append_eq_of_add_le (by omega)]
    exact BitVec.extractLsb'_eq_self
  have h5 : (op ++ dst ++ base ++ size ++ srcB ++ es ++ pred).extractLsb' 3 2 = es := by
    rw [BitVec.extractLsb'_append_eq_of_le (by omega), BitVec.extractLsb'_append_eq_of_add_le (by omega)]
    exact BitVec.extractLsb'_eq_self
  have h6 : (op ++ dst ++ base ++ size ++ srcB ++ es ++ pred).extractLsb' 0 3 = pred := by
    rw [BitVec.extractLsb'_append_eq_of_add_le (by omega)]
    exact BitVec.extractLsb'_eq_self
  exact (show Atomic.ofWord ((op ++ dst ++ base ++ size ++ srcB ++ es ++ pred : BitVec _)) = _ from by
    unfold Atomic.ofWord
    congr 1)

/-- The opcode of a Remote word. -/
theorem Remote.word_op (op : BitVec 8) (f : Remote) : BitVec.extractLsb' 24 8 (f.word op) = op := by
  obtain ⟨data, place, mid, sig, chan, timed⟩ := f
  have h : (op ++ data ++ place ++ mid ++ BitVec.ofBool sig ++ chan ++ BitVec.ofBool timed).extractLsb' 24 8 = op := by
    rw [BitVec.extractLsb'_append_eq_of_le (by omega), BitVec.extractLsb'_append_eq_of_le (by omega), BitVec.extractLsb'_append_eq_of_le (by omega), BitVec.extractLsb'_append_eq_of_le (by omega), BitVec.extractLsb'_append_eq_of_le (by omega), BitVec.extractLsb'_append_eq_of_le (by omega)]
    exact BitVec.extractLsb'_eq_self
  exact h

/-- Encoding keeps every field of a Remote. -/
theorem Remote.ofWord_word (op : BitVec 8) (f : Remote) : Remote.ofWord (f.word op) = f := by
  obtain ⟨data, place, mid, sig, chan, timed⟩ := f
  have h1 : (op ++ data ++ place ++ mid ++ BitVec.ofBool sig ++ chan ++ BitVec.ofBool timed).extractLsb' 18 6 = data := by
    rw [BitVec.extractLsb'_append_eq_of_le (by omega), BitVec.extractLsb'_append_eq_of_le (by omega), BitVec.extractLsb'_append_eq_of_le (by omega), BitVec.extractLsb'_append_eq_of_le (by omega), BitVec.extractLsb'_append_eq_of_le (by omega), BitVec.extractLsb'_append_eq_of_add_le (by omega)]
    exact BitVec.extractLsb'_eq_self
  have h2 : (op ++ data ++ place ++ mid ++ BitVec.ofBool sig ++ chan ++ BitVec.ofBool timed).extractLsb' 12 6 = place := by
    rw [BitVec.extractLsb'_append_eq_of_le (by omega), BitVec.extractLsb'_append_eq_of_le (by omega), BitVec.extractLsb'_append_eq_of_le (by omega), BitVec.extractLsb'_append_eq_of_le (by omega), BitVec.extractLsb'_append_eq_of_add_le (by omega)]
    exact BitVec.extractLsb'_eq_self
  have h3 : (op ++ data ++ place ++ mid ++ BitVec.ofBool sig ++ chan ++ BitVec.ofBool timed).extractLsb' 4 8 = mid := by
    rw [BitVec.extractLsb'_append_eq_of_le (by omega), BitVec.extractLsb'_append_eq_of_le (by omega), BitVec.extractLsb'_append_eq_of_le (by omega), BitVec.extractLsb'_append_eq_of_add_le (by omega)]
    exact BitVec.extractLsb'_eq_self
  have h4 : (op ++ data ++ place ++ mid ++ BitVec.ofBool sig ++ chan ++ BitVec.ofBool timed).getLsbD 3 = sig := by
    rw [BitVec.getLsbD_append, BitVec.getLsbD_append, BitVec.getLsbD_append]
    simp
  have h5 : (op ++ data ++ place ++ mid ++ BitVec.ofBool sig ++ chan ++ BitVec.ofBool timed).extractLsb' 1 2 = chan := by
    rw [BitVec.extractLsb'_append_eq_of_le (by omega), BitVec.extractLsb'_append_eq_of_add_le (by omega)]
    exact BitVec.extractLsb'_eq_self
  have h6 : (op ++ data ++ place ++ mid ++ BitVec.ofBool sig ++ chan ++ BitVec.ofBool timed).getLsbD 0 = timed := by
    rw [BitVec.getLsbD_append]
    simp
  exact (show Remote.ofWord ((op ++ data ++ place ++ mid ++ BitVec.ofBool sig ++ chan ++ BitVec.ofBool timed : BitVec _)) = _ from by
    unfold Remote.ofWord
    congr 1)

/-- The opcode of a Sync word. -/
theorem Sync.word_op (op : BitVec 8) (f : Sync) : BitVec.extractLsb' 24 8 (f.word op) = op := by
  obtain ⟨dst, srcA, obj, scope⟩ := f
  have h : (op ++ dst ++ srcA ++ obj ++ scope).extractLsb' 24 8 = op := by
    rw [BitVec.extractLsb'_append_eq_of_le (by omega), BitVec.extractLsb'_append_eq_of_le (by omega), BitVec.extractLsb'_append_eq_of_le (by omega), BitVec.extractLsb'_append_eq_of_le (by omega)]
    exact BitVec.extractLsb'_eq_self
  exact h

/-- Encoding keeps every field of a Sync. -/
theorem Sync.ofWord_word (op : BitVec 8) (f : Sync) : Sync.ofWord (f.word op) = f := by
  obtain ⟨dst, srcA, obj, scope⟩ := f
  have h1 : (op ++ dst ++ srcA ++ obj ++ scope).extractLsb' 18 6 = dst := by
    rw [BitVec.extractLsb'_append_eq_of_le (by omega), BitVec.extractLsb'_append_eq_of_le (by omega), BitVec.extractLsb'_append_eq_of_le (by omega), BitVec.extractLsb'_append_eq_of_add_le (by omega)]
    exact BitVec.extractLsb'_eq_self
  have h2 : (op ++ dst ++ srcA ++ obj ++ scope).extractLsb' 11 7 = srcA := by
    rw [BitVec.extractLsb'_append_eq_of_le (by omega), BitVec.extractLsb'_append_eq_of_le (by omega), BitVec.extractLsb'_append_eq_of_add_le (by omega)]
    exact BitVec.extractLsb'_eq_self
  have h3 : (op ++ dst ++ srcA ++ obj ++ scope).extractLsb' 3 8 = obj := by
    rw [BitVec.extractLsb'_append_eq_of_le (by omega), BitVec.extractLsb'_append_eq_of_add_le (by omega)]
    exact BitVec.extractLsb'_eq_self
  have h4 : (op ++ dst ++ srcA ++ obj ++ scope).extractLsb' 0 3 = scope := by
    rw [BitVec.extractLsb'_append_eq_of_add_le (by omega)]
    exact BitVec.extractLsb'_eq_self
  exact (show Sync.ofWord ((op ++ dst ++ srcA ++ obj ++ scope : BitVec _)) = _ from by
    unfold Sync.ofWord
    congr 1)

/-- The opcode of a Beat word. -/
theorem Beat.word_op (op : BitVec 8) (f : Beat) : BitVec.extractLsb' 24 8 (f.word op) = op := by
  obtain ⟨srcA, srcB, row, plane, flags⟩ := f
  have h : (op ++ srcA ++ srcB ++ row ++ BitVec.ofBool plane ++ flags).extractLsb' 24 8 = op := by
    rw [BitVec.extractLsb'_append_eq_of_le (by omega), BitVec.extractLsb'_append_eq_of_le (by omega), BitVec.extractLsb'_append_eq_of_le (by omega), BitVec.extractLsb'_append_eq_of_le (by omega), BitVec.extractLsb'_append_eq_of_le (by omega)]
    exact BitVec.extractLsb'_eq_self
  exact h

/-- Encoding keeps every field of a Beat. -/
theorem Beat.ofWord_word (op : BitVec 8) (f : Beat) : Beat.ofWord (f.word op) = f := by
  obtain ⟨srcA, srcB, row, plane, flags⟩ := f
  have h1 : (op ++ srcA ++ srcB ++ row ++ BitVec.ofBool plane ++ flags).extractLsb' 17 7 = srcA := by
    rw [BitVec.extractLsb'_append_eq_of_le (by omega), BitVec.extractLsb'_append_eq_of_le (by omega), BitVec.extractLsb'_append_eq_of_le (by omega), BitVec.extractLsb'_append_eq_of_le (by omega), BitVec.extractLsb'_append_eq_of_add_le (by omega)]
    exact BitVec.extractLsb'_eq_self
  have h2 : (op ++ srcA ++ srcB ++ row ++ BitVec.ofBool plane ++ flags).extractLsb' 10 7 = srcB := by
    rw [BitVec.extractLsb'_append_eq_of_le (by omega), BitVec.extractLsb'_append_eq_of_le (by omega), BitVec.extractLsb'_append_eq_of_le (by omega), BitVec.extractLsb'_append_eq_of_add_le (by omega)]
    exact BitVec.extractLsb'_eq_self
  have h3 : (op ++ srcA ++ srcB ++ row ++ BitVec.ofBool plane ++ flags).extractLsb' 6 4 = row := by
    rw [BitVec.extractLsb'_append_eq_of_le (by omega), BitVec.extractLsb'_append_eq_of_le (by omega), BitVec.extractLsb'_append_eq_of_add_le (by omega)]
    exact BitVec.extractLsb'_eq_self
  have h4 : (op ++ srcA ++ srcB ++ row ++ BitVec.ofBool plane ++ flags).getLsbD 5 = plane := by
    rw [BitVec.getLsbD_append, BitVec.getLsbD_append]
    simp
  have h5 : (op ++ srcA ++ srcB ++ row ++ BitVec.ofBool plane ++ flags).extractLsb' 0 5 = flags := by
    rw [BitVec.extractLsb'_append_eq_of_add_le (by omega)]
    exact BitVec.extractLsb'_eq_self
  exact (show Beat.ofWord ((op ++ srcA ++ srcB ++ row ++ BitVec.ofBool plane ++ flags : BitVec _)) = _ from by
    unfold Beat.ofWord
    congr 1)

/-- The opcode of a Copy word. -/
theorem Copy.word_op (op : BitVec 8) (f : Copy) : BitVec.extractLsb' 24 8 (f.word op) = op := by
  obtain ⟨reg, srcB, bnd, pred⟩ := f
  have h : (op ++ reg ++ srcB ++ bnd ++ pred).extractLsb' 24 8 = op := by
    rw [BitVec.extractLsb'_append_eq_of_le (by omega), BitVec.extractLsb'_append_eq_of_le (by omega), BitVec.extractLsb'_append_eq_of_le (by omega), BitVec.extractLsb'_append_eq_of_le (by omega)]
    exact BitVec.extractLsb'_eq_self
  exact h

/-- Encoding keeps every field of a Copy. -/
theorem Copy.ofWord_word (op : BitVec 8) (f : Copy) : Copy.ofWord (f.word op) = f := by
  obtain ⟨reg, srcB, bnd, pred⟩ := f
  have h1 : (op ++ reg ++ srcB ++ bnd ++ pred).extractLsb' 18 6 = reg := by
    rw [BitVec.extractLsb'_append_eq_of_le (by omega), BitVec.extractLsb'_append_eq_of_le (by omega), BitVec.extractLsb'_append_eq_of_le (by omega), BitVec.extractLsb'_append_eq_of_add_le (by omega)]
    exact BitVec.extractLsb'_eq_self
  have h2 : (op ++ reg ++ srcB ++ bnd ++ pred).extractLsb' 11 7 = srcB := by
    rw [BitVec.extractLsb'_append_eq_of_le (by omega), BitVec.extractLsb'_append_eq_of_le (by omega), BitVec.extractLsb'_append_eq_of_add_le (by omega)]
    exact BitVec.extractLsb'_eq_self
  have h3 : (op ++ reg ++ srcB ++ bnd ++ pred).extractLsb' 3 8 = bnd := by
    rw [BitVec.extractLsb'_append_eq_of_le (by omega), BitVec.extractLsb'_append_eq_of_add_le (by omega)]
    exact BitVec.extractLsb'_eq_self
  have h4 : (op ++ reg ++ srcB ++ bnd ++ pred).extractLsb' 0 3 = pred := by
    rw [BitVec.extractLsb'_append_eq_of_add_le (by omega)]
    exact BitVec.extractLsb'_eq_self
  exact (show Copy.ofWord ((op ++ reg ++ srcB ++ bnd ++ pred : BitVec _)) = _ from by
    unfold Copy.ofWord
    congr 1)

/-- The byte that holds an I20 opcode also holds the two high bits of dst (R86). -/
theorem I20.word_byte (op : BitVec 6) (f : I20) :
    BitVec.extractLsb' 24 8 (f.word op) = op ++ f.dst.extractLsb' 4 2 := by
  obtain ⟨dst, imm⟩ := f
  have h : (op ++ dst ++ imm).extractLsb' 24 8 = op ++ dst.extractLsb' 4 2 := by
    apply BitVec.eq_of_getLsbD_eq
    intro i hi
    simp only [BitVec.getLsbD_extractLsb', BitVec.getLsbD_append]
    have b : ¬ (24 + i < 20) := by omega
    by_cases h2 : i < 2
    · have c : 24 + i - 20 < 6 := by omega
      have d : 24 + i - 20 = 4 + i := by omega
      have e : 4 + i < 6 := by omega
      simp [h2, hi, b, d, e]
    · have c : ¬ (24 + i - 20 < 6) := by omega
      have d : 24 + i - 20 - 6 = i - 2 := by omega
      simp [h2, hi, b, c, d]
  exact h

/-- The two high bits of a 6-bit number take four values. -/
theorem two_bits (x : BitVec 2) : x = 0#2 ∨ x = 1#2 ∨ x = 2#2 ∨ x = 3#2 := by
  revert x; decide

/-- Outside K: a nonzero opcode whose map entry is a well-formed instruction decodes to it. -/
theorem decodeSlot_of_map {s : Slot} (hs : s ≠ .K) {w : W32} {op : BitVec 8} (hw : w.extractLsb' 24 8 = op)
    (h0 : op ≠ 0#8) {i : Instr} (hm : slotMap s op.toNat w = some i) (hl : i.legal = true) :
    decodeSlot s w = .ok i := by
  have hn : isNopWord s w = false := by
    cases s <;> first | exact absurd rfl hs | skip
    all_goals
      show (w == 0) = false
      refine beq_eq_false_iff_ne.mpr fun h => h0 ?_
      rw [← hw, h]; decide
  have ho : slotOpcode s w = op.toNat := by
    cases s <;> first | exact absurd rfl hs | exact congrArg BitVec.toNat hw
  have hr : slotReserved s w = 0#32 := by cases s <;> first | exact absurd rfl hs | rfl
  simp [decodeSlot, hn, ho, hm, hr, hl]

/-- In K: a nonzero opcode whose map entry is a well-formed instruction, with its reserved bits zero, decodes to it. -/
theorem decodeSlot_kWord {l : Bool} {op : BitVec 7} {rest : BitVec 24} (h0 : op ≠ 0#7) {i : Instr}
    (hm : kMap op.toNat (kWord l op rest) = some i) (m : BitVec 24) (hk : kReserved op.toNat = 0#8 ++ m)
    (hr : rest &&& m = 0#24) (hl : i.legal = true) : decodeSlot .K (kWord l op rest) = .ok i := by
  have hw : (kWord l op rest).extractLsb' 24 7 = op := by
    have h : (BitVec.ofBool l ++ op ++ rest).extractLsb' 24 7 = op := by
      rw [BitVec.extractLsb'_append_eq_of_le (by omega), BitVec.extractLsb'_append_eq_of_add_le (by omega)]
      exact BitVec.extractLsb'_eq_self
    exact h
  have hn : isNopWord .K (kWord l op rest) = false := by
    show ((kWord l op rest).extractLsb' 0 31 == 0) = false
    refine beq_eq_false_iff_ne.mpr fun h => h0 ?_
    have e : ((kWord l op rest).extractLsb' 0 31).extractLsb' 24 7 = (kWord l op rest).extractLsb' 24 7 := by
      ext i hi
      simp
    rw [← hw, ← e, h]; decide
  have ho : slotOpcode .K (kWord l op rest) = op.toNat := congrArg BitVec.toNat hw
  have hres : kWord l op rest &&& slotReserved .K (kWord l op rest) = 0#32 := by
    show kWord l op rest &&& kReserved (slotOpcode .K (kWord l op rest)) = 0#32
    rw [ho, hk]
    have h : (BitVec.ofBool l ++ op ++ rest) &&& ((0#1 ++ 0#7) ++ m) = (0#1 ++ 0#7) ++ 0#24 := by
      rw [BitVec.and_append, BitVec.and_append, hr]
      simp
    exact h
  have hm' : slotMap .K op.toNat (kWord l op rest) = some i := hm
  simp [decodeSlot, hn, ho, hm', hres, hl]

/-- Bit 31 of a K syllable is LIT (R81). -/
theorem kWord_lit (l : Bool) (op : BitVec 7) (rest : BitVec 24) : (kWord l op rest).getLsbD 31 = l := by
  have h : (BitVec.ofBool l ++ op ++ rest).getLsbD 31 = l := by
    rw [BitVec.getLsbD_append, BitVec.getLsbD_append]
    simp
  exact h

/-- A field below bit 24 of a K syllable. -/
theorem kWord_field (l : Bool) (op : BitVec 7) (rest : BitVec 24) (lo n : Nat) (h : lo + n ≤ 24) :
    (kWord l op rest).extractLsb' lo n = rest.extractLsb' lo n := by
  have h : (BitVec.ofBool l ++ op ++ rest).extractLsb' lo n = rest.extractLsb' lo n := by
    rw [BitVec.extractLsb'_append_eq_of_add_le h]
  exact h

namespace Laws

/-- What the family says of an instruction: its well-formed encoding decodes, in its slot, to it. -/
def RoundTrip.Statement (i : Instr) : Prop :=
  match i.home with
  | none => True
  | some s => i.legal = true → decodeSlot s i.encode = .ok i

theorem RoundTrip.nop (l : Bool) : RoundTrip.Statement (.nop l) := by
  show (Instr.nop l).legal = true → decodeSlot .K (Instr.nop l).encode = .ok (.nop l)
  cases l <;> exact fun _ => rfl

theorem RoundTrip.br (l : Bool) (d : BitVec 24) : RoundTrip.Statement (.br l d) := fun hl => by
  refine decodeSlot_kWord (op := 0x1#7) (rest := d.setWidth 24) (by decide) ?_ 0#24 (by decide) ?_ hl
  · have h_d : (kWord l 0x1#7 (d.setWidth 24)).extractLsb' 0 24 = d := by
      rw [kWord_field _ _ _ _ _ (by decide), BitVec.setWidth_eq]; exact BitVec.extractLsb'_eq_self
    show some (Instr.br ((kWord l 0x1#7 (d.setWidth 24)).getLsbD 31) ((kWord l 0x1#7 (d.setWidth 24)).extractLsb' 0 24)) = _
    rw [kWord_lit, h_d]
  · exact BitVec.and_zero

theorem RoundTrip.brz (l : Bool) (s : BitVec 7) (d : BitVec 17) : RoundTrip.Statement (.brz l s d) := fun hl => by
  refine decodeSlot_kWord (op := 0x2#7) (rest := (s ++ d)) (by decide) ?_ 0#24 (by decide) ?_ hl
  · have h_s : (kWord l 0x2#7 (s ++ d)).extractLsb' 17 7 = s := by
      refine (kWord_field _ _ _ _ _ (by decide)).trans ?_
      rw [BitVec.extractLsb'_append_eq_of_le (by omega)]
      exact BitVec.extractLsb'_eq_self
    have h_d : (kWord l 0x2#7 (s ++ d)).extractLsb' 0 17 = d := by
      refine (kWord_field _ _ _ _ _ (by decide)).trans ?_
      rw [BitVec.extractLsb'_append_eq_of_add_le (by omega)]
      exact BitVec.extractLsb'_eq_self
    show some (Instr.brz ((kWord l 0x2#7 (s ++ d)).getLsbD 31) ((kWord l 0x2#7 (s ++ d)).extractLsb' 17 7) ((kWord l 0x2#7 (s ++ d)).extractLsb' 0 17)) = _
    rw [kWord_lit, h_s, h_d]
  · exact BitVec.and_zero

theorem RoundTrip.brnz (l : Bool) (s : BitVec 7) (d : BitVec 17) : RoundTrip.Statement (.brnz l s d) := fun hl => by
  refine decodeSlot_kWord (op := 0x3#7) (rest := (s ++ d)) (by decide) ?_ 0#24 (by decide) ?_ hl
  · have h_s : (kWord l 0x3#7 (s ++ d)).extractLsb' 17 7 = s := by
      refine (kWord_field _ _ _ _ _ (by decide)).trans ?_
      rw [BitVec.extractLsb'_append_eq_of_le (by omega)]
      exact BitVec.extractLsb'_eq_self
    have h_d : (kWord l 0x3#7 (s ++ d)).extractLsb' 0 17 = d := by
      refine (kWord_field _ _ _ _ _ (by decide)).trans ?_
      rw [BitVec.extractLsb'_append_eq_of_add_le (by omega)]
      exact BitVec.extractLsb'_eq_self
    show some (Instr.brnz ((kWord l 0x3#7 (s ++ d)).getLsbD 31) ((kWord l 0x3#7 (s ++ d)).extractLsb' 17 7) ((kWord l 0x3#7 (s ++ d)).extractLsb' 0 17)) = _
    rw [kWord_lit, h_s, h_d]
  · exact BitVec.and_zero

theorem RoundTrip.jmp (l : Bool) (s : BitVec 7) : RoundTrip.Statement (.jmp l s) := fun hl => by
  refine decodeSlot_kWord (op := 0x4#7) (rest := (s ++ 0#17)) (by decide) ?_ 0x1ffff#24 (by decide) ?_ hl
  · have h_s : (kWord l 0x4#7 (s ++ 0#17)).extractLsb' 17 7 = s := by
      refine (kWord_field _ _ _ _ _ (by decide)).trans ?_
      rw [BitVec.extractLsb'_append_eq_of_le (by omega)]
      exact BitVec.extractLsb'_eq_self
    show some (Instr.jmp ((kWord l 0x4#7 (s ++ 0#17)).getLsbD 31) ((kWord l 0x4#7 (s ++ 0#17)).extractLsb' 17 7)) = _
    rw [kWord_lit, h_s]
  · have h : (s ++ 0#17) &&& (0#7 ++ 131071#17) = 0#7 ++ 0#17 := by
      rw [BitVec.and_append]; simp
    exact h

theorem RoundTrip.call (l : Bool) (d : BitVec 24) : RoundTrip.Statement (.call l d) := fun hl => by
  refine decodeSlot_kWord (op := 0x5#7) (rest := d.setWidth 24) (by decide) ?_ 0#24 (by decide) ?_ hl
  · have h_d : (kWord l 0x5#7 (d.setWidth 24)).extractLsb' 0 24 = d := by
      rw [kWord_field _ _ _ _ _ (by decide), BitVec.setWidth_eq]; exact BitVec.extractLsb'_eq_self
    show some (Instr.call ((kWord l 0x5#7 (d.setWidth 24)).getLsbD 31) ((kWord l 0x5#7 (d.setWidth 24)).extractLsb' 0 24)) = _
    rw [kWord_lit, h_d]
  · exact BitVec.and_zero

theorem RoundTrip.callr (l : Bool) (s : BitVec 7) : RoundTrip.Statement (.callr l s) := fun hl => by
  refine decodeSlot_kWord (op := 0x6#7) (rest := (s ++ 0#17)) (by decide) ?_ 0x1ffff#24 (by decide) ?_ hl
  · have h_s : (kWord l 0x6#7 (s ++ 0#17)).extractLsb' 17 7 = s := by
      refine (kWord_field _ _ _ _ _ (by decide)).trans ?_
      rw [BitVec.extractLsb'_append_eq_of_le (by omega)]
      exact BitVec.extractLsb'_eq_self
    show some (Instr.callr ((kWord l 0x6#7 (s ++ 0#17)).getLsbD 31) ((kWord l 0x6#7 (s ++ 0#17)).extractLsb' 17 7)) = _
    rw [kWord_lit, h_s]
  · have h : (s ++ 0#17) &&& (0#7 ++ 131071#17) = 0#7 ++ 0#17 := by
      rw [BitVec.and_append]; simp
    exact h

theorem RoundTrip.ret (l : Bool) : RoundTrip.Statement (.ret l) := fun hl => by
  refine decodeSlot_kWord (op := 0x7#7) (rest := (0#24)) (by decide) ?_ 0xffffff#24 (by decide) ?_ hl
  · show some (Instr.ret ((kWord l 0x7#7 (0#24)).getLsbD 31)) = _
    rw [kWord_lit]
  · decide

theorem RoundTrip.loop (l : Bool) (s : BitVec 7) (n : BitVec 11) : RoundTrip.Statement (.loop l s n) := fun hl => by
  refine decodeSlot_kWord (op := 0x8#7) (rest := (s ++ n ++ 0#6)) (by decide) ?_ 0x3f#24 (by decide) ?_ hl
  · have h_s : (kWord l 0x8#7 (s ++ n ++ 0#6)).extractLsb' 17 7 = s := by
      refine (kWord_field _ _ _ _ _ (by decide)).trans ?_
      rw [BitVec.extractLsb'_append_eq_of_le (by omega), BitVec.extractLsb'_append_eq_of_le (by omega)]
      exact BitVec.extractLsb'_eq_self
    have h_n : (kWord l 0x8#7 (s ++ n ++ 0#6)).extractLsb' 6 11 = n := by
      refine (kWord_field _ _ _ _ _ (by decide)).trans ?_
      rw [BitVec.extractLsb'_append_eq_of_le (by omega), BitVec.extractLsb'_append_eq_of_add_le (by omega)]
      exact BitVec.extractLsb'_eq_self
    show some (Instr.loop ((kWord l 0x8#7 (s ++ n ++ 0#6)).getLsbD 31) ((kWord l 0x8#7 (s ++ n ++ 0#6)).extractLsb' 17 7) ((kWord l 0x8#7 (s ++ n ++ 0#6)).extractLsb' 6 11)) = _
    rw [kWord_lit, h_s, h_n]
  · have h : (s ++ n ++ 0#6) &&& (0#7 ++ 0#11 ++ 63#6) = 0#7 ++ 0#11 ++ 0#6 := by
      rw [BitVec.and_append, BitVec.and_append]; simp
    exact h

theorem RoundTrip.loopm (l : Bool) (s : BitVec 7) (ii : BitVec 5) (g : BitVec 3) : RoundTrip.Statement (.loopm l s ii g) := fun hl => by
  refine decodeSlot_kWord (op := 0x9#7) (rest := (s ++ ii ++ g ++ 0#9)) (by decide) ?_ 0x1ff#24 (by decide) ?_ hl
  · have h_s : (kWord l 0x9#7 (s ++ ii ++ g ++ 0#9)).extractLsb' 17 7 = s := by
      refine (kWord_field _ _ _ _ _ (by decide)).trans ?_
      rw [BitVec.extractLsb'_append_eq_of_le (by omega), BitVec.extractLsb'_append_eq_of_le (by omega), BitVec.extractLsb'_append_eq_of_le (by omega)]
      exact BitVec.extractLsb'_eq_self
    have h_ii : (kWord l 0x9#7 (s ++ ii ++ g ++ 0#9)).extractLsb' 12 5 = ii := by
      refine (kWord_field _ _ _ _ _ (by decide)).trans ?_
      rw [BitVec.extractLsb'_append_eq_of_le (by omega), BitVec.extractLsb'_append_eq_of_le (by omega), BitVec.extractLsb'_append_eq_of_add_le (by omega)]
      exact BitVec.extractLsb'_eq_self
    have h_g : (kWord l 0x9#7 (s ++ ii ++ g ++ 0#9)).extractLsb' 9 3 = g := by
      refine (kWord_field _ _ _ _ _ (by decide)).trans ?_
      rw [BitVec.extractLsb'_append_eq_of_le (by omega), BitVec.extractLsb'_append_eq_of_add_le (by omega)]
      exact BitVec.extractLsb'_eq_self
    show some (Instr.loopm ((kWord l 0x9#7 (s ++ ii ++ g ++ 0#9)).getLsbD 31) ((kWord l 0x9#7 (s ++ ii ++ g ++ 0#9)).extractLsb' 17 7) ((kWord l 0x9#7 (s ++ ii ++ g ++ 0#9)).extractLsb' 12 5) ((kWord l 0x9#7 (s ++ ii ++ g ++ 0#9)).extractLsb' 9 3)) = _
    rw [kWord_lit, h_s, h_ii, h_g]
  · have h : (s ++ ii ++ g ++ 0#9) &&& (0#7 ++ 0#5 ++ 0#3 ++ 511#9) = 0#7 ++ 0#5 ++ 0#3 ++ 0#9 := by
      rw [BitVec.and_append, BitVec.and_append, BitVec.and_append]; simp
    exact h

theorem RoundTrip.brk (l : Bool) (s : BitVec 7) (n : BitVec 3) : RoundTrip.Statement (.brk l s n) := fun hl => by
  refine decodeSlot_kWord (op := 0xa#7) (rest := (s ++ 0#14 ++ n)) (by decide) ?_ 0x1fff8#24 (by decide) ?_ hl
  · have h_s : (kWord l 0xa#7 (s ++ 0#14 ++ n)).extractLsb' 17 7 = s := by
      refine (kWord_field _ _ _ _ _ (by decide)).trans ?_
      rw [BitVec.extractLsb'_append_eq_of_le (by omega), BitVec.extractLsb'_append_eq_of_le (by omega)]
      exact BitVec.extractLsb'_eq_self
    have h_n : (kWord l 0xa#7 (s ++ 0#14 ++ n)).extractLsb' 0 3 = n := by
      refine (kWord_field _ _ _ _ _ (by decide)).trans ?_
      rw [BitVec.extractLsb'_append_eq_of_add_le (by omega)]
      exact BitVec.extractLsb'_eq_self
    show some (Instr.brk ((kWord l 0xa#7 (s ++ 0#14 ++ n)).getLsbD 31) ((kWord l 0xa#7 (s ++ 0#14 ++ n)).extractLsb' 17 7) ((kWord l 0xa#7 (s ++ 0#14 ++ n)).extractLsb' 0 3)) = _
    rw [kWord_lit, h_s, h_n]
  · have h : (s ++ 0#14 ++ n) &&& (0#7 ++ 16383#14 ++ 0#3) = 0#7 ++ 0#14 ++ 0#3 := by
      rw [BitVec.and_append, BitVec.and_append]; simp
    exact h

theorem RoundTrip.yield (l : Bool) : RoundTrip.Statement (.yield l) := fun hl => by
  refine decodeSlot_kWord (op := 0xb#7) (rest := (0#24)) (by decide) ?_ 0xffffff#24 (by decide) ?_ hl
  · show some (Instr.yield ((kWord l 0xb#7 (0#24)).getLsbD 31)) = _
    rw [kWord_lit]
  · decide

theorem RoundTrip.tend (l : Bool) : RoundTrip.Statement (.tend l) := fun hl => by
  refine decodeSlot_kWord (op := 0xc#7) (rest := (0#24)) (by decide) ?_ 0xffffff#24 (by decide) ?_ hl
  · show some (Instr.tend ((kWord l 0xc#7 (0#24)).getLsbD 31)) = _
    rw [kWord_lit]
  · decide

theorem RoundTrip.trap (l : Bool) (imm : BitVec 16) : RoundTrip.Statement (.trap l imm) := fun hl => by
  refine decodeSlot_kWord (op := 0xd#7) (rest := (0#8 ++ imm)) (by decide) ?_ 0xff0000#24 (by decide) ?_ hl
  · have h_imm : (kWord l 0xd#7 (0#8 ++ imm)).extractLsb' 0 16 = imm := by
      refine (kWord_field _ _ _ _ _ (by decide)).trans ?_
      rw [BitVec.extractLsb'_append_eq_of_add_le (by omega)]
      exact BitVec.extractLsb'_eq_self
    show some (Instr.trap ((kWord l 0xd#7 (0#8 ++ imm)).getLsbD 31) ((kWord l 0xd#7 (0#8 ++ imm)).extractLsb' 0 16)) = _
    rw [kWord_lit, h_imm]
  · have h : (0#8 ++ imm) &&& (255#8 ++ 0#16) = 0#8 ++ 0#16 := by
      rw [BitVec.and_append]; simp
    exact h

theorem RoundTrip.eret (l : Bool) : RoundTrip.Statement (.eret l) := fun hl => by
  refine decodeSlot_kWord (op := 0xe#7) (rest := (0#24)) (by decide) ?_ 0xffffff#24 (by decide) ?_ hl
  · show some (Instr.eret ((kWord l 0xe#7 (0#24)).getLsbD 31)) = _
    rw [kWord_lit]
  · decide

theorem RoundTrip.ifence (l : Bool) : RoundTrip.Statement (.ifence l) := fun hl => by
  refine decodeSlot_kWord (op := 0xf#7) (rest := (0#24)) (by decide) ?_ 0xffffff#24 (by decide) ?_ hl
  · show some (Instr.ifence ((kWord l 0xf#7 (0#24)).getLsbD 31)) = _
    rw [kWord_lit]
  · decide

theorem RoundTrip.rrbset (l : Bool) (n : BitVec 4) : RoundTrip.Statement (.rrbset l n) := fun hl => by
  refine decodeSlot_kWord (op := 0x10#7) (rest := (0#20 ++ n)) (by decide) ?_ 0xfffff0#24 (by decide) ?_ hl
  · have h_n : (kWord l 0x10#7 (0#20 ++ n)).extractLsb' 0 4 = n := by
      refine (kWord_field _ _ _ _ _ (by decide)).trans ?_
      rw [BitVec.extractLsb'_append_eq_of_add_le (by omega)]
      exact BitVec.extractLsb'_eq_self
    show some (Instr.rrbset ((kWord l 0x10#7 (0#20 ++ n)).getLsbD 31) ((kWord l 0x10#7 (0#20 ++ n)).extractLsb' 0 4)) = _
    rw [kWord_lit, h_n]
  · have h : (0#20 ++ n) &&& (1048575#20 ++ 0#4) = 0#20 ++ 0#4 := by
      rw [BitVec.and_append]; simp
    exact h

theorem RoundTrip.nopre (l : Bool) : RoundTrip.Statement (.nopre l) := fun hl => by
  refine decodeSlot_kWord (op := 0x11#7) (rest := (0#24)) (by decide) ?_ 0xffffff#24 (by decide) ?_ hl
  · show some (Instr.nopre ((kWord l 0x11#7 (0#24)).getLsbD 31)) = _
    rw [kWord_lit]
  · decide

theorem RoundTrip.nopreend (l : Bool) : RoundTrip.Statement (.nopreend l) := fun hl => by
  refine decodeSlot_kWord (op := 0x12#7) (rest := (0#24)) (by decide) ?_ 0xffffff#24 (by decide) ?_ hl
  · show some (Instr.nopreend ((kWord l 0x12#7 (0#24)).getLsbD 31)) = _
    rw [kWord_lit]
  · decide

theorem RoundTrip.waitc (l : Bool) (s : BitVec 7) : RoundTrip.Statement (.waitc l s) := fun hl => by
  refine decodeSlot_kWord (op := 0x13#7) (rest := (s ++ 0#17)) (by decide) ?_ 0x1ffff#24 (by decide) ?_ hl
  · have h_s : (kWord l 0x13#7 (s ++ 0#17)).extractLsb' 17 7 = s := by
      refine (kWord_field _ _ _ _ _ (by decide)).trans ?_
      rw [BitVec.extractLsb'_append_eq_of_le (by omega)]
      exact BitVec.extractLsb'_eq_self
    show some (Instr.waitc ((kWord l 0x13#7 (s ++ 0#17)).getLsbD 31) ((kWord l 0x13#7 (s ++ 0#17)).extractLsb' 17 7)) = _
    rw [kWord_lit, h_s]
  · have h : (s ++ 0#17) &&& (0#7 ++ 131071#17) = 0#7 ++ 0#17 := by
      rw [BitVec.and_append]; simp
    exact h

theorem RoundTrip.halt (l : Bool) : RoundTrip.Statement (.halt l) := fun hl => by
  refine decodeSlot_kWord (op := 0x14#7) (rest := (0#24)) (by decide) ?_ 0xffffff#24 (by decide) ?_ hl
  · show some (Instr.halt ((kWord l 0x14#7 (0#24)).getLsbD 31)) = _
    rw [kWord_lit]
  · decide

theorem RoundTrip.stg (l : Bool) (m : BitVec 21) : RoundTrip.Statement (.stg l m) := fun hl => by
  refine decodeSlot_kWord (op := 0x15#7) (rest := (0#3 ++ m)) (by decide) ?_ 0xe00000#24 (by decide) ?_ hl
  · have h_m : (kWord l 0x15#7 (0#3 ++ m)).extractLsb' 0 21 = m := by
      refine (kWord_field _ _ _ _ _ (by decide)).trans ?_
      rw [BitVec.extractLsb'_append_eq_of_add_le (by omega)]
      exact BitVec.extractLsb'_eq_self
    show some (Instr.stg ((kWord l 0x15#7 (0#3 ++ m)).getLsbD 31) ((kWord l 0x15#7 (0#3 ++ m)).extractLsb' 0 21)) = _
    rw [kWord_lit, h_m]
  · have h : (0#3 ++ m) &&& (7#3 ++ 0#21) = 0#3 ++ 0#21 := by
      rw [BitVec.and_append]; simp
    exact h

theorem RoundTrip.add (f : RG) : RoundTrip.Statement (.add f) := fun hl =>
  decodeSlot_of_map (by decide) (RG.word_op 0x1 f) (by decide)
    (congrArg (fun g => some (Instr.add g)) (RG.ofWord_word 0x1 f)) hl

theorem RoundTrip.sub (f : RG) : RoundTrip.Statement (.sub f) := fun hl =>
  decodeSlot_of_map (by decide) (RG.word_op 0x2 f) (by decide)
    (congrArg (fun g => some (Instr.sub g)) (RG.ofWord_word 0x2 f)) hl

theorem RoundTrip.mul (f : RG) : RoundTrip.Statement (.mul f) := fun hl =>
  decodeSlot_of_map (by decide) (RG.word_op 0x3 f) (by decide)
    (congrArg (fun g => some (Instr.mul g)) (RG.ofWord_word 0x3 f)) hl

theorem RoundTrip.mulh (f : RG) : RoundTrip.Statement (.mulh f) := fun hl =>
  decodeSlot_of_map (by decide) (RG.word_op 0x4 f) (by decide)
    (congrArg (fun g => some (Instr.mulh g)) (RG.ofWord_word 0x4 f)) hl

theorem RoundTrip.mulhu (f : RG) : RoundTrip.Statement (.mulhu f) := fun hl =>
  decodeSlot_of_map (by decide) (RG.word_op 0x5 f) (by decide)
    (congrArg (fun g => some (Instr.mulhu g)) (RG.ofWord_word 0x5 f)) hl

theorem RoundTrip.div (f : RG) : RoundTrip.Statement (.div f) := fun hl =>
  decodeSlot_of_map (by decide) (RG.word_op 0x6 f) (by decide)
    (congrArg (fun g => some (Instr.div g)) (RG.ofWord_word 0x6 f)) hl

theorem RoundTrip.divu (f : RG) : RoundTrip.Statement (.divu f) := fun hl =>
  decodeSlot_of_map (by decide) (RG.word_op 0x7 f) (by decide)
    (congrArg (fun g => some (Instr.divu g)) (RG.ofWord_word 0x7 f)) hl

theorem RoundTrip.rem (f : RG) : RoundTrip.Statement (.rem f) := fun hl =>
  decodeSlot_of_map (by decide) (RG.word_op 0x8 f) (by decide)
    (congrArg (fun g => some (Instr.rem g)) (RG.ofWord_word 0x8 f)) hl

theorem RoundTrip.remu (f : RG) : RoundTrip.Statement (.remu f) := fun hl =>
  decodeSlot_of_map (by decide) (RG.word_op 0x9 f) (by decide)
    (congrArg (fun g => some (Instr.remu g)) (RG.ofWord_word 0x9 f)) hl

theorem RoundTrip.and (f : RG) : RoundTrip.Statement (.and f) := fun hl =>
  decodeSlot_of_map (by decide) (RG.word_op 0xa f) (by decide)
    (congrArg (fun g => some (Instr.and g)) (RG.ofWord_word 0xa f)) hl

theorem RoundTrip.or (f : RG) : RoundTrip.Statement (.or f) := fun hl =>
  decodeSlot_of_map (by decide) (RG.word_op 0xb f) (by decide)
    (congrArg (fun g => some (Instr.or g)) (RG.ofWord_word 0xb f)) hl

theorem RoundTrip.xor (f : RG) : RoundTrip.Statement (.xor f) := fun hl =>
  decodeSlot_of_map (by decide) (RG.word_op 0xc f) (by decide)
    (congrArg (fun g => some (Instr.xor g)) (RG.ofWord_word 0xc f)) hl

theorem RoundTrip.andn (f : RG) : RoundTrip.Statement (.andn f) := fun hl =>
  decodeSlot_of_map (by decide) (RG.word_op 0xd f) (by decide)
    (congrArg (fun g => some (Instr.andn g)) (RG.ofWord_word 0xd f)) hl

theorem RoundTrip.orn (f : RG) : RoundTrip.Statement (.orn f) := fun hl =>
  decodeSlot_of_map (by decide) (RG.word_op 0xe f) (by decide)
    (congrArg (fun g => some (Instr.orn g)) (RG.ofWord_word 0xe f)) hl

theorem RoundTrip.sel (f : RG) : RoundTrip.Statement (.sel f) := fun hl =>
  decodeSlot_of_map (by decide) (RG.word_op 0xf f) (by decide)
    (congrArg (fun g => some (Instr.sel g)) (RG.ofWord_word 0xf f)) hl

theorem RoundTrip.shl (f : RG) : RoundTrip.Statement (.shl f) := fun hl =>
  decodeSlot_of_map (by decide) (RG.word_op 0x10 f) (by decide)
    (congrArg (fun g => some (Instr.shl g)) (RG.ofWord_word 0x10 f)) hl

theorem RoundTrip.shr (f : RG) : RoundTrip.Statement (.shr f) := fun hl =>
  decodeSlot_of_map (by decide) (RG.word_op 0x11 f) (by decide)
    (congrArg (fun g => some (Instr.shr g)) (RG.ofWord_word 0x11 f)) hl

theorem RoundTrip.sra (f : RG) : RoundTrip.Statement (.sra f) := fun hl =>
  decodeSlot_of_map (by decide) (RG.word_op 0x12 f) (by decide)
    (congrArg (fun g => some (Instr.sra g)) (RG.ofWord_word 0x12 f)) hl

theorem RoundTrip.rotl (f : RG) : RoundTrip.Statement (.rotl f) := fun hl =>
  decodeSlot_of_map (by decide) (RG.word_op 0x13 f) (by decide)
    (congrArg (fun g => some (Instr.rotl g)) (RG.ofWord_word 0x13 f)) hl

theorem RoundTrip.cmpeq (f : RG) : RoundTrip.Statement (.cmpeq f) := fun hl =>
  decodeSlot_of_map (by decide) (RG.word_op 0x14 f) (by decide)
    (congrArg (fun g => some (Instr.cmpeq g)) (RG.ofWord_word 0x14 f)) hl

theorem RoundTrip.cmpne (f : RG) : RoundTrip.Statement (.cmpne f) := fun hl =>
  decodeSlot_of_map (by decide) (RG.word_op 0x15 f) (by decide)
    (congrArg (fun g => some (Instr.cmpne g)) (RG.ofWord_word 0x15 f)) hl

theorem RoundTrip.cmplt (f : RG) : RoundTrip.Statement (.cmplt f) := fun hl =>
  decodeSlot_of_map (by decide) (RG.word_op 0x16 f) (by decide)
    (congrArg (fun g => some (Instr.cmplt g)) (RG.ofWord_word 0x16 f)) hl

theorem RoundTrip.cmpltu (f : RG) : RoundTrip.Statement (.cmpltu f) := fun hl =>
  decodeSlot_of_map (by decide) (RG.word_op 0x17 f) (by decide)
    (congrArg (fun g => some (Instr.cmpltu g)) (RG.ofWord_word 0x17 f)) hl

theorem RoundTrip.cmple (f : RG) : RoundTrip.Statement (.cmple f) := fun hl =>
  decodeSlot_of_map (by decide) (RG.word_op 0x18 f) (by decide)
    (congrArg (fun g => some (Instr.cmple g)) (RG.ofWord_word 0x18 f)) hl

theorem RoundTrip.cmpleu (f : RG) : RoundTrip.Statement (.cmpleu f) := fun hl =>
  decodeSlot_of_map (by decide) (RG.word_op 0x19 f) (by decide)
    (congrArg (fun g => some (Instr.cmpleu g)) (RG.ofWord_word 0x19 f)) hl

theorem RoundTrip.min (f : RG) : RoundTrip.Statement (.min f) := fun hl =>
  decodeSlot_of_map (by decide) (RG.word_op 0x1a f) (by decide)
    (congrArg (fun g => some (Instr.min g)) (RG.ofWord_word 0x1a f)) hl

theorem RoundTrip.max (f : RG) : RoundTrip.Statement (.max f) := fun hl =>
  decodeSlot_of_map (by decide) (RG.word_op 0x1b f) (by decide)
    (congrArg (fun g => some (Instr.max g)) (RG.ofWord_word 0x1b f)) hl

theorem RoundTrip.minu (f : RG) : RoundTrip.Statement (.minu f) := fun hl =>
  decodeSlot_of_map (by decide) (RG.word_op 0x1c f) (by decide)
    (congrArg (fun g => some (Instr.minu g)) (RG.ofWord_word 0x1c f)) hl

theorem RoundTrip.maxu (f : RG) : RoundTrip.Statement (.maxu f) := fun hl =>
  decodeSlot_of_map (by decide) (RG.word_op 0x1d f) (by decide)
    (congrArg (fun g => some (Instr.maxu g)) (RG.ofWord_word 0x1d f)) hl

theorem RoundTrip.clz (f : RG) : RoundTrip.Statement (.clz f) := fun hl =>
  decodeSlot_of_map (by decide) (RG.word_op 0x1e f) (by decide)
    (congrArg (fun g => some (Instr.clz g)) (RG.ofWord_word 0x1e f)) hl

theorem RoundTrip.ctz (f : RG) : RoundTrip.Statement (.ctz f) := fun hl =>
  decodeSlot_of_map (by decide) (RG.word_op 0x1f f) (by decide)
    (congrArg (fun g => some (Instr.ctz g)) (RG.ofWord_word 0x1f f)) hl

theorem RoundTrip.popc (f : RG) : RoundTrip.Statement (.popc f) := fun hl =>
  decodeSlot_of_map (by decide) (RG.word_op 0x20 f) (by decide)
    (congrArg (fun g => some (Instr.popc g)) (RG.ofWord_word 0x20 f)) hl

theorem RoundTrip.ext (f : RG) : RoundTrip.Statement (.ext f) := fun hl =>
  decodeSlot_of_map (by decide) (RG.word_op 0x21 f) (by decide)
    (congrArg (fun g => some (Instr.ext g)) (RG.ofWord_word 0x21 f)) hl

theorem RoundTrip.ins (f : RG) : RoundTrip.Statement (.ins f) := fun hl =>
  decodeSlot_of_map (by decide) (RG.word_op 0x22 f) (by decide)
    (congrArg (fun g => some (Instr.ins g)) (RG.ofWord_word 0x22 f)) hl

theorem RoundTrip.addi (f : RI) : RoundTrip.Statement (.addi f) := fun hl =>
  decodeSlot_of_map (by decide) (RI.word_op 0x28 f) (by decide)
    (congrArg (fun g => some (Instr.addi g)) (RI.ofWord_word 0x28 f)) hl

theorem RoundTrip.andi (f : RI) : RoundTrip.Statement (.andi f) := fun hl =>
  decodeSlot_of_map (by decide) (RI.word_op 0x29 f) (by decide)
    (congrArg (fun g => some (Instr.andi g)) (RI.ofWord_word 0x29 f)) hl

theorem RoundTrip.ori (f : RI) : RoundTrip.Statement (.ori f) := fun hl =>
  decodeSlot_of_map (by decide) (RI.word_op 0x2a f) (by decide)
    (congrArg (fun g => some (Instr.ori g)) (RI.ofWord_word 0x2a f)) hl

theorem RoundTrip.xori (f : RI) : RoundTrip.Statement (.xori f) := fun hl =>
  decodeSlot_of_map (by decide) (RI.word_op 0x2b f) (by decide)
    (congrArg (fun g => some (Instr.xori g)) (RI.ofWord_word 0x2b f)) hl

theorem RoundTrip.shli (f : RI) : RoundTrip.Statement (.shli f) := fun hl =>
  decodeSlot_of_map (by decide) (RI.word_op 0x2c f) (by decide)
    (congrArg (fun g => some (Instr.shli g)) (RI.ofWord_word 0x2c f)) hl

theorem RoundTrip.shri (f : RI) : RoundTrip.Statement (.shri f) := fun hl =>
  decodeSlot_of_map (by decide) (RI.word_op 0x2d f) (by decide)
    (congrArg (fun g => some (Instr.shri g)) (RI.ofWord_word 0x2d f)) hl

theorem RoundTrip.srai (f : RI) : RoundTrip.Statement (.srai f) := fun hl =>
  decodeSlot_of_map (by decide) (RI.word_op 0x2e f) (by decide)
    (congrArg (fun g => some (Instr.srai g)) (RI.ofWord_word 0x2e f)) hl

theorem RoundTrip.cmpeqi (f : RI) : RoundTrip.Statement (.cmpeqi f) := fun hl =>
  decodeSlot_of_map (by decide) (RI.word_op 0x2f f) (by decide)
    (congrArg (fun g => some (Instr.cmpeqi g)) (RI.ofWord_word 0x2f f)) hl

theorem RoundTrip.cmplti (f : RI) : RoundTrip.Statement (.cmplti f) := fun hl =>
  decodeSlot_of_map (by decide) (RI.word_op 0x30 f) (by decide)
    (congrArg (fun g => some (Instr.cmplti g)) (RI.ofWord_word 0x30 f)) hl

theorem RoundTrip.cmpltui (f : RI) : RoundTrip.Statement (.cmpltui f) := fun hl =>
  decodeSlot_of_map (by decide) (RI.word_op 0x31 f) (by decide)
    (congrArg (fun g => some (Instr.cmpltui g)) (RI.ofWord_word 0x31 f)) hl

theorem RoundTrip.movi (f : I20) : RoundTrip.Statement (.movi f) := fun hl => by
  have hb := I20.word_byte 0x3c#6 f
  have hi : (I20.ofWord (f.word 0x3c#6)) = f := I20.ofWord_word _ _
  rcases two_bits (f.dst.extractLsb' 4 2) with h | h | h | h <;> rw [h] at hb <;>
    exact decodeSlot_of_map (by decide) hb (by decide) (congrArg (fun g => some (Instr.movi g)) hi) hl

theorem RoundTrip.movhi (f : I20) : RoundTrip.Statement (.movhi f) := fun hl => by
  have hb := I20.word_byte 0x3d#6 f
  have hi : (I20.ofWord (f.word 0x3d#6)) = f := I20.ofWord_word _ _
  rcases two_bits (f.dst.extractLsb' 4 2) with h | h | h | h <;> rw [h] at hb <;>
    exact decodeSlot_of_map (by decide) hb (by decide) (congrArg (fun g => some (Instr.movhi g)) hi) hl

theorem RoundTrip.movfi (f : I20) : RoundTrip.Statement (.movfi f) := fun hl => by
  have hb := I20.word_byte 0x3e#6 f
  have hi : (I20.ofWord (f.word 0x3e#6)) = f := I20.ofWord_word _ _
  rcases two_bits (f.dst.extractLsb' 4 2) with h | h | h | h <;> rw [h] at hb <;>
    exact decodeSlot_of_map (by decide) hb (by decide) (congrArg (fun g => some (Instr.movfi g)) hi) hl

theorem RoundTrip.fadd (f : RG) : RoundTrip.Statement (.fadd f) := fun hl =>
  decodeSlot_of_map (by decide) (RG.word_op 0x40 f) (by decide)
    (congrArg (fun g => some (Instr.fadd g)) (RG.ofWord_word 0x40 f)) hl

theorem RoundTrip.fsub (f : RG) : RoundTrip.Statement (.fsub f) := fun hl =>
  decodeSlot_of_map (by decide) (RG.word_op 0x41 f) (by decide)
    (congrArg (fun g => some (Instr.fsub g)) (RG.ofWord_word 0x41 f)) hl

theorem RoundTrip.fmul (f : RG) : RoundTrip.Statement (.fmul f) := fun hl =>
  decodeSlot_of_map (by decide) (RG.word_op 0x42 f) (by decide)
    (congrArg (fun g => some (Instr.fmul g)) (RG.ofWord_word 0x42 f)) hl

theorem RoundTrip.ffma (f : RG) : RoundTrip.Statement (.ffma f) := fun hl =>
  decodeSlot_of_map (by decide) (RG.word_op 0x43 f) (by decide)
    (congrArg (fun g => some (Instr.ffma g)) (RG.ofWord_word 0x43 f)) hl

theorem RoundTrip.fmin (f : RG) : RoundTrip.Statement (.fmin f) := fun hl =>
  decodeSlot_of_map (by decide) (RG.word_op 0x44 f) (by decide)
    (congrArg (fun g => some (Instr.fmin g)) (RG.ofWord_word 0x44 f)) hl

theorem RoundTrip.fmax (f : RG) : RoundTrip.Statement (.fmax f) := fun hl =>
  decodeSlot_of_map (by decide) (RG.word_op 0x45 f) (by decide)
    (congrArg (fun g => some (Instr.fmax g)) (RG.ofWord_word 0x45 f)) hl

theorem RoundTrip.fcmpeq (f : RG) : RoundTrip.Statement (.fcmpeq f) := fun hl =>
  decodeSlot_of_map (by decide) (RG.word_op 0x46 f) (by decide)
    (congrArg (fun g => some (Instr.fcmpeq g)) (RG.ofWord_word 0x46 f)) hl

theorem RoundTrip.fcmplt (f : RG) : RoundTrip.Statement (.fcmplt f) := fun hl =>
  decodeSlot_of_map (by decide) (RG.word_op 0x47 f) (by decide)
    (congrArg (fun g => some (Instr.fcmplt g)) (RG.ofWord_word 0x47 f)) hl

theorem RoundTrip.fcmple (f : RG) : RoundTrip.Statement (.fcmple f) := fun hl =>
  decodeSlot_of_map (by decide) (RG.word_op 0x48 f) (by decide)
    (congrArg (fun g => some (Instr.fcmple g)) (RG.ofWord_word 0x48 f)) hl

theorem RoundTrip.fcvt (f : RG) : RoundTrip.Statement (.fcvt f) := fun hl =>
  decodeSlot_of_map (by decide) (RG.word_op 0x49 f) (by decide)
    (congrArg (fun g => some (Instr.fcvt g)) (RG.ofWord_word 0x49 f)) hl

theorem RoundTrip.fdiv (f : RG) : RoundTrip.Statement (.fdiv f) := fun hl =>
  decodeSlot_of_map (by decide) (RG.word_op 0x4a f) (by decide)
    (congrArg (fun g => some (Instr.fdiv g)) (RG.ofWord_word 0x4a f)) hl

theorem RoundTrip.fsqrt (f : RG) : RoundTrip.Statement (.fsqrt f) := fun hl =>
  decodeSlot_of_map (by decide) (RG.word_op 0x4b f) (by decide)
    (congrArg (fun g => some (Instr.fsqrt g)) (RG.ofWord_word 0x4b f)) hl

theorem RoundTrip.tadd (f : RG) : RoundTrip.Statement (.tadd f) := fun hl =>
  decodeSlot_of_map (by decide) (RG.word_op 0x4c f) (by decide)
    (congrArg (fun g => some (Instr.tadd g)) (RG.ofWord_word 0x4c f)) hl

theorem RoundTrip.tmul (f : RG) : RoundTrip.Statement (.tmul f) := fun hl =>
  decodeSlot_of_map (by decide) (RG.word_op 0x4d f) (by decide)
    (congrArg (fun g => some (Instr.tmul g)) (RG.ofWord_word 0x4d f)) hl

theorem RoundTrip.tfma (f : RG) : RoundTrip.Statement (.tfma f) := fun hl =>
  decodeSlot_of_map (by decide) (RG.word_op 0x4e f) (by decide)
    (congrArg (fun g => some (Instr.tfma g)) (RG.ofWord_word 0x4e f)) hl

theorem RoundTrip.amov (f : RG) : RoundTrip.Statement (.amov f) := fun hl =>
  decodeSlot_of_map (by decide) (RG.word_op 0x50 f) (by decide)
    (congrArg (fun g => some (Instr.amov g)) (RG.ofWord_word 0x50 f)) hl

theorem RoundTrip.aaddi (f : RI) : RoundTrip.Statement (.aaddi f) := fun hl =>
  decodeSlot_of_map (by decide) (RI.word_op 0x51 f) (by decide)
    (congrArg (fun g => some (Instr.aaddi g)) (RI.ofWord_word 0x51 f)) hl

theorem RoundTrip.aread (f : RG) : RoundTrip.Statement (.aread f) := fun hl =>
  decodeSlot_of_map (by decide) (RG.word_op 0x52 f) (by decide)
    (congrArg (fun g => some (Instr.aread g)) (RG.ofWord_word 0x52 f)) hl

theorem RoundTrip.adelta (f : RG) : RoundTrip.Statement (.adelta f) := fun hl =>
  decodeSlot_of_map (by decide) (RG.word_op 0x53 f) (by decide)
    (congrArg (fun g => some (Instr.adelta g)) (RG.ofWord_word 0x53 f)) hl

theorem RoundTrip.lidx (f : RI) : RoundTrip.Statement (.lidx f) := fun hl =>
  decodeSlot_of_map (by decide) (RI.word_op 0x54 f) (by decide)
    (congrArg (fun g => some (Instr.lidx g)) (RI.ofWord_word 0x54 f)) hl

theorem RoundTrip.csrr (f : RI) : RoundTrip.Statement (.csrr f) := fun hl =>
  decodeSlot_of_map (by decide) (RI.word_op 0x58 f) (by decide)
    (congrArg (fun g => some (Instr.csrr g)) (RI.ofWord_word 0x58 f)) hl

theorem RoundTrip.csrw (f : RI) : RoundTrip.Statement (.csrw f) := fun hl =>
  decodeSlot_of_map (by decide) (RI.word_op 0x59 f) (by decide)
    (congrArg (fun g => some (Instr.csrw g)) (RI.ofWord_word 0x59 f)) hl

theorem RoundTrip.topo (f : RI) : RoundTrip.Statement (.topo f) := fun hl =>
  decodeSlot_of_map (by decide) (RI.word_op 0x5a f) (by decide)
    (congrArg (fun g => some (Instr.topo g)) (RI.ofWord_word 0x5a f)) hl

theorem RoundTrip.rdcyc (f : RG) : RoundTrip.Statement (.rdcyc f) := fun hl =>
  decodeSlot_of_map (by decide) (RG.word_op 0x5b f) (by decide)
    (congrArg (fun g => some (Instr.rdcyc g)) (RG.ofWord_word 0x5b f)) hl

theorem RoundTrip.pany (f : RG) : RoundTrip.Statement (.pany f) := fun hl =>
  decodeSlot_of_map (by decide) (RG.word_op 0x5c f) (by decide)
    (congrArg (fun g => some (Instr.pany g)) (RG.ofWord_word 0x5c f)) hl

theorem RoundTrip.pall (f : RG) : RoundTrip.Statement (.pall f) := fun hl =>
  decodeSlot_of_map (by decide) (RG.word_op 0x5d f) (by decide)
    (congrArg (fun g => some (Instr.pall g)) (RG.ofWord_word 0x5d f)) hl

theorem RoundTrip.pcnt (f : RG) : RoundTrip.Statement (.pcnt f) := fun hl =>
  decodeSlot_of_map (by decide) (RG.word_op 0x5e f) (by decide)
    (congrArg (fun g => some (Instr.pcnt g)) (RG.ofWord_word 0x5e f)) hl

theorem RoundTrip.ldb (f : Mem) : RoundTrip.Statement (.ldb f) := fun hl =>
  decodeSlot_of_map (by decide) (Mem.word_op 0x1 f) (by decide)
    (congrArg (fun g => some (Instr.ldb g)) (Mem.ofWord_word 0x1 f)) hl

theorem RoundTrip.ldbu (f : Mem) : RoundTrip.Statement (.ldbu f) := fun hl =>
  decodeSlot_of_map (by decide) (Mem.word_op 0x2 f) (by decide)
    (congrArg (fun g => some (Instr.ldbu g)) (Mem.ofWord_word 0x2 f)) hl

theorem RoundTrip.ldh (f : Mem) : RoundTrip.Statement (.ldh f) := fun hl =>
  decodeSlot_of_map (by decide) (Mem.word_op 0x3 f) (by decide)
    (congrArg (fun g => some (Instr.ldh g)) (Mem.ofWord_word 0x3 f)) hl

theorem RoundTrip.ldhu (f : Mem) : RoundTrip.Statement (.ldhu f) := fun hl =>
  decodeSlot_of_map (by decide) (Mem.word_op 0x4 f) (by decide)
    (congrArg (fun g => some (Instr.ldhu g)) (Mem.ofWord_word 0x4 f)) hl

theorem RoundTrip.ldw (f : Mem) : RoundTrip.Statement (.ldw f) := fun hl =>
  decodeSlot_of_map (by decide) (Mem.word_op 0x5 f) (by decide)
    (congrArg (fun g => some (Instr.ldw g)) (Mem.ofWord_word 0x5 f)) hl

theorem RoundTrip.ldwu (f : Mem) : RoundTrip.Statement (.ldwu f) := fun hl =>
  decodeSlot_of_map (by decide) (Mem.word_op 0x6 f) (by decide)
    (congrArg (fun g => some (Instr.ldwu g)) (Mem.ofWord_word 0x6 f)) hl

theorem RoundTrip.ldd (f : Mem) : RoundTrip.Statement (.ldd f) := fun hl =>
  decodeSlot_of_map (by decide) (Mem.word_op 0x7 f) (by decide)
    (congrArg (fun g => some (Instr.ldd g)) (Mem.ofWord_word 0x7 f)) hl

theorem RoundTrip.stb (f : Mem) : RoundTrip.Statement (.stb f) := fun hl =>
  decodeSlot_of_map (by decide) (Mem.word_op 0x8 f) (by decide)
    (congrArg (fun g => some (Instr.stb g)) (Mem.ofWord_word 0x8 f)) hl

theorem RoundTrip.sth (f : Mem) : RoundTrip.Statement (.sth f) := fun hl =>
  decodeSlot_of_map (by decide) (Mem.word_op 0x9 f) (by decide)
    (congrArg (fun g => some (Instr.sth g)) (Mem.ofWord_word 0x9 f)) hl

theorem RoundTrip.stw (f : Mem) : RoundTrip.Statement (.stw f) := fun hl =>
  decodeSlot_of_map (by decide) (Mem.word_op 0xa f) (by decide)
    (congrArg (fun g => some (Instr.stw g)) (Mem.ofWord_word 0xa f)) hl

theorem RoundTrip.std (f : Mem) : RoundTrip.Statement (.std f) := fun hl =>
  decodeSlot_of_map (by decide) (Mem.word_op 0xb f) (by decide)
    (congrArg (fun g => some (Instr.std g)) (Mem.ofWord_word 0xb f)) hl

theorem RoundTrip.vld (f : Mem) : RoundTrip.Statement (.vld f) := fun hl =>
  decodeSlot_of_map (by decide) (Mem.word_op 0x10 f) (by decide)
    (congrArg (fun g => some (Instr.vld g)) (Mem.ofWord_word 0x10 f)) hl

theorem RoundTrip.vst (f : Mem) : RoundTrip.Statement (.vst f) := fun hl =>
  decodeSlot_of_map (by decide) (Mem.word_op 0x11 f) (by decide)
    (congrArg (fun g => some (Instr.vst g)) (Mem.ofWord_word 0x11 f)) hl

theorem RoundTrip.vlds (f : Mem) : RoundTrip.Statement (.vlds f) := fun hl =>
  decodeSlot_of_map (by decide) (Mem.word_op 0x12 f) (by decide)
    (congrArg (fun g => some (Instr.vlds g)) (Mem.ofWord_word 0x12 f)) hl

theorem RoundTrip.vsts (f : Mem) : RoundTrip.Statement (.vsts f) := fun hl =>
  decodeSlot_of_map (by decide) (Mem.word_op 0x13 f) (by decide)
    (congrArg (fun g => some (Instr.vsts g)) (Mem.ofWord_word 0x13 f)) hl

theorem RoundTrip.vgather (f : Mem) : RoundTrip.Statement (.vgather f) := fun hl =>
  decodeSlot_of_map (by decide) (Mem.word_op 0x14 f) (by decide)
    (congrArg (fun g => some (Instr.vgather g)) (Mem.ofWord_word 0x14 f)) hl

theorem RoundTrip.vscatter (f : Mem) : RoundTrip.Statement (.vscatter f) := fun hl =>
  decodeSlot_of_map (by decide) (Mem.word_op 0x15 f) (by decide)
    (congrArg (fun g => some (Instr.vscatter g)) (Mem.ofWord_word 0x15 f)) hl

theorem RoundTrip.vldb (f : Mem) : RoundTrip.Statement (.vldb f) := fun hl =>
  decodeSlot_of_map (by decide) (Mem.word_op 0x16 f) (by decide)
    (congrArg (fun g => some (Instr.vldb g)) (Mem.ofWord_word 0x16 f)) hl

theorem RoundTrip.pld (f : Mem) : RoundTrip.Statement (.pld f) := fun hl =>
  decodeSlot_of_map (by decide) (Mem.word_op 0x17 f) (by decide)
    (congrArg (fun g => some (Instr.pld g)) (Mem.ofWord_word 0x17 f)) hl

theorem RoundTrip.pst (f : Mem) : RoundTrip.Statement (.pst f) := fun hl =>
  decodeSlot_of_map (by decide) (Mem.word_op 0x18 f) (by decide)
    (congrArg (fun g => some (Instr.pst g)) (Mem.ofWord_word 0x18 f)) hl

theorem RoundTrip.kld (f : Mem) : RoundTrip.Statement (.kld f) := fun hl =>
  decodeSlot_of_map (by decide) (Mem.word_op 0x19 f) (by decide)
    (congrArg (fun g => some (Instr.kld g)) (Mem.ofWord_word 0x19 f)) hl

theorem RoundTrip.qsave (f : Mem) : RoundTrip.Statement (.qsave f) := fun hl =>
  decodeSlot_of_map (by decide) (Mem.word_op 0x1a f) (by decide)
    (congrArg (fun g => some (Instr.qsave g)) (Mem.ofWord_word 0x1a f)) hl

theorem RoundTrip.qload (f : Mem) : RoundTrip.Statement (.qload f) := fun hl =>
  decodeSlot_of_map (by decide) (Mem.word_op 0x1b f) (by decide)
    (congrArg (fun g => some (Instr.qload g)) (Mem.ofWord_word 0x1b f)) hl

theorem RoundTrip.istore (f : Mem) : RoundTrip.Statement (.istore f) := fun hl =>
  decodeSlot_of_map (by decide) (Mem.word_op 0x1c f) (by decide)
    (congrArg (fun g => some (Instr.istore g)) (Mem.ofWord_word 0x1c f)) hl

theorem RoundTrip.amoadd (f : Atomic) : RoundTrip.Statement (.amoadd f) := fun hl =>
  decodeSlot_of_map (by decide) (Atomic.word_op 0x20 f) (by decide)
    (congrArg (fun g => some (Instr.amoadd g)) (Atomic.ofWord_word 0x20 f)) hl

theorem RoundTrip.amoand (f : Atomic) : RoundTrip.Statement (.amoand f) := fun hl =>
  decodeSlot_of_map (by decide) (Atomic.word_op 0x21 f) (by decide)
    (congrArg (fun g => some (Instr.amoand g)) (Atomic.ofWord_word 0x21 f)) hl

theorem RoundTrip.amoor (f : Atomic) : RoundTrip.Statement (.amoor f) := fun hl =>
  decodeSlot_of_map (by decide) (Atomic.word_op 0x22 f) (by decide)
    (congrArg (fun g => some (Instr.amoor g)) (Atomic.ofWord_word 0x22 f)) hl

theorem RoundTrip.amoxor (f : Atomic) : RoundTrip.Statement (.amoxor f) := fun hl =>
  decodeSlot_of_map (by decide) (Atomic.word_op 0x23 f) (by decide)
    (congrArg (fun g => some (Instr.amoxor g)) (Atomic.ofWord_word 0x23 f)) hl

theorem RoundTrip.amomin (f : Atomic) : RoundTrip.Statement (.amomin f) := fun hl =>
  decodeSlot_of_map (by decide) (Atomic.word_op 0x24 f) (by decide)
    (congrArg (fun g => some (Instr.amomin g)) (Atomic.ofWord_word 0x24 f)) hl

theorem RoundTrip.amomax (f : Atomic) : RoundTrip.Statement (.amomax f) := fun hl =>
  decodeSlot_of_map (by decide) (Atomic.word_op 0x25 f) (by decide)
    (congrArg (fun g => some (Instr.amomax g)) (Atomic.ofWord_word 0x25 f)) hl

theorem RoundTrip.amominu (f : Atomic) : RoundTrip.Statement (.amominu f) := fun hl =>
  decodeSlot_of_map (by decide) (Atomic.word_op 0x26 f) (by decide)
    (congrArg (fun g => some (Instr.amominu g)) (Atomic.ofWord_word 0x26 f)) hl

theorem RoundTrip.amomaxu (f : Atomic) : RoundTrip.Statement (.amomaxu f) := fun hl =>
  decodeSlot_of_map (by decide) (Atomic.word_op 0x27 f) (by decide)
    (congrArg (fun g => some (Instr.amomaxu g)) (Atomic.ofWord_word 0x27 f)) hl

theorem RoundTrip.amoswap (f : Atomic) : RoundTrip.Statement (.amoswap f) := fun hl =>
  decodeSlot_of_map (by decide) (Atomic.word_op 0x28 f) (by decide)
    (congrArg (fun g => some (Instr.amoswap g)) (Atomic.ofWord_word 0x28 f)) hl

theorem RoundTrip.amocas (f : Atomic) : RoundTrip.Statement (.amocas f) := fun hl =>
  decodeSlot_of_map (by decide) (Atomic.word_op 0x29 f) (by decide)
    (congrArg (fun g => some (Instr.amocas g)) (Atomic.ofWord_word 0x29 f)) hl

theorem RoundTrip.amofadd (f : Atomic) : RoundTrip.Statement (.amofadd f) := fun hl =>
  decodeSlot_of_map (by decide) (Atomic.word_op 0x2a f) (by decide)
    (congrArg (fun g => some (Instr.amofadd g)) (Atomic.ofWord_word 0x2a f)) hl

theorem RoundTrip.amotadd (f : Atomic) : RoundTrip.Statement (.amotadd f) := fun hl =>
  decodeSlot_of_map (by decide) (Atomic.word_op 0x2b f) (by decide)
    (congrArg (fun g => some (Instr.amotadd g)) (Atomic.ofWord_word 0x2b f)) hl

theorem RoundTrip.rput (f : Remote) : RoundTrip.Statement (.rput f) := fun hl =>
  decodeSlot_of_map (by decide) (Remote.word_op 0x30 f) (by decide)
    (congrArg (fun g => some (Instr.rput g)) (Remote.ofWord_word 0x30 f)) hl

theorem RoundTrip.rputv (f : Remote) : RoundTrip.Statement (.rputv f) := fun hl =>
  decodeSlot_of_map (by decide) (Remote.word_op 0x31 f) (by decide)
    (congrArg (fun g => some (Instr.rputv g)) (Remote.ofWord_word 0x31 f)) hl

theorem RoundTrip.ramo (f : Remote) : RoundTrip.Statement (.ramo f) := fun hl =>
  decodeSlot_of_map (by decide) (Remote.word_op 0x33 f) (by decide)
    (congrArg (fun g => some (Instr.ramo g)) (Remote.ofWord_word 0x33 f)) hl

theorem RoundTrip.sinc (f : Sync) : RoundTrip.Statement (.sinc f) := fun hl =>
  decodeSlot_of_map (by decide) (Sync.word_op 0x38 f) (by decide)
    (congrArg (fun g => some (Instr.sinc g)) (Sync.ofWord_word 0x38 f)) hl

theorem RoundTrip.swait (f : Sync) : RoundTrip.Statement (.swait f) := fun hl =>
  decodeSlot_of_map (by decide) (Sync.word_op 0x39 f) (by decide)
    (congrArg (fun g => some (Instr.swait g)) (Sync.ofWord_word 0x39 f)) hl

theorem RoundTrip.sexpect (f : Sync) : RoundTrip.Statement (.sexpect f) := fun hl =>
  decodeSlot_of_map (by decide) (Sync.word_op 0x3a f) (by decide)
    (congrArg (fun g => some (Instr.sexpect g)) (Sync.ofWord_word 0x3a f)) hl

theorem RoundTrip.swaite (f : Sync) : RoundTrip.Statement (.swaite f) := fun hl =>
  decodeSlot_of_map (by decide) (Sync.word_op 0x3b f) (by decide)
    (congrArg (fun g => some (Instr.swaite g)) (Sync.ofWord_word 0x3b f)) hl

theorem RoundTrip.sread (f : Sync) : RoundTrip.Statement (.sread f) := fun hl =>
  decodeSlot_of_map (by decide) (Sync.word_op 0x3c f) (by decide)
    (congrArg (fun g => some (Instr.sread g)) (Sync.ofWord_word 0x3c f)) hl

theorem RoundTrip.bararr (f : Sync) : RoundTrip.Statement (.bararr f) := fun hl =>
  decodeSlot_of_map (by decide) (Sync.word_op 0x40 f) (by decide)
    (congrArg (fun g => some (Instr.bararr g)) (Sync.ofWord_word 0x40 f)) hl

theorem RoundTrip.barwait (f : Sync) : RoundTrip.Statement (.barwait f) := fun hl =>
  decodeSlot_of_map (by decide) (Sync.word_op 0x41 f) (by decide)
    (congrArg (fun g => some (Instr.barwait g)) (Sync.ofWord_word 0x41 f)) hl

theorem RoundTrip.fence (f : Sync) : RoundTrip.Statement (.fence f) := fun hl =>
  decodeSlot_of_map (by decide) (Sync.word_op 0x48 f) (by decide)
    (congrArg (fun g => some (Instr.fence g)) (Sync.ofWord_word 0x48 f)) hl

theorem RoundTrip.fencemark (f : Sync) : RoundTrip.Statement (.fencemark f) := fun hl =>
  decodeSlot_of_map (by decide) (Sync.word_op 0x49 f) (by decide)
    (congrArg (fun g => some (Instr.fencemark g)) (Sync.ofWord_word 0x49 f)) hl

theorem RoundTrip.gpost (f : Sync) : RoundTrip.Statement (.gpost f) := fun hl =>
  decodeSlot_of_map (by decide) (Sync.word_op 0x50 f) (by decide)
    (congrArg (fun g => some (Instr.gpost g)) (Sync.ofWord_word 0x50 f)) hl

theorem RoundTrip.gwait (f : Sync) : RoundTrip.Statement (.gwait f) := fun hl =>
  decodeSlot_of_map (by decide) (Sync.word_op 0x51 f) (by decide)
    (congrArg (fun g => some (Instr.gwait g)) (Sync.ofWord_word 0x51 f)) hl

theorem RoundTrip.gtry (f : Sync) : RoundTrip.Statement (.gtry f) := fun hl =>
  decodeSlot_of_map (by decide) (Sync.word_op 0x52 f) (by decide)
    (congrArg (fun g => some (Instr.gtry g)) (Sync.ofWord_word 0x52 f)) hl

theorem RoundTrip.gread (f : Sync) : RoundTrip.Statement (.gread f) := fun hl =>
  decodeSlot_of_map (by decide) (Sync.word_op 0x53 f) (by decide)
    (congrArg (fun g => some (Instr.gread g)) (Sync.ofWord_word 0x53 f)) hl

theorem RoundTrip.vsetf (f : RG) : RoundTrip.Statement (.vsetf f) := fun hl =>
  decodeSlot_of_map (by decide) (RG.word_op 0x1 f) (by decide)
    (congrArg (fun g => some (Instr.vsetf g)) (RG.ofWord_word 0x1 f)) hl

theorem RoundTrip.vadd (f : RG) : RoundTrip.Statement (.vadd f) := fun hl =>
  decodeSlot_of_map (by decide) (RG.word_op 0x2 f) (by decide)
    (congrArg (fun g => some (Instr.vadd g)) (RG.ofWord_word 0x2 f)) hl

theorem RoundTrip.vsub (f : RG) : RoundTrip.Statement (.vsub f) := fun hl =>
  decodeSlot_of_map (by decide) (RG.word_op 0x3 f) (by decide)
    (congrArg (fun g => some (Instr.vsub g)) (RG.ofWord_word 0x3 f)) hl

theorem RoundTrip.vmul (f : RG) : RoundTrip.Statement (.vmul f) := fun hl =>
  decodeSlot_of_map (by decide) (RG.word_op 0x4 f) (by decide)
    (congrArg (fun g => some (Instr.vmul g)) (RG.ofWord_word 0x4 f)) hl

theorem RoundTrip.vfma (f : RG) : RoundTrip.Statement (.vfma f) := fun hl =>
  decodeSlot_of_map (by decide) (RG.word_op 0x5 f) (by decide)
    (congrArg (fun g => some (Instr.vfma g)) (RG.ofWord_word 0x5 f)) hl

theorem RoundTrip.vfms (f : RG) : RoundTrip.Statement (.vfms f) := fun hl =>
  decodeSlot_of_map (by decide) (RG.word_op 0x6 f) (by decide)
    (congrArg (fun g => some (Instr.vfms g)) (RG.ofWord_word 0x6 f)) hl

theorem RoundTrip.vfnma (f : RG) : RoundTrip.Statement (.vfnma f) := fun hl =>
  decodeSlot_of_map (by decide) (RG.word_op 0x7 f) (by decide)
    (congrArg (fun g => some (Instr.vfnma g)) (RG.ofWord_word 0x7 f)) hl

theorem RoundTrip.vdiv (f : RG) : RoundTrip.Statement (.vdiv f) := fun hl =>
  decodeSlot_of_map (by decide) (RG.word_op 0x8 f) (by decide)
    (congrArg (fun g => some (Instr.vdiv g)) (RG.ofWord_word 0x8 f)) hl

theorem RoundTrip.vmin (f : RG) : RoundTrip.Statement (.vmin f) := fun hl =>
  decodeSlot_of_map (by decide) (RG.word_op 0x9 f) (by decide)
    (congrArg (fun g => some (Instr.vmin g)) (RG.ofWord_word 0x9 f)) hl

theorem RoundTrip.vmax (f : RG) : RoundTrip.Statement (.vmax f) := fun hl =>
  decodeSlot_of_map (by decide) (RG.word_op 0xa f) (by decide)
    (congrArg (fun g => some (Instr.vmax g)) (RG.ofWord_word 0xa f)) hl

theorem RoundTrip.vabs (f : RG) : RoundTrip.Statement (.vabs f) := fun hl =>
  decodeSlot_of_map (by decide) (RG.word_op 0xb f) (by decide)
    (congrArg (fun g => some (Instr.vabs g)) (RG.ofWord_word 0xb f)) hl

theorem RoundTrip.vneg (f : RG) : RoundTrip.Statement (.vneg f) := fun hl =>
  decodeSlot_of_map (by decide) (RG.word_op 0xc f) (by decide)
    (congrArg (fun g => some (Instr.vneg g)) (RG.ofWord_word 0xc f)) hl

theorem RoundTrip.vcmpeq (f : RG) : RoundTrip.Statement (.vcmpeq f) := fun hl =>
  decodeSlot_of_map (by decide) (RG.word_op 0xd f) (by decide)
    (congrArg (fun g => some (Instr.vcmpeq g)) (RG.ofWord_word 0xd f)) hl

theorem RoundTrip.vcmplt (f : RG) : RoundTrip.Statement (.vcmplt f) := fun hl =>
  decodeSlot_of_map (by decide) (RG.word_op 0xe f) (by decide)
    (congrArg (fun g => some (Instr.vcmplt g)) (RG.ofWord_word 0xe f)) hl

theorem RoundTrip.vcmple (f : RG) : RoundTrip.Statement (.vcmple f) := fun hl =>
  decodeSlot_of_map (by decide) (RG.word_op 0xf f) (by decide)
    (congrArg (fun g => some (Instr.vcmple g)) (RG.ofWord_word 0xf f)) hl

theorem RoundTrip.vsel (f : RG) : RoundTrip.Statement (.vsel f) := fun hl =>
  decodeSlot_of_map (by decide) (RG.word_op 0x10 f) (by decide)
    (congrArg (fun g => some (Instr.vsel g)) (RG.ofWord_word 0x10 f)) hl

theorem RoundTrip.vand (f : RG) : RoundTrip.Statement (.vand f) := fun hl =>
  decodeSlot_of_map (by decide) (RG.word_op 0x11 f) (by decide)
    (congrArg (fun g => some (Instr.vand g)) (RG.ofWord_word 0x11 f)) hl

theorem RoundTrip.vor (f : RG) : RoundTrip.Statement (.vor f) := fun hl =>
  decodeSlot_of_map (by decide) (RG.word_op 0x12 f) (by decide)
    (congrArg (fun g => some (Instr.vor g)) (RG.ofWord_word 0x12 f)) hl

theorem RoundTrip.vxor (f : RG) : RoundTrip.Statement (.vxor f) := fun hl =>
  decodeSlot_of_map (by decide) (RG.word_op 0x13 f) (by decide)
    (congrArg (fun g => some (Instr.vxor g)) (RG.ofWord_word 0x13 f)) hl

theorem RoundTrip.vshl (f : RG) : RoundTrip.Statement (.vshl f) := fun hl =>
  decodeSlot_of_map (by decide) (RG.word_op 0x14 f) (by decide)
    (congrArg (fun g => some (Instr.vshl g)) (RG.ofWord_word 0x14 f)) hl

theorem RoundTrip.vshr (f : RG) : RoundTrip.Statement (.vshr f) := fun hl =>
  decodeSlot_of_map (by decide) (RG.word_op 0x15 f) (by decide)
    (congrArg (fun g => some (Instr.vshr g)) (RG.ofWord_word 0x15 f)) hl

theorem RoundTrip.vsra (f : RG) : RoundTrip.Statement (.vsra f) := fun hl =>
  decodeSlot_of_map (by decide) (RG.word_op 0x16 f) (by decide)
    (congrArg (fun g => some (Instr.vsra g)) (RG.ofWord_word 0x16 f)) hl

theorem RoundTrip.vqdot (f : RG) : RoundTrip.Statement (.vqdot f) := fun hl =>
  decodeSlot_of_map (by decide) (RG.word_op 0x20 f) (by decide)
    (congrArg (fun g => some (Instr.vqdot g)) (RG.ofWord_word 0x20 f)) hl

theorem RoundTrip.vqadd (f : RG) : RoundTrip.Statement (.vqadd f) := fun hl =>
  decodeSlot_of_map (by decide) (RG.word_op 0x21 f) (by decide)
    (congrArg (fun g => some (Instr.vqadd g)) (RG.ofWord_word 0x21 f)) hl

theorem RoundTrip.vqacc (f : RG) : RoundTrip.Statement (.vqacc f) := fun hl =>
  decodeSlot_of_map (by decide) (RG.word_op 0x22 f) (by decide)
    (congrArg (fun g => some (Instr.vqacc g)) (RG.ofWord_word 0x22 f)) hl

theorem RoundTrip.vqsub (f : RG) : RoundTrip.Statement (.vqsub f) := fun hl =>
  decodeSlot_of_map (by decide) (RG.word_op 0x23 f) (by decide)
    (congrArg (fun g => some (Instr.vqsub g)) (RG.ofWord_word 0x23 f)) hl

theorem RoundTrip.vqrnd (f : RG) : RoundTrip.Statement (.vqrnd f) := fun hl =>
  decodeSlot_of_map (by decide) (RG.word_op 0x24 f) (by decide)
    (congrArg (fun g => some (Instr.vqrnd g)) (RG.ofWord_word 0x24 f)) hl

theorem RoundTrip.vqscale (f : RG) : RoundTrip.Statement (.vqscale f) := fun hl =>
  decodeSlot_of_map (by decide) (RG.word_op 0x25 f) (by decide)
    (congrArg (fun g => some (Instr.vqscale g)) (RG.ofWord_word 0x25 f)) hl

theorem RoundTrip.vqclr (f : RG) : RoundTrip.Statement (.vqclr f) := fun hl =>
  decodeSlot_of_map (by decide) (RG.word_op 0x26 f) (by decide)
    (congrArg (fun g => some (Instr.vqclr g)) (RG.ofWord_word 0x26 f)) hl

theorem RoundTrip.vqmovQq (f : RG) : RoundTrip.Statement (.vqmovQq f) := fun hl => by
  have hs : f.srcB = 0#7 := by
    have h := hl
    simp only [Instr.legal, Bool.and_eq_true, beq_iff_eq] at h
    exact h.2
  refine decodeSlot_of_map (by decide) (RG.word_op 0x27#8 f) (by decide) ?_ hl
  show (match (RG.ofWord (f.word 0x27#8)).srcB.toNat with
    | 1 => some (Instr.vqmovVq (RG.ofWord (f.word 0x27#8)))
    | 2 => some (Instr.vqmovQv (RG.ofWord (f.word 0x27#8)))
    | _ => some (Instr.vqmovQq (RG.ofWord (f.word 0x27#8)))) = _
  rw [RG.ofWord_word, hs]
  rfl

theorem RoundTrip.vqmovVq (f : RG) : RoundTrip.Statement (.vqmovVq f) := fun hl => by
  have hs : f.srcB = 1#7 := by
    have h := hl
    simp only [Instr.legal, Bool.and_eq_true, beq_iff_eq] at h
    exact h.2
  refine decodeSlot_of_map (by decide) (RG.word_op 0x27#8 f) (by decide) ?_ hl
  show (match (RG.ofWord (f.word 0x27#8)).srcB.toNat with
    | 1 => some (Instr.vqmovVq (RG.ofWord (f.word 0x27#8)))
    | 2 => some (Instr.vqmovQv (RG.ofWord (f.word 0x27#8)))
    | _ => some (Instr.vqmovQq (RG.ofWord (f.word 0x27#8)))) = _
  rw [RG.ofWord_word, hs]
  rfl

theorem RoundTrip.vqmovQv (f : RG) : RoundTrip.Statement (.vqmovQv f) := fun hl => by
  have hs : f.srcB = 2#7 := by
    have h := hl
    simp only [Instr.legal, Bool.and_eq_true, beq_iff_eq] at h
    exact h.2
  refine decodeSlot_of_map (by decide) (RG.word_op 0x27#8 f) (by decide) ?_ hl
  show (match (RG.ofWord (f.word 0x27#8)).srcB.toNat with
    | 1 => some (Instr.vqmovVq (RG.ofWord (f.word 0x27#8)))
    | 2 => some (Instr.vqmovQv (RG.ofWord (f.word 0x27#8)))
    | _ => some (Instr.vqmovQq (RG.ofWord (f.word 0x27#8)))) = _
  rw [RG.ofWord_word, hs]
  rfl

theorem RoundTrip.vlqmac (f : RG) : RoundTrip.Statement (.vlqmac f) := fun hl =>
  decodeSlot_of_map (by decide) (RG.word_op 0x28 f) (by decide)
    (congrArg (fun g => some (Instr.vlqmac g)) (RG.ofWord_word 0x28 f)) hl

theorem RoundTrip.vlqadd (f : RG) : RoundTrip.Statement (.vlqadd f) := fun hl =>
  decodeSlot_of_map (by decide) (RG.word_op 0x29 f) (by decide)
    (congrArg (fun g => some (Instr.vlqadd g)) (RG.ofWord_word 0x29 f)) hl

theorem RoundTrip.vlqrnd (f : RG) : RoundTrip.Statement (.vlqrnd f) := fun hl =>
  decodeSlot_of_map (by decide) (RG.word_op 0x2a f) (by decide)
    (congrArg (fun g => some (Instr.vlqrnd g)) (RG.ofWord_word 0x2a f)) hl

theorem RoundTrip.vlqclr (f : RG) : RoundTrip.Statement (.vlqclr f) := fun hl =>
  decodeSlot_of_map (by decide) (RG.word_op 0x2b f) (by decide)
    (congrArg (fun g => some (Instr.vlqclr g)) (RG.ofWord_word 0x2b f)) hl

theorem RoundTrip.vpiv (f : RG) : RoundTrip.Statement (.vpiv f) := fun hl =>
  decodeSlot_of_map (by decide) (RG.word_op 0x30 f) (by decide)
    (congrArg (fun g => some (Instr.vpiv g)) (RG.ofWord_word 0x30 f)) hl

theorem RoundTrip.vcvt (f : RG) : RoundTrip.Statement (.vcvt f) := fun hl =>
  decodeSlot_of_map (by decide) (RG.word_op 0x1 f) (by decide)
    (congrArg (fun g => some (Instr.vcvt g)) (RG.ofWord_word 0x1 f)) hl

theorem RoundTrip.vpack4 (f : RG) : RoundTrip.Statement (.vpack4 f) := fun hl =>
  decodeSlot_of_map (by decide) (RG.word_op 0x2 f) (by decide)
    (congrArg (fun g => some (Instr.vpack4 g)) (RG.ofWord_word 0x2 f)) hl

theorem RoundTrip.vunpack4 (f : RG) : RoundTrip.Statement (.vunpack4 f) := fun hl =>
  decodeSlot_of_map (by decide) (RG.word_op 0x3 f) (by decide)
    (congrArg (fun g => some (Instr.vunpack4 g)) (RG.ofWord_word 0x3 f)) hl

theorem RoundTrip.vperm (f : RG) : RoundTrip.Statement (.vperm f) := fun hl =>
  decodeSlot_of_map (by decide) (RG.word_op 0x4 f) (by decide)
    (congrArg (fun g => some (Instr.vperm g)) (RG.ofWord_word 0x4 f)) hl

theorem RoundTrip.vrotl (f : RG) : RoundTrip.Statement (.vrotl f) := fun hl =>
  decodeSlot_of_map (by decide) (RG.word_op 0x5 f) (by decide)
    (congrArg (fun g => some (Instr.vrotl g)) (RG.ofWord_word 0x5 f)) hl

theorem RoundTrip.vslide (f : RG) : RoundTrip.Statement (.vslide f) := fun hl =>
  decodeSlot_of_map (by decide) (RG.word_op 0x6 f) (by decide)
    (congrArg (fun g => some (Instr.vslide g)) (RG.ofWord_word 0x6 f)) hl

theorem RoundTrip.vbcast (f : RG) : RoundTrip.Statement (.vbcast f) := fun hl =>
  decodeSlot_of_map (by decide) (RG.word_op 0x7 f) (by decide)
    (congrArg (fun g => some (Instr.vbcast g)) (RG.ofWord_word 0x7 f)) hl

theorem RoundTrip.viota (f : RG) : RoundTrip.Statement (.viota f) := fun hl =>
  decodeSlot_of_map (by decide) (RG.word_op 0x8 f) (by decide)
    (congrArg (fun g => some (Instr.viota g)) (RG.ofWord_word 0x8 f)) hl

theorem RoundTrip.vmov (f : RG) : RoundTrip.Statement (.vmov f) := fun hl =>
  decodeSlot_of_map (by decide) (RG.word_op 0x9 f) (by decide)
    (congrArg (fun g => some (Instr.vmov g)) (RG.ofWord_word 0x9 f)) hl

theorem RoundTrip.vext (f : RG) : RoundTrip.Statement (.vext f) := fun hl =>
  decodeSlot_of_map (by decide) (RG.word_op 0xa f) (by decide)
    (congrArg (fun g => some (Instr.vext g)) (RG.ofWord_word 0xa f)) hl

theorem RoundTrip.vins (f : RG) : RoundTrip.Statement (.vins f) := fun hl =>
  decodeSlot_of_map (by decide) (RG.word_op 0xb f) (by decide)
    (congrArg (fun g => some (Instr.vins g)) (RG.ofWord_word 0xb f)) hl

theorem RoundTrip.vrand (f : RG) : RoundTrip.Statement (.vrand f) := fun hl =>
  decodeSlot_of_map (by decide) (RG.word_op 0xc f) (by decide)
    (congrArg (fun g => some (Instr.vrand g)) (RG.ofWord_word 0xc f)) hl

theorem RoundTrip.vtopk (f : RG) : RoundTrip.Statement (.vtopk f) := fun hl =>
  decodeSlot_of_map (by decide) (RG.word_op 0xd f) (by decide)
    (congrArg (fun g => some (Instr.vtopk g)) (RG.ofWord_word 0xd f)) hl

theorem RoundTrip.vdigest (f : RG) : RoundTrip.Statement (.vdigest f) := fun hl =>
  decodeSlot_of_map (by decide) (RG.word_op 0xe f) (by decide)
    (congrArg (fun g => some (Instr.vdigest g)) (RG.ofWord_word 0xe f)) hl

theorem RoundTrip.vrecip (f : RG) : RoundTrip.Statement (.vrecip f) := fun hl =>
  decodeSlot_of_map (by decide) (RG.word_op 0x10 f) (by decide)
    (congrArg (fun g => some (Instr.vrecip g)) (RG.ofWord_word 0x10 f)) hl

theorem RoundTrip.vrsqrt (f : RG) : RoundTrip.Statement (.vrsqrt f) := fun hl =>
  decodeSlot_of_map (by decide) (RG.word_op 0x11 f) (by decide)
    (congrArg (fun g => some (Instr.vrsqrt g)) (RG.ofWord_word 0x11 f)) hl

theorem RoundTrip.vsqrt (f : RG) : RoundTrip.Statement (.vsqrt f) := fun hl =>
  decodeSlot_of_map (by decide) (RG.word_op 0x12 f) (by decide)
    (congrArg (fun g => some (Instr.vsqrt g)) (RG.ofWord_word 0x12 f)) hl

theorem RoundTrip.vexp2 (f : RG) : RoundTrip.Statement (.vexp2 f) := fun hl =>
  decodeSlot_of_map (by decide) (RG.word_op 0x13 f) (by decide)
    (congrArg (fun g => some (Instr.vexp2 g)) (RG.ofWord_word 0x13 f)) hl

theorem RoundTrip.vlog2 (f : RG) : RoundTrip.Statement (.vlog2 f) := fun hl =>
  decodeSlot_of_map (by decide) (RG.word_op 0x14 f) (by decide)
    (congrArg (fun g => some (Instr.vlog2 g)) (RG.ofWord_word 0x14 f)) hl

theorem RoundTrip.vtanh (f : RG) : RoundTrip.Statement (.vtanh f) := fun hl =>
  decodeSlot_of_map (by decide) (RG.word_op 0x15 f) (by decide)
    (congrArg (fun g => some (Instr.vtanh g)) (RG.ofWord_word 0x15 f)) hl

theorem RoundTrip.vsigm (f : RG) : RoundTrip.Statement (.vsigm f) := fun hl =>
  decodeSlot_of_map (by decide) (RG.word_op 0x16 f) (by decide)
    (congrArg (fun g => some (Instr.vsigm g)) (RG.ofWord_word 0x16 f)) hl

theorem RoundTrip.pand (f : RG) : RoundTrip.Statement (.pand f) := fun hl =>
  decodeSlot_of_map (by decide) (RG.word_op 0x20 f) (by decide)
    (congrArg (fun g => some (Instr.pand g)) (RG.ofWord_word 0x20 f)) hl

theorem RoundTrip.por (f : RG) : RoundTrip.Statement (.por f) := fun hl =>
  decodeSlot_of_map (by decide) (RG.word_op 0x21 f) (by decide)
    (congrArg (fun g => some (Instr.por g)) (RG.ofWord_word 0x21 f)) hl

theorem RoundTrip.pxor (f : RG) : RoundTrip.Statement (.pxor f) := fun hl =>
  decodeSlot_of_map (by decide) (RG.word_op 0x22 f) (by decide)
    (congrArg (fun g => some (Instr.pxor g)) (RG.ofWord_word 0x22 f)) hl

theorem RoundTrip.pnot (f : RG) : RoundTrip.Statement (.pnot f) := fun hl =>
  decodeSlot_of_map (by decide) (RG.word_op 0x23 f) (by decide)
    (congrArg (fun g => some (Instr.pnot g)) (RG.ofWord_word 0x23 f)) hl

theorem RoundTrip.pset (f : RG) : RoundTrip.Statement (.pset f) := fun hl =>
  decodeSlot_of_map (by decide) (RG.word_op 0x24 f) (by decide)
    (congrArg (fun g => some (Instr.pset g)) (RG.ofWord_word 0x24 f)) hl

theorem RoundTrip.mcfg (f : Beat) : RoundTrip.Statement (.mcfg f) := fun hl =>
  decodeSlot_of_map (by decide) (Beat.word_op 0x1 f) (by decide)
    (congrArg (fun g => some (Instr.mcfg g)) (Beat.ofWord_word 0x1 f)) hl

theorem RoundTrip.macc (f : Beat) : RoundTrip.Statement (.macc f) := fun hl =>
  decodeSlot_of_map (by decide) (Beat.word_op 0x2 f) (by decide)
    (congrArg (fun g => some (Instr.macc g)) (Beat.ofWord_word 0x2 f)) hl

theorem RoundTrip.mshift (f : Beat) : RoundTrip.Statement (.mshift f) := fun hl =>
  decodeSlot_of_map (by decide) (Beat.word_op 0x3 f) (by decide)
    (congrArg (fun g => some (Instr.mshift g)) (Beat.ofWord_word 0x3 f)) hl

theorem RoundTrip.mscale (f : Beat) : RoundTrip.Statement (.mscale f) := fun hl =>
  decodeSlot_of_map (by decide) (Beat.word_op 0x4 f) (by decide)
    (congrArg (fun g => some (Instr.mscale g)) (Beat.ofWord_word 0x4 f)) hl

theorem RoundTrip.mdrain (f : Beat) : RoundTrip.Statement (.mdrain f) := fun hl =>
  decodeSlot_of_map (by decide) (Beat.word_op 0x5 f) (by decide)
    (congrArg (fun g => some (Instr.mdrain g)) (Beat.ofWord_word 0x5 f)) hl

theorem RoundTrip.mdrainq (f : Beat) : RoundTrip.Statement (.mdrainq f) := fun hl =>
  decodeSlot_of_map (by decide) (Beat.word_op 0x6 f) (by decide)
    (congrArg (fun g => some (Instr.mdrainq g)) (Beat.ofWord_word 0x6 f)) hl

theorem RoundTrip.mclr (f : Beat) : RoundTrip.Statement (.mclr f) := fun hl =>
  decodeSlot_of_map (by decide) (Beat.word_op 0x7 f) (by decide)
    (congrArg (fun g => some (Instr.mclr g)) (Beat.ofWord_word 0x7 f)) hl

theorem RoundTrip.msave (f : Beat) : RoundTrip.Statement (.msave f) := fun hl =>
  decodeSlot_of_map (by decide) (Beat.word_op 0x8 f) (by decide)
    (congrArg (fun g => some (Instr.msave g)) (Beat.ofWord_word 0x8 f)) hl

theorem RoundTrip.mrestore (f : Beat) : RoundTrip.Statement (.mrestore f) := fun hl =>
  decodeSlot_of_map (by decide) (Beat.word_op 0x9 f) (by decide)
    (congrArg (fun g => some (Instr.mrestore g)) (Beat.ofWord_word 0x9 f)) hl

theorem RoundTrip.mbar (f : Beat) : RoundTrip.Statement (.mbar f) := fun hl =>
  decodeSlot_of_map (by decide) (Beat.word_op 0xa f) (by decide)
    (congrArg (fun g => some (Instr.mbar g)) (Beat.ofWord_word 0xa f)) hl

theorem RoundTrip.cqpush (f : Copy) : RoundTrip.Statement (.cqpush f) := fun hl =>
  decodeSlot_of_map (by decide) (Copy.word_op 0x1 f) (by decide)
    (congrArg (fun g => some (Instr.cqpush g)) (Copy.ofWord_word 0x1 f)) hl

theorem RoundTrip.cwait (f : Copy) : RoundTrip.Statement (.cwait f) := fun hl =>
  decodeSlot_of_map (by decide) (Copy.word_op 0x2 f) (by decide)
    (congrArg (fun g => some (Instr.cwait g)) (Copy.ofWord_word 0x2 f)) hl

theorem RoundTrip.cdone (f : Copy) : RoundTrip.Statement (.cdone f) := fun hl =>
  decodeSlot_of_map (by decide) (Copy.word_op 0x3 f) (by decide)
    (congrArg (fun g => some (Instr.cdone g)) (Copy.ofWord_word 0x3 f)) hl

theorem RoundTrip.ckick (f : Copy) : RoundTrip.Statement (.ckick f) := fun hl =>
  decodeSlot_of_map (by decide) (Copy.word_op 0x4 f) (by decide)
    (congrArg (fun g => some (Instr.ckick g)) (Copy.ofWord_word 0x4 f)) hl

theorem RoundTrip.cqres (f : Copy) : RoundTrip.Statement (.cqres f) := fun hl =>
  decodeSlot_of_map (by decide) (Copy.word_op 0x5 f) (by decide)
    (congrArg (fun g => some (Instr.cqres g)) (Copy.ofWord_word 0x5 f)) hl

theorem RoundTrip.resultLanding : RoundTrip.Statement .resultLanding := trivial

theorem RoundTrip.storeWrite : RoundTrip.Statement .storeWrite := trivial

theorem RoundTrip.trapEntry : RoundTrip.Statement .trapEntry := trivial

theorem RoundTrip.waitSatisfied : RoundTrip.Statement .waitSatisfied := trivial

theorem RoundTrip.gangStopSignal : RoundTrip.Statement .gangStopSignal := trivial

theorem RoundTrip.preemptRequest : RoundTrip.Statement .preemptRequest := trivial

theorem RoundTrip.taskStart : RoundTrip.Statement .taskStart := trivial

theorem RoundTrip.writeQueueDepart : RoundTrip.Statement .writeQueueDepart := trivial

theorem RoundTrip.requestQueueDepart : RoundTrip.Statement .requestQueueDepart := trivial

theorem RoundTrip.remoteApply : RoundTrip.Statement .remoteApply := trivial

theorem RoundTrip.timedRelease : RoundTrip.Statement .timedRelease := trivial

theorem RoundTrip.doneshPublication : RoundTrip.Statement .doneshPublication := trivial

theorem RoundTrip.gatePublication : RoundTrip.Statement .gatePublication := trivial

theorem RoundTrip.tokenDivision : RoundTrip.Statement .tokenDivision := trivial

theorem RoundTrip.gatePostArrival : RoundTrip.Statement .gatePostArrival := trivial

theorem RoundTrip.waiterRecord : RoundTrip.Statement .waiterRecord := trivial

theorem RoundTrip.moveInstall : RoundTrip.Statement .moveInstall := trivial

theorem RoundTrip.barrierArrival : RoundTrip.Statement .barrierArrival := trivial

theorem RoundTrip.barrierRelease : RoundTrip.Statement .barrierRelease := trivial

theorem RoundTrip.kick : RoundTrip.Statement .kick := trivial

theorem RoundTrip.claim : RoundTrip.Statement .claim := trivial

theorem RoundTrip.consumerSweep : RoundTrip.Statement .consumerSweep := trivial

theorem RoundTrip.contentWindowExpiry : RoundTrip.Statement .contentWindowExpiry := trivial

theorem RoundTrip.packetBegin : RoundTrip.Statement .packetBegin := trivial

theorem RoundTrip.packetCompletion : RoundTrip.Statement .packetCompletion := trivial

theorem RoundTrip.copyV1 : RoundTrip.Statement .copyV1 := trivial

theorem RoundTrip.copyV2 : RoundTrip.Statement .copyV2 := trivial

theorem RoundTrip.tile2d : RoundTrip.Statement .tile2d := trivial

theorem RoundTrip.mcast2d : RoundTrip.Statement .mcast2d := trivial

theorem RoundTrip.fill : RoundTrip.Statement .fill := trivial

theorem RoundTrip.packetFence : RoundTrip.Statement .packetFence := trivial

theorem RoundTrip.mark : RoundTrip.Statement .mark := trivial

theorem RoundTrip.signal : RoundTrip.Statement .signal := trivial

theorem RoundTrip.prefetch : RoundTrip.Statement .prefetch := trivial

theorem RoundTrip.migrate : RoundTrip.Statement .migrate := trivial

theorem RoundTrip.launch : RoundTrip.Statement .launch := trivial

theorem RoundTrip.launchDepsMet : RoundTrip.Statement .launchDepsMet := trivial

theorem RoundTrip.launchCheck : RoundTrip.Statement .launchCheck := trivial

theorem RoundTrip.placementDecision : RoundTrip.Statement .placementDecision := trivial

theorem RoundTrip.groupLoaded : RoundTrip.Statement .groupLoaded := trivial

theorem RoundTrip.launchDone : RoundTrip.Statement .launchDone := trivial

theorem RoundTrip.sliceEnd : RoundTrip.Statement .sliceEnd := trivial

theorem RoundTrip.watchdog : RoundTrip.Statement .watchdog := trivial

theorem RoundTrip.groupSave : RoundTrip.Statement .groupSave := trivial

theorem RoundTrip.groupResume : RoundTrip.Statement .groupResume := trivial

theorem RoundTrip.contextSuspended : RoundTrip.Statement .contextSuspended := trivial

theorem RoundTrip.fatalTeardown : RoundTrip.Statement .fatalTeardown := trivial

theorem RoundTrip.ctxCreate : RoundTrip.Statement .ctxCreate := trivial

theorem RoundTrip.ctxSuspend : RoundTrip.Statement .ctxSuspend := trivial

theorem RoundTrip.ctxResume : RoundTrip.Statement .ctxResume := trivial

theorem RoundTrip.ctxDestroy : RoundTrip.Statement .ctxDestroy := trivial

theorem RoundTrip.seal : RoundTrip.Statement .seal := trivial

theorem RoundTrip.restore : RoundTrip.Statement .restore := trivial

theorem RoundTrip.rehome : RoundTrip.Statement .rehome := trivial

theorem RoundTrip.placeSet : RoundTrip.Statement .placeSet := trivial

theorem RoundTrip.slotSet : RoundTrip.Statement .slotSet := trivial

theorem RoundTrip.slotFrameBoundary : RoundTrip.Statement .slotFrameBoundary := trivial

theorem RoundTrip.mapEntry : RoundTrip.Statement .mapEntry := trivial

theorem RoundTrip.mapRange : RoundTrip.Statement .mapRange := trivial

theorem RoundTrip.mapRoots : RoundTrip.Statement .mapRoots := trivial

theorem RoundTrip.mapRings : RoundTrip.Statement .mapRings := trivial

theorem RoundTrip.unmap : RoundTrip.Statement .unmap := trivial

theorem RoundTrip.invalidate : RoundTrip.Statement .invalidate := trivial

theorem RoundTrip.harvest : RoundTrip.Statement .harvest := trivial

theorem RoundTrip.faultResume : RoundTrip.Statement .faultResume := trivial

theorem RoundTrip.gateCreate : RoundTrip.Statement .gateCreate := trivial

theorem RoundTrip.gateOpen : RoundTrip.Statement .gateOpen := trivial

theorem RoundTrip.gateClose : RoundTrip.Statement .gateClose := trivial

theorem RoundTrip.gateSetacl : RoundTrip.Statement .gateSetacl := trivial

theorem RoundTrip.gateMove : RoundTrip.Statement .gateMove := trivial

theorem RoundTrip.gateRevoke : RoundTrip.Statement .gateRevoke := trivial

theorem RoundTrip.gateFree : RoundTrip.Statement .gateFree := trivial

theorem RoundTrip.gateFreefwd : RoundTrip.Statement .gateFreefwd := trivial

theorem RoundTrip.queueCreate : RoundTrip.Statement .queueCreate := trivial

theorem RoundTrip.queueDestroy : RoundTrip.Statement .queueDestroy := trivial

theorem RoundTrip.queueReset : RoundTrip.Statement .queueReset := trivial

theorem RoundTrip.interfaceBind : RoundTrip.Statement .interfaceBind := trivial

theorem RoundTrip.interfaceRevoke : RoundTrip.Statement .interfaceRevoke := trivial

theorem RoundTrip.interfaceRelease : RoundTrip.Statement .interfaceRelease := trivial

theorem RoundTrip.interfaceRevoked : RoundTrip.Statement .interfaceRevoked := trivial

theorem RoundTrip.linkCmdRetrain : RoundTrip.Statement .linkCmdRetrain := trivial

theorem RoundTrip.linkCmdDown : RoundTrip.Statement .linkCmdDown := trivial

theorem RoundTrip.linkCmdTrain : RoundTrip.Statement .linkCmdTrain := trivial

theorem RoundTrip.peerTraining : RoundTrip.Statement .peerTraining := trivial

theorem RoundTrip.trainingResult : RoundTrip.Statement .trainingResult := trivial

theorem RoundTrip.crcRetry : RoundTrip.Statement .crcRetry := trivial

theorem RoundTrip.syncFlit : RoundTrip.Statement .syncFlit := trivial

theorem RoundTrip.powerReqFull : RoundTrip.Statement .powerReqFull := trivial

theorem RoundTrip.powerReqReduced : RoundTrip.Statement .powerReqReduced := trivial

theorem RoundTrip.powerReqRetention : RoundTrip.Statement .powerReqRetention := trivial

theorem RoundTrip.powerReqOff : RoundTrip.Statement .powerReqOff := trivial

theorem RoundTrip.powerTransitionDone : RoundTrip.Statement .powerTransitionDone := trivial

theorem RoundTrip.registerWrite : RoundTrip.Statement .registerWrite := trivial

theorem RoundTrip.hostCxlMemAccess : RoundTrip.Statement .hostCxlMemAccess := trivial

theorem RoundTrip.pullRequest : RoundTrip.Statement .pullRequest := trivial

theorem RoundTrip.pullReceived : RoundTrip.Statement .pullReceived := trivial

theorem RoundTrip.pullTimeout : RoundTrip.Statement .pullTimeout := trivial

theorem RoundTrip.pullsComplete : RoundTrip.Statement .pullsComplete := trivial

theorem RoundTrip.lineageRequest : RoundTrip.Statement .lineageRequest := trivial

theorem RoundTrip.remoteRecordQuery : RoundTrip.Statement .remoteRecordQuery := trivial

theorem RoundTrip.homeunreach : RoundTrip.Statement .homeunreach := trivial

theorem RoundTrip.moduleReset : RoundTrip.Statement .moduleReset := trivial

theorem RoundTrip.domainBringUp : RoundTrip.Statement .domainBringUp := trivial

theorem RoundTrip.partitionChangeReport : RoundTrip.Statement .partitionChangeReport := trivial

end Laws
end Sys2Proof
end

