-- ==== Sys2Proof/Tests/Slice0.lean ====
section
/-! SUPPORT. Tests: ill-formed terms that the check refuses, words of the encoding tables, the worked examples of the spec, single steps,
and for every statement a state and operands that meet its hypotheses together. -/

namespace Sys2Proof.Machine
set_option Elab.async false

/-! ### Well-formedness (spec/04_bundles.md R80-R97) -/

def tRG (d a b p : Nat) : RG := { dst := .ofNat 6 d, srcA := .ofNat 7 a, srcB := .ofNat 7 b, pred := .ofNat 3 p, nwb := false }
def tRI (d a i : Nat) : RI := { dst := .ofNat 6 d, srcA := .ofNat 7 a, imm := .ofNat 11 i }
def tMem (r b m o p : Nat) : Mem := { reg := .ofNat 6 r, base := .ofNat 4 b, mode := .ofNat 2 m, off := .ofNat 9 o, pred := .ofNat 3 p }
def tSync (d a o c : Nat) : Sync := { dst := .ofNat 6 d, srcA := .ofNat 7 a, obj := .ofNat 8 o, scope := .ofNat 3 c }
def tBeat (a b r f : Nat) (p : Bool) : Beat := { srcA := .ofNat 7 a, srcB := .ofNat 7 b, row := .ofNat 4 r, plane := p, flags := .ofNat 5 f }
def tAtomic (d b z x : Nat) : Atomic := { dst := .ofNat 6 d, base := .ofNat 4 b, size := .ofNat 2 z, srcB := .ofNat 7 x, es := 0, pred := 0 }
def tRemote (d p m : Nat) (g t : Bool) : Remote :=
  { data := .ofNat 6 d, place := .ofNat 6 p, mid := .ofNat 8 m, sig := g, chan := 0, timed := t }
def tCopy (r b n p : Nat) : Copy := { reg := .ofNat 6 r, srcB := .ofNat 7 b, bnd := .ofNat 8 n, pred := .ofNat 3 p }

/-- Scalar instructions: a reserved operand code, an unused field, an immediate, a format, a register class. -/
theorem test_illformed_scalar : ([.add (tRG 1 0x43 2 0), .add (tRG 1 2 0x5E 0), .clz (tRG 1 2 1 0), .shli (tRI 1 2 64), .addi (tRI 1 0x58 0),
    .fcvt (tRG 1 2 0x20 0), .fcvt (tRG 1 2 2 0), .fsqrt (tRG 1 2 1 0), .amov (tRG 16 2 0 0), .aread (tRG 1 16 0 0), .aread (tRG 1 0 6 0),
    .lidx (tRI 1 0 6), .csrr (tRI 1 1 0), .csrw (tRI 1 1 1), .topo (tRI 1 0 14), .rdcyc (tRG 1 0 1 0), .pany (tRG 1 8 0 0), .pcnt (tRG 1 0 4 0)] :
    List Instr).all (fun i => !i.legal) = true := by decide
/-- Control: loop lengths, break counts and operand codes. -/
theorem test_illformed_control : ([.brz false 0x43 0, .jmp false 0x47, .loop false 1 0, .loopm false 1 0 0, .brk false 1 6, .waitc false 0x5E] :
    List Instr).all (fun i => !i.legal) = true := by decide
/-- Loads and stores: mode 0b11, unused bits, register classes, atomics and remote forms. -/
theorem test_illformed_memory : ([.ldb (tMem 1 0 3 0 0), .ldb (tMem 1 0 1 1 0), .ldb (tMem 1 0 2 1 0), .vld (tMem 32 0 0 0 0), .vlds (tMem 1 0 0 0 0),
    .vgather (tMem 1 0 2 (0x24 * 4) 0), .vldb (tMem 1 0 0 0 0), .pld (tMem 8 0 0 0 0), .kld (tMem 1 0 0 0 0), .amoadd (tAtomic 1 0 1 0),
    .amofadd (tAtomic 1 0 3 0), .amotadd (tAtomic 1 0 3 0), .rput (tRemote 0 1 1 false false), .rput (tRemote 0 63 0 false true),
    .rputv (tRemote 32 0 0 false false), .ramo (tRemote 0 0 0xA0 false false), .ramo (tRemote 0 0 0x01 false false),
    .ramo (tRemote 0 0 0x88 false false)] : List Instr).all (fun i => !i.legal) = true := by decide
/-- Synchronisation: unused fields, barrier numbers, fence paths and scopes. -/
theorem test_illformed_sync : ([.sinc (tSync 1 0 0 0), .sinc (tSync 0 0 0 1), .swaite (tSync 0 1 0 0), .sread (tSync 0 1 0 0), .bararr (tSync 0 0 32 0),
    .fence (tSync 0 0 0 0), .fence (tSync 0 0 64 0), .fence (tSync 0 0 1 5), .fencemark (tSync 0 0 1 0), .gpost (tSync 1 0 0 0),
    .gtry (tSync 0 0 1 0)] : List Instr).all (fun i => !i.legal) = true := by decide
/-- Vector instructions: register classes, reserved codes, unused fields, quire numbers, T4 pairs. -/
theorem test_illformed_vector : ([.vsetf (tRG 0 0 32 0), .vadd (tRG 32 0 0 0), .vadd (tRG 0 0x24 0 0), .vabs (tRG 0 0 1 0), .vcmpeq (tRG 8 0 0 0),
    .vqadd (tRG 0 8 0 0), .vqacc (tRG 0 0 1 0), .vqrnd (tRG 0 0 0x43 0), .vqclr (tRG 0 1 0 0), .vqmovVq (tRG 0 0 0 0), .vqmovQv (tRG 0 0 0 0),
    .vlqmac (tRG 2 0 0 0), .vlqrnd (tRG 0 4 0 0), .vcvt (tRG 0 0 2 0), .vpack4 (tRG 1 0 0 0), .vpack4 (tRG 0 0 8 0), .vunpack4 (tRG 0 1 0 0),
    .viota (tRG 0 0 1 0), .pand (tRG 0 8 0 0), .pand (tRG 0 0 0 1), .pset (tRG 0 0 4 0)] : List Instr).all (fun i => !i.legal) = true := by decide
/-- Matrix beats and copy forms: configurations, sources, unused fields, chunk numbers. -/
theorem test_illformed_matrix : ([.mcfg (tBeat 4 8 0 4 false), .mcfg (tBeat 4 4 0 4 true), .macc (tBeat 0 0 0 16 false), .macc (tBeat 0 0 0 4 false),
    .macc (tBeat 1 0 0 0 false), .mshift (tBeat 0 0 0 0 true), .mscale (tBeat 0 0 0 16 false), .mdrain (tBeat 32 0 0 0 false),
    .mdrainq (tBeat 0 0 0 0 false), .mclr (tBeat 0 0 1 0 false), .msave (tBeat 0x40 69 0 0 false), .mbar (tBeat 1 0 0 0 false),
    .cqpush (tCopy 0 0x43 0 0), .cwait (tCopy 1 0 0 0), .cdone (tCopy 0 1 0 0), .ckick (tCopy 1 0 0 0)] : List Instr).all
    (fun i => !i.legal) = true := by decide

/-! ### Decoding, by words written from the fields of the encodings (spec/04_bundles.md R81-R105) -/

theorem test_word_scalar : (decodeSlot .SA 0x011435F0).toOption = some (.add (tRG 5 6 0x5F 0)) ∧ (decodeSlot .SA 0xF09FFFFE).toOption = some (.movi ⟨9, 0xFFFFE⟩) ∧
    (decodeSlot .SB 0xF4600123).toOption = some (.movhi ⟨6, 0x00123⟩) := by decide
theorem test_word_control : (decodeSlot .K 0x8309FFFF).toOption = some (.brnz true 4 0x1FFFF) ∧ (decodeSlot .K 0x09161600).toOption = some (.loopm false 11 1 3) ∧
    (decodeSlot .K 0x15000003).toOption = some (.stg false 3) := by decide
theorem test_word_memory : (decodeSlot .LS 0x051C8010).toOption = some (.ldw (tMem 7 2 0 2 0)) ∧ (decodeSlot .LS 0x201C6060).toOption = some (.amoadd (tAtomic 7 1 2 3)) ∧
    (decodeSlot .LS 0x30109038).toOption = some (.rput (tRemote 4 9 3 true false)) := by decide
theorem test_word_sync : (decodeSlot .LS 0x39005018).toOption = some (.swait (tSync 0 10 3 0)) ∧ (decodeSlot .LS 0x48000032).toOption = some (.fence (tSync 0 0 6 2)) ∧
    (decodeSlot .LS 0x49000000).toOption = some (.fencemark (tSync 0 0 0 0)) := by decide
theorem test_word_vector : (decodeSlot .VA 0x020C2420).toOption = some (.vadd (tRG 3 4 0x42 0)) ∧ (decodeSlot .VA 0x0102F8F0).toOption = some (.vsetf (tRG 0 0x5F 0xF 0)) ∧
    (decodeSlot .VA 0x26080000).toOption = some (.vqclr (tRG 2 0 0 0)) ∧ (decodeSlot .VB 0x24043800).toOption = some (.pset (tRG 1 7 0 0)) ∧
    (decodeSlot .VB 0x0A0C3000).toOption = some (.vext (tRG 3 6 0 0)) := by decide
theorem test_word_matrix : (decodeSlot .MX 0x01081009).toOption = some (.mcfg (tBeat 4 4 0 9 false)) ∧ (decodeSlot .MX 0x0283080B).toOption = some (.macc (tBeat 0x41 0x42 0 0xB false)) ∧
    (decodeSlot .MX 0x05100000).toOption = some (.mdrain (tBeat 8 0 0 0 false)) ∧ (decodeSlot .MX 0x07000011).toOption = some (.mclr (tBeat 0 0 0 0x11 false)) := by decide

/-! ### Test states -/

/-- A tile that issues alone with a handler at 0x40, on a module that is READY, with memory that reads zero. -/
def tBase : State :=
  { State.reset with
    dev := .empty
    globals := { Globals.reset with boot := 7 }
    tile := { Tile.reset with place := { Place.zero with status := .issuing, entryPoint := some 0x40 } } }
def State.tFmt (s : State) (w : W32) : State := s.onTile (·.onCsr fun c => { c with vfmt := w })
def State.tS (s : State) (l : List (Nat × W64)) : State :=
  s.onTile (·.onRegs fun r => { r with s := l.foldl (fun v e => wr v e.1 e.2) r.s })
def State.tA (s : State) (w : W32) : State := s.onTile (·.onRegs fun r => { r with a := wr r.a 1 w })
/-- In a handler. -/
def tHandler : State := tBase.onCtl fun c => { c with handler := true }
def tInfo : TrapInfo := { cause := 0x08, tval := 0, epc := 0, resume := 0x20, self := true, rewait := [] }

theorem tBase_traps : tBase.trapsAt 0x40 := ⟨rfl, Nat.zero_le 1, rfl⟩
theorem tFmt_traps (w : W32) : (tBase.tFmt w).trapsAt 0x40 := ⟨rfl, Nat.zero_le 1, rfl⟩
theorem tS_traps (l : List (Nat × W64)) : (tBase.tS l).trapsAt 0x40 := ⟨rfl, Nat.zero_le 1, rfl⟩
theorem tA_traps (w : W32) : (tBase.tA w).trapsAt 0x40 := ⟨rfl, Nat.zero_le 1, rfl⟩
theorem tIo_traps (f : Ports → Ports) : (tBase.onIo f).trapsAt 0x40 := ⟨rfl, Nat.zero_le 1, rfl⟩
theorem tMx_traps (f : Mx → Mx) : (tBase.onMx f).trapsAt 0x40 := ⟨rfl, Nat.zero_le 1, rfl⟩

/-! ### Witnesses: for every clause of a statement that has hypotheses, a state and operands that meet all of them together -/

theorem witness_EncodeDecode : (Instr.add (tRG 5 6 0x5F 0)).home = some .SA ∧ (Instr.add (tRG 5 6 0x5F 0)).WellFormed := by decide
theorem witness_DecodeEncode : (decodeSlot .CP 0x03000000).toOption = some (.cdone (tCopy 0 0 0 0)) := by decide
theorem witness_NopSyllable : (slotOpcode .SA 1 = 0 ∧ (1 : W32) ≠ 0 ∧ (Slot.SA = .K → (1 : W32) ≠ 0x80000000)) ∧
    (slotOpcode .K 1 = 0 ∧ (1 : W32) ≠ 0 ∧ (Slot.K = .K → (1 : W32) ≠ 0x80000000)) ∧
    firstError .illegalOp (decodeAll ((1 : Bundle) <<< 32)) = some 1 := by decide +kernel
theorem witness_LittleEndian : (Memory.empty.wf = true ∧ 0 < 4) ∧ (3 < 4 ∨ 4 + 4 ≤ 3) ∧ (8 < 4 ∨ 4 + 4 ≤ 8) := by decide
theorem witness_LittleEndian_equal :
    let m := Memory.empty.writeNat 4 1 7
    m.wf = true ∧ m.wf = true ∧ m.epoch = m.epoch ∧ (∀ a, m.read a = m.read a) := ⟨by decide, by decide, rfl, fun _ => rfl⟩
theorem witness_MemoryStaysCanonical : State.reset.memOk = true ∧ ∃ t, step State.reset = .next t := ⟨by decide +kernel, _, rfl⟩

/-- The most negative number divided by minus one. -/
theorem witness_IntegerArithmetic :
    let s := tBase.tS [(1, 0x8000000000000000), (2, 0xFFFFFFFFFFFFFFFF)]
    let f := tRG 3 1 2 0
    s.tile.predOn f.pred = true ∧ (s.tile.scalar f.srcA).toInt = -2 ^ 63 ∧ (s.tile.scalar f.srcB).toInt = -1 := by decide +kernel
theorem witness_LogicAndImmediates_logic : (tBase.tS [(1, 5)]).tile.predOn (tRG 3 1 2 0).pred = true := by decide +kernel
theorem witness_CountsAndBitfields : (tBase.tS [(1, 0), (2, 0x103F)]).tile.predOn (tRG 3 1 2 0).pred = true := by decide +kernel
theorem witness_AddressInstructions : (tBase.tS [(1, 5)]).tile.predOn (tRG 15 1 5 0).pred = true := by decide +kernel
theorem witness_PredicatedOff : tBase.tile.predOn (tRG 3 1 2 1).pred = false ∧ tBase.tile.predOn (tMem 2 1 0 0 1).pred = false ∧
    tBase.tile.predOn ({ tAtomic 1 1 2 2 with pred := 7 } : Atomic).pred = false ∧ tBase.tile.predOn (tCopy 2 1 4 1).pred = false := by decide +kernel
/-- In nearest-even and in stochastic rounding, the latter with scalar 0 as its tensor id. -/
theorem witness_ScalarFormats_float :
    let f := tRG 1 2 0 0
    (tBase.tile.predOn f.pred = true ∧ tBase.tile.rounding fp32 = some .nearest ∧ f.srcB = 0) ∧
      (tBase.tFmt 0x14210).tile.predOn f.pred = true ∧ (tBase.tFmt 0x14210).tile.rounding fp32 = some (.stochastic 0 0) := by decide +kernel
theorem witness_ScalarFormats_convert :
    let t8 : Fmt := .tap 8 0
    (let f := tRG 1 2 0x44 0
     tBase.tile.predOn f.pred = true ∧ Fmt.ofCode (f.srcB.toNat % 32) = some t8 ∧ tBase.tile.rounding (if f.srcB.getLsbD 6 then t8 else fp32) = some .nearest) ∧
    (let f := tRG 1 2 4 0
     tBase.tile.predOn f.pred = true ∧ Fmt.ofCode (f.srcB.toNat % 32) = some t8 ∧ tBase.tile.rounding (if f.srcB.getLsbD 6 then t8 else fp32) = some .nearest) ∧
    (let s := tBase.tFmt 0x1084
     s.tile.predOn (tRG 1 2 3 0).pred = true ∧ s.tile.taperedFmts = some (t8, t8, t8) ∧ s.tile.rounding t8 = some .nearest) := by decide +kernel
/-- An IEEE format, a reserved rounding mode, a reserved format code. -/
theorem witness_ScalarFormats_convert_traps :
    let t8 : Fmt := .tap 8 0
    (tBase.trapsAt 0x40 ∧ tBase.tile.predOn (tRG 1 2 3 0).pred = true ∧ tBase.tile.taperedFmts = none) ∧
    (let s := tBase.tFmt 0x21084
     s.trapsAt 0x40 ∧ s.tile.predOn (tRG 1 2 3 0).pred = true ∧ s.tile.taperedFmts = some (t8, t8, t8) ∧ s.tile.rounding t8 = none) ∧
    (let f := tRG 1 2 0x1F 0
     tBase.trapsAt 0x40 ∧ tBase.tile.predOn f.pred = true ∧ Fmt.ofCode (f.srcB.toNat % 32) = none) ∧
    (let s := tBase.tFmt 0x24210
     let f := tRG 1 2 0x44 0
     s.trapsAt 0x40 ∧ s.tile.predOn f.pred = true ∧ Fmt.ofCode (f.srcB.toNat % 32) = some t8 ∧
       s.tile.rounding (if f.srcB.getLsbD 6 then t8 else fp32) = none) := by unfold State.trapsAt; decide +kernel
theorem witness_ControlRegisters_reads :
    (∀ n ∈ [1, 2, 3, 4, 5, 6, 0x10, 0x11], (tRI 1 0 n).imm.toNat = n) ∧
    (7 < 8 ∧ (tRI 1 0 0x47).imm.toNat = 0x040 + 7 ∧ tHandler.tile.ctl.handler = true) ∧
    (7 < 8 ∧ (tRI 1 0 0x47).imm.toNat = 0x040 + 7 ∧ tBase.trapsAt 0x40) ∧
    (∀ n ∈ [0x3F, 0x48, 0], tBase.trapsAt 0x40 ∧ (tRI 1 0 n).imm.toNat ∉ [0x001, 0x002, 0x003, 0x004, 0x005, 0x006, 0x010, 0x011] ∧
      ((tRI 1 0 n).imm.toNat < 0x040 ∨ 0x048 ≤ (tRI 1 0 n).imm.toNat)) := by unfold State.trapsAt; decide +kernel
theorem witness_ControlRegisters_writes :
    (∀ n ∈ [1, 2, 3, 5], (tRI 0 1 n).imm.toNat = n) ∧ (7 < 8 ∧ (tRI 0 1 0x47).imm.toNat = 0x040 + 7 ∧ tHandler.tile.ctl.handler = true) ∧
    (tBase.trapsAt 0x40 ∧ (tRI 0 1 0x47).imm.toNat ∈ [0x004, 0x006, 0x010, 0x011, 0x040, 0x041, 0x042, 0x043, 0x044, 0x045, 0x046, 0x047]) ∧
    ∀ d ∈ [Dest.vfmt 0xFFFFFFFF, .tstat, .ten, .seed, .sbk 0, .sbk 7],
      let x : Flight := { due := 0, issued := 0, id := 0, syl := 1, dest := d, payload := .word (tBase.tile.scalar 1), flags := 0, nwb := false, latch := none }
      x.payload = .word (tBase.tile.scalar (tRI 0 1 2).srcA) ∧ x.dest = d ∧ x.nwb = false := by unfold State.trapsAt; decide +kernel
/-- The magnitudes 2^24 + 1, halfway between two FP32 words, and 1 of T8; the greatest random word; a 32-bit integer; results with and without a value. -/
theorem witness_RoundedOnce :
    (0 < 0x1000001 ∧ 0 < 1 ∧ 1 < 2 ^ (8 - 1) ∧ (32, 24, 8) ∈ [(32, 24, 8), (16, 8, 8), (16, 11, 5)] ∧ 8 ∈ [4, 8, 16, 32] ∧ 3 < 4 ∧ 0 < 32) ∧
      (∀ r ∈ [(⟨.zero, 0, true⟩ : OpRes)], r.undef = true) ∧ ∀ r ∈ [(⟨.fin false 1 2, 0, false⟩ : OpRes)], r.undef = false := by decide
/-- R64: halfway between two FP32 words, to the even one; with the greatest random word, to the other. -/
theorem test_rounds_half : fp32.rnd (.fin false 0x1000001 1) none = (0x4B800000, Flag.NX) ∧
    fp32.rnd (.fin false 0x1000001 1) (some 0xFFFFFFFF) = (0x4B800001, Flag.NX) := by decide +kernel
theorem witness_TopologyAndSummaries : (∀ n ∈ List.range 14, (tRI 1 0 n).imm.toNat = n) ∧ tBase.tile.predOn (tRG 1 0 0 0).pred = true := by decide +kernel
/-- The last byte, half-word, word and double word of the scratchpad, in each address mode. -/
theorem witness_ScalarAccesses_loads :
    ∀ n ∈ [1, 2, 4, 8],
      let s := tBase.tA (.ofNat 32 (0x60000 - n))
      ∀ mode ∈ [0, 1, 2],
        let f := tMem 2 1 mode 0 0
        s.tile.predOn f.pred = true ∧ s.tile.ecc = [] ∧ f.mode.toNat = mode ∧ s.tile.offset f n + n ≤ 0x60000 ∧ s.tile.offset f n % n = 0 := by decide +kernel
theorem witness_ScalarAccesses_stores :
    let f := tMem 2 1 0 0 0
    ∀ n ∈ [1, 2, 4, 8],
      let s := tBase.tA (.ofNat 32 (0x60000 - n))
      s.tile.predOn f.pred = true ∧ s.tile.offset f n + n ≤ 0x60000 ∧ s.tile.offset f n % n = 0 := by decide +kernel
theorem witness_ScalarAccesses_checks :
    let f := tMem 2 1 0 0 0
    ∀ n ∈ [1, 2, 4, 8],
      (let s := tBase.tA (.ofNat 32 (0x60000 - n + 1))
       s.tile.predOn f.pred = true ∧ s.trapsAt 0x40 ∧ 0x60000 < s.tile.offset f n + n) ∧
      (1 < n →
        let s := tBase.tA (.ofNat 32 (0x60000 - n - 1))
        s.tile.predOn f.pred = true ∧ s.trapsAt 0x40 ∧ s.tile.offset f n + n ≤ 0x60000 ∧ s.tile.offset f n % n ≠ 0) := by unfold State.trapsAt; decide +kernel
def tStore (k : StoreKind) : Store := { due := 0, issued := 0, kind := k, cells := [(4, 7)] }
def tStores (k : StoreKind) : State := tBase.onIo fun p => { p with stores := [tStore k] }
theorem witness_StoreWrites : ∀ k ∈ [StoreKind.spad, .imem],
    (tStores k).args.flag = false ∧ (tStores k).tile.io.stores = [tStore k] ∧ (tStore k).due ≤ (tStores k).cycle ∧ (tStore k).kind = k := by decide +kernel
/-- Byte 5 is in no due store. -/
theorem witness_StoreWrites_next : (tStores .imem).args.flag = false ∧ (∃ t, exec .storeWrite (tStores .imem) = .next t) ∧
    ∀ x ∈ (tStores .imem).tile.io.stores, x.due ≤ (tStores .imem).cycle → ∀ c ∈ x.cells, c.1 ≠ 5 := ⟨rfl, ⟨_, rfl⟩, by decide +kernel⟩
/-- The last place for each size, and the one after it; offset 8; an ISTORE whose last bundle is off. -/
def State.tP (s : State) (m : PReg) : State := s.onTile (·.onRegs fun r => { r with p := wr r.p 1 m })
theorem witness_VectorLoadsStores :
    let f := tMem 2 1 0 0 0
    (∀ n ∈ [256, 32, 128],
      let s := tBase.tA (.ofNat 32 (0x60000 - n))
      s.tile.ecc = [] ∧ s.tile.predOn f.pred = true ∧ s.tile.offset f 16 + n ≤ 0x60000 ∧ s.tile.offset f 16 % 16 = 0) ∧
    (let s := (tBase.tP (BitVec.ofNat 256 (2 ^ 224 - 1))).tA 0xFF20
     let f := tMem 2 1 0 0 1
     s.tile.ecc = [] ∧ s.tile.predOn f.pred = true ∧
       (∀ i, i < 8 → (s.tile.preg f.pred.toNat).getLsbD (32 * i) = true → s.tile.offset f 16 + 32 * (i + 1) ≤ 0x10000) ∧ s.tile.offset f 16 % 32 = 0) := by
  decide +kernel
theorem witness_VectorLoadsStores_traps :
    let f := tMem 2 1 0 0 0
    (∀ n ∈ [256, 320, 32, 128],
      (let s := tBase.tA (.ofNat 32 (0x60000 - n + 16))
       s.tile.ecc = [] ∧ s.trapsAt 0x40 ∧ s.tile.predOn f.pred = true ∧ 0x60000 < s.tile.offset f 16 + n) ∧
      (let s := tBase.tA 8
       s.tile.ecc = [] ∧ s.trapsAt 0x40 ∧ s.tile.predOn f.pred = true ∧ s.tile.offset f 16 + n ≤ 0x60000 ∧ s.tile.offset f 16 % 16 ≠ 0)) ∧
    (let s := tBase.tA 0xFF20
     s.tile.ecc = [] ∧ s.trapsAt 0x40 ∧ s.tile.predOn f.pred = true ∧ 7 < 8 ∧ (s.tile.preg f.pred.toNat).getLsbD (32 * 7) = true ∧
       0x10000 < s.tile.offset f 16 + 32 * (7 + 1)) ∧
    (let s := tBase.tA 16
     s.tile.ecc = [] ∧ s.trapsAt 0x40 ∧ s.tile.predOn f.pred = true ∧
       (∀ i, i < 8 → (s.tile.preg f.pred.toNat).getLsbD (32 * i) = true → s.tile.offset f 16 + 32 * (i + 1) ≤ 0x10000) ∧ s.tile.offset f 16 % 32 ≠ 0) := by
  unfold State.trapsAt; decide +kernel
/-- The elements of group `j` of an indexed form. -/
def tElems (s : State) (f : Mem) (j : Nat) : List (Nat × Nat) :=
  ((List.range 16).map (16 * j + ·)).filterMap fun k =>
    if (s.tile.preg f.pred.toNat).getLsbD (4 * k) then
      some (k, ((rd s.tile.regs.a f.base.toNat).toNat + elem (s.tile.vector f.index 32) 32 k) % 2 ^ 32)
    else none
/-- Sixteen rows of one stride that end with the scratchpad; indices that all name its last word; the last place for VLDB. -/
theorem witness_StridedAndIndexed :
    (let s := (tBase.tA 0x5FF00).tS [(2, 16)]
     let f := tMem 2 1 2 8 0
     let a := (rd s.tile.regs.a f.base.toNat).toNat
     let d := (s.tile.scalar f.index).toNat % 2 ^ 32
     s.tile.ecc = [] ∧ (∀ i, i < 16 → (a + i * d) % 2 ^ 32 + 16 ≤ 0x60000) ∧ a % 16 = 0 ∧ d % 32 = 16) ∧
    (let s := tBase.tA 0x5FFFC
     let f := tMem 2 1 2 8 0
     let e := tElems s f
     s.tile.ecc = [] ∧ ∀ j, j < 4 → (∀ x ∈ e j, x.2 + 4 ≤ 0x60000 ∧ x.2 % 4 = 0) ∧
       ∀ x ∈ e j, ∀ y ∈ e j, x.2 / 16 % 16 = y.2 / 16 % 16 → x.2 / 16 = y.2 / 16) ∧
    (let s := tBase.tA 0x5FEC0
     let f := tMem 2 1 0 0 0
     s.tile.ecc = [] ∧ (∀ j, j < 256 → (BitVec.allOnes 256).getLsbD j = (decide (64 ≤ j) || (s.tile.preg f.pred.toNat).getLsbD (4 * j))) ∧
       s.tile.offset f 16 + 320 ≤ 0x60000 ∧ s.tile.offset f 16 % 16 = 0) := by decide +kernel
/-- Vector 4 with index `w` in element `k`. -/
def State.tIdx (s : State) (k w : Nat) : State :=
  s.onTile fun t => t.onRegs fun r => { r with v := wr r.v (t.phys 4) (BitVec.ofNat 2048 (w * 2 ^ (32 * k))) }
theorem witness_StridedAndIndexed_traps :
    let g := tMem 2 1 2 8 0
    let w := fun (s : State) (i : Nat) => ((rd s.tile.regs.a g.base.toNat).toNat + i * ((s.tile.scalar g.index).toNat % 2 ^ 32)) % 2 ^ 32
    (let s := (tBase.tA 0x5FF10).tS [(2, 16)]
     s.tile.ecc = [] ∧ s.trapsAt 0x40 ∧ 15 < 16 ∧ (∀ j, j < 15 → w s j + 16 ≤ 0x60000) ∧ 0x60000 < w s 15 + 16) ∧
    (let s := (tBase.tA 8).tS [(2, 16)]
     s.tile.ecc = [] ∧ s.trapsAt 0x40 ∧ (∀ i, i < 16 → w s i + 16 ≤ 0x60000) ∧ (rd s.tile.regs.a g.base.toNat).toNat % 16 ≠ 0) ∧
    (let s := tBase.tS [(2, 32)]
     s.tile.ecc = [] ∧ s.trapsAt 0x40 ∧ (∀ i, i < 16 → w s i + 16 ≤ 0x60000) ∧ (rd s.tile.regs.a g.base.toNat).toNat % 16 = 0 ∧
       (s.tile.scalar g.index).toNat % 2 ^ 32 % 32 ≠ 16) ∧
    (let f := tMem 2 1 2 16 0
     let all := fun s => (List.range 4).flatMap (tElems s f)
     (let s := (tBase.tA 4).tIdx 63 0x5FFFC
      s.tile.ecc = [] ∧ s.trapsAt 0x40 ∧ (all s).find? (fun x => decide (0x60000 < x.2 + 4)) = some (63, 0x60000)) ∧
     (let s := tBase.tIdx 5 2
      s.tile.ecc = [] ∧ s.trapsAt 0x40 ∧ (∀ y ∈ all s, y.2 + 4 ≤ 0x60000) ∧ (all s).find? (fun x => x.2 % 4 != 0) = some (5, 2)) ∧
     (let s := tBase.tIdx 16 256
      s.tile.ecc = [] ∧ s.trapsAt 0x40 ∧ 1 < 4 ∧ (∀ y ∈ all s, y.2 + 4 ≤ 0x60000 ∧ y.2 % 4 = 0) ∧
        (∀ i, i < 1 → ∀ y ∈ tElems s f i, ∀ z ∈ tElems s f i, y.2 / 16 % 16 = z.2 / 16 % 16 → y.2 / 16 = z.2 / 16) ∧
        (tElems s f 1).find? (fun y => (tElems s f 1).any fun z => z.2 / 16 % 16 == y.2 / 16 % 16 && z.2 / 16 != y.2 / 16) = some (16, 256))) := by
  unfold State.trapsAt; decide +kernel
/-! ### Witnesses: atomics, remote operations, synchronisation -/

/-- The last place of each width. -/
theorem witness_Atomics_issue : ∀ z ∈ [2, 3],
    let f := tAtomic 1 1 z 2
    let w := if f.size = 3 then 64 else 32
    let s := tBase.tA (.ofNat 32 (0x60000 - w / 8))
    s.tile.predOn f.pred = true ∧ (rd s.tile.regs.a f.base.toNat).toNat + w / 8 ≤ 0x60000 ∧ (rd s.tile.regs.a f.base.toNat).toNat % (w / 8) = 0 := by
  decide +kernel
theorem witness_Atomics_floats : ∀ z ∈ [0, 1, 2],
    let f := tAtomic 1 1 z 2
    let w := 8 * 2 ^ f.size.toNat
    let s := tBase.tA (.ofNat 32 (0x60000 - w / 8))
    s.tile.predOn f.pred = true ∧ (rd s.tile.regs.a f.base.toNat).toNat + w / 8 ≤ 0x60000 ∧ (rd s.tile.regs.a f.base.toNat).toNat % (w / 8) = 0 := by
  decide +kernel
/-- One place past the last of each size, and a place that is not aligned. -/
theorem witness_Atomics_traps : ∀ n ∈ [1, 2, 4, 8],
    (let s := tBase.tA (.ofNat 32 (0x60001 - n))
     s.trapsAt 0x40 ∧ s.tile.predOn (tAtomic 1 1 2 2).pred = true ∧ 0x60000 < (rd s.tile.regs.a (tAtomic 1 1 2 2).base.toNat).toNat + n) ∧
    (let s := tBase.tA 1
     s.trapsAt 0x40 ∧ (rd s.tile.regs.a (tAtomic 1 1 2 2).base.toNat).toNat + n ≤ 0x60000 ∧
       (n = 1 ∨ (rd s.tile.regs.a (tAtomic 1 1 2 2).base.toNat).toNat % n ≠ 0)) := by unfold State.trapsAt; decide +kernel
def tUnread : Flight :=
  { due := 4, issued := 0, id := 3, syl := 3, dest := .s 5 false, payload := .unread, flags := 0, nwb := false, latch := some .b2 }
def tAmo (op : Nat) : Amo := { due := 2, addr := 8, alu := { op := op, bits := 32, es := 0, value := 5, cmp := 0 }, flight := 3 }
theorem witness_Atomics_bank : ∀ op ∈ List.range 12,
    let s := tBase.onTile fun t => { t with flights := [tUnread] }
    s.tile.ecc = [] ∧ s.tile.spad.wf = true ∧ s.tile.flights = [tUnread] ∧ tUnread.id = (tAmo op).flight ∧ tUnread.payload = .unread ∧
      (tAmo op).alu.op = op ∧ 0 < (tAmo op).alu.bits ∧ (tAmo op).alu.bits % 8 = 0 ∧ (7 < (tAmo op).addr ∨ (tAmo op).addr + 4 ≤ 7) ∧ (12 < (tAmo op).addr ∨ (tAmo op).addr + 4 ≤ 12) := by decide +kernel

/-- A partition of one extent, at tiles (0, 0) to (3, 3). -/
def tPlaced (vfmt : W32) (w : W64) : State :=
  { (tBase.tFmt vfmt).tS [(1, w)] with
    partitions := [(0, { massifs := [0], extents := [{ px := 0, py := 0, w := 4, h := 4, valid := true, mod := 0, tx := 0, ty := 0 }] })] }
def tFull : OutEntry := { ready := 0, kind := .mark 0 }
def tWrites (s : State) : State := s.onIo fun p => { p with writes := List.replicate 32 tFull }
/-- The last doubleword and the last vector of the scratchpad; a 64-bit atomic; a T32 add. -/
theorem witness_RemoteOperations :
    (let s := tPlaced 0x4210 0x800000000005FFF8
     let f := tRemote 2 1 3 true false
     s.place (s.tile.sreg f.place.toNat) 8 false = some (⟨0, 0⟩, 0x5FFF8) ∧ 0x5FFF8 % 8 = 0 ∧ s.tile.io.writes.length < 32) ∧
    (let s := tPlaced 0x4210 0x800000000005FF00
     let f := tRemote 2 1 3 true false
     s.place (s.tile.sreg f.place.toNat) 256 false = some (⟨0, 0⟩, 0x5FF00) ∧ 0x5FF00 % 16 = 0 ∧ s.tile.io.writes.length < 32) ∧
    (let s := tPlaced 0x4210 0x800300000005FFF8
     let f := tRemote 2 1 0x08 true false
     f.mid.getLsbD 3 = true ∧ s.place (s.tile.sreg f.place.toNat) (64 / 8) f.sig = some (⟨0, 0⟩, 0x5FFF8) ∧ 0x5FFF8 % (64 / 8) = 0 ∧
       s.tile.io.writes.length < 32 ∧ f.mid.toNat / 16 ≠ 9) ∧
    (let s := tPlaced 0x3210 0x800000000005FFFC
     let f := tRemote 2 1 0x90 false false
     f.mid.getLsbD 3 = false ∧ s.place (s.tile.sreg f.place.toNat) (32 / 8) f.sig = some (⟨0, 0⟩, 0x5FFFC) ∧ 0x5FFFC % (32 / 8) = 0 ∧
       s.tile.io.writes.length < 32 ∧ f.mid.toNat / 16 = 9 ∧ s.tile.dFmt = some (.tap 32 0)) := by decide +kernel
/-- A tapered add with DFMT FP32. -/
theorem witness_RemoteOperations_format : let s := tPlaced 0x4210 0
    s.trapsAt 0x40 ∧ (tRemote 2 1 0x90 false false).mid.toNat / 16 = 9 ∧ ∀ es, s.tile.dFmt ≠ some (.tap 32 es) := by
  refine ⟨tBase_traps, by decide, fun es => ?_⟩
  have h : (tPlaced 0x4210 0).tile.dFmt = some fp32 := by decide +kernel
  rw [h]
  simp [fp32]
theorem witness_RemoteOperations_traps : ∀ n ∈ [(8, 8), (256, 16), (4, 4)],
    (let s := tPlaced 0x3210 0
     s.trapsAt 0x40 ∧ (∃ es ∈ [0], s.tile.dFmt = some (.tap 32 es)) ∧ s.place (s.tile.sreg 1) n.1 false = none) ∧
    (let s := tPlaced 0x3210 0x8000000000000002
     s.trapsAt 0x40 ∧ s.place (s.tile.sreg 1) n.1 false = some (⟨0, 0⟩, 2) ∧ 2 % n.2 ≠ 0) ∧
    (let s := tWrites (tPlaced 0x3210 0x8000000000000000)
     s.trapsAt 0x40 ∧ s.place (s.tile.sreg 1) n.1 false = some (⟨0, 0⟩, 0) ∧ 0 % n.2 = 0 ∧ ¬s.tile.io.writes.length < 32) := by
  unfold State.trapsAt; decide +kernel
theorem witness_SemaphoreInstructions :
    let k := fun (s : State) => (rd s.tile.sems 255).expect.toNat + (s.tile.scalar (tSync 0 2 255 0).srcA).toNat % 2 ^ 32
    k (tBase.tS [(2, 0xFFFFFF)]) < 2 ^ 24 ∧ (tBase.tS [(2, 0x1000000)]).trapsAt 0x40 ∧ 2 ^ 24 ≤ k (tBase.tS [(2, 0x1000000)]) := by
  unfold State.trapsAt; decide +kernel
def tPending (p : Option W32) : State := tBase.onIo fun k => { k with pending := wr k.pending 31 p }
def tReqs (s : State) : State := s.onIo fun p => { p with requests := List.replicate 16 { ready := 0, kind := .mark 0, parked := false } }
theorem witness_ArrivalsAndFences_arrivals :
    let f := tSync 0 0 31 0
    let g := tBeat 0 0 0 31 false
    (rd tBase.tile.io.pending f.obj.toNat = none ∧ rd tBase.tile.io.pending g.flags.toNat = none ∧ tBase.tile.io.writes.length < 32) ∧
    ((tPending (some 7)).trapsAt 0x40 ∧ rd (tPending (some 7)).tile.io.pending f.obj.toNat = some 7 ∧
      rd (tPending (some 7)).tile.io.pending g.flags.toNat = some 7 ∧ rd (tPending (some 7)).tile.io.lphase f.obj.toNat ≠ 7) ∧
    (rd (tPending (some 0)).tile.io.pending f.obj.toNat = some 0 ∧ rd (tPending (some 0)).tile.io.lphase f.obj.toNat = 0) ∧
    ((tWrites tBase).trapsAt 0x40 ∧ rd (tWrites tBase).tile.io.pending f.obj.toNat = none ∧ rd (tWrites tBase).tile.io.pending g.flags.toNat = none ∧
      ¬(tWrites tBase).tile.io.writes.length < 32) ∧
    (((tSync 0 0 63 3).scope = 4 → tBase.tile.place.hvpriv = true) ∧ tBase.fenceRoom ((tSync 0 0 63 3).obj.setWidth 6)) ∧
    ((tWrites tBase).trapsAt 0x40 ∧ ((tSync 0 0 2 3).scope = 4 → tBase.tile.place.hvpriv = true) ∧
      ¬(tWrites tBase).fenceRoom ((tSync 0 0 2 3).obj.setWidth 6)) ∧
    ((tReqs tBase).trapsAt 0x40 ∧ ¬((tReqs tBase).tile.io.writes.length < 32 ∧ (tReqs tBase).tile.io.requests.length < 16)) ∧
    (tBase.tile.io.writes.length < 32 ∧ tBase.tile.io.requests.length < 16) := by unfold State.trapsAt State.fenceRoom; decide +kernel
/-- A context whose node is at 0x1000, and that node's bytes. -/
def tCtx : Context :=
  { state := .running, partition := 0, pasid := 0, rcb := 0x1000, lineage := 0x5000, home := 5, measure := List.replicate 32 0, digests := []
    keepSealed := false, xlat := .zero, completions := [], credit := 0, lostPages := false }
def tNode (flags : Nat) : State := { tBase with contexts := [(0, tCtx)], dev := Memory.empty.writeNat 0x1009 1 flags }
theorem witness_ArrivalsAndFences_guest :
    let f := tSync 0 0 63 4
    let paths := f.obj.setWidth 6
    (let s := tBase.onPlace fun p => { p with hvpriv := true }
     f.scope = 4 ∧ s.tile.place.hvpriv = true ∧ s.fenceRoom paths) ∧
    (let s := tNode 8
     s.tile.place.hvpriv = false ∧ s.trapsAt 0x40 ∧ s.effPolicy (s.ctxPath s.tile.place.ctx) = 1) ∧
    (let s := tNode 0
     s.tile.place.hvpriv = false ∧ s.effPolicy (s.ctxPath s.tile.place.ctx) ≠ 1 ∧ s.fenceRoom paths) := by
  unfold State.trapsAt State.fenceRoom; decide +kernel
/-- A shadow of gate (0, 17) on massif 0 with tokens, for context 0. -/
def tShadow (st : GateState) (post wait : Bool) : Shadow :=
  { gate := 17, old := [], massif := 0, state := st, seq := 5, rights := [(0, post, wait)], post := true, tokens := some 1, doffs := [], digest := false }
def tGate (y : Shadow) (w : W64) : State := { tBase.tS [(2, w)] with shadows := [y] }
/-- What GateInstructions calls a known shadow. -/
def tKnown (s : State) (y : Shadow) : Bool :=
  let id := (s.tile.scalar 2).toNat % 2 ^ 32
  decide (id < 2 ^ 21) && s.globals.present.contains (id / 2 ^ 12) && s.shadow id (massifOf s.cur) == some y
theorem witness_GateInstructions :
    let w := fun (s : State) => (s.tile.scalar (tSync 1 2 0 0).srcA).toNat
    (let y := tShadow .opened true true
     let s := tGate y 17
     tKnown s y = true ∧ w s < 2 ^ 32 ∧ y.rightsOf s.tile.place.ctx = (true, true) ∧ y.state ≠ .closed ∧ y.state ≠ .revoked ∧ y.tokens ≠ some 0 ∧
       s.tile.io.requests.length < 16) ∧
    (let y := tShadow .revoked false true
     let s := tGate y 17
     tKnown s y = true ∧ w s < 2 ^ 32 ∧ (y.rightsOf s.tile.place.ctx).2 = true ∧ y.state = .revoked) ∧
    (let y := tShadow .opened false false
     let s := tGate y 17
     s.trapsAt 0x40 ∧ tKnown s y = true ∧ w s < 2 ^ 32 ∧ y.rightsOf s.tile.place.ctx = (false, false)) ∧
    (let y := tShadow .closed true true
     let s := tGate y 17
     s.trapsAt 0x40 ∧ tKnown s y = true ∧ w s < 2 ^ 32 ∧ y.state = .closed) ∧
    (let y := { tShadow .opened true true with tokens := some 0 }
     let s := tGate y 17
     s.trapsAt 0x40 ∧ tKnown s y = true ∧ w s < 2 ^ 32 ∧ (y.rightsOf s.tile.place.ctx).1 = true ∧ y.state ≠ .closed ∧ y.tokens = some 0) ∧
    ∀ g ∈ [0x200011, 0x1000, 18],
      let s := tGate (tShadow .opened true true) (.ofNat 64 g)
      s.trapsAt 0x40 ∧ (2 ^ 21 ≤ w s % 2 ^ 32 ∨ s.globals.present.contains (w s % 2 ^ 32 / 2 ^ 12) = false ∨ s.shadow (w s % 2 ^ 32) (massifOf s.cur) = none) := by
  unfold State.trapsAt; decide +kernel
/-- A full request queue, a wait at a revoked gate, and a TARGET that is not zero. -/
theorem witness_GateInstructions_refused :
    let w := fun (s : State) => (s.tile.scalar (tSync 1 2 0 0).srcA).toNat
    (let y := tShadow .opened true true
     let s := tReqs (tGate y 17)
     s.trapsAt 0x40 ∧ tKnown s y = true ∧ w s < 2 ^ 32 ∧ (y.rightsOf s.tile.place.ctx).1 = true ∧ y.state ≠ .closed ∧ y.tokens ≠ some 0 ∧
       16 ≤ s.tile.io.requests.length) ∧
    (let y := tShadow .revoked false true
     let s := tGate y 17
     s.trapsAt 0x40 ∧ tKnown s y = true ∧ (y.rightsOf s.tile.place.ctx).2 = true ∧ y.state = .revoked) ∧
    (let s := tGate (tShadow .opened true true) 0x100000011
     s.trapsAt 0x40 ∧ 2 ^ 32 ≤ w s) := by
  unfold State.trapsAt; decide +kernel
/-! ### Witnesses: vectors -/

theorem witness_ElementResults : (0 < 32 ∧ 32 * 64 = 2048 ∧ 63 < 64 ∧ 10 < 11) ∧ 2047 < 2048 := by decide
/-- FP32, INT8, and tapered T8 in stochastic rounding. -/
def tFormats : List (W32 × Fmt × Rounding) := [(0x4210, fp32, .nearest), (0x11084, .tap 8 0, .stochastic 0 0)]
theorem witness_VectorArithmetic : ∀ x ∈ tFormats,
    let t := (tBase.tFmt x.1).tile
    t.aFmt = some x.2.1 ∧ t.bFmt = some x.2.1 ∧ t.dFmt = some x.2.1 ∧ 8 ≤ x.2.1.width ∧ t.rounding x.2.1 = some x.2.2 := by decide +kernel
/-- Formats of 8, 16 and 32 bits; the T4 format; a reserved rounding mode. -/
theorem witness_VectorFormatsIllegal :
    (let s := tBase.tFmt 0x4204
     s.trapsAt 0x40 ∧ commonWidth [s.tile.aFmt, s.tile.bFmt, s.tile.dFmt] = none ∧ commonWidth [s.tile.aFmt, s.tile.dFmt] = none ∧
       commonWidth [s.tile.aFmt, s.tile.bFmt] = none) ∧
    (let s := tBase.tFmt 0x0000
     s.trapsAt 0x40 ∧ commonWidth [s.tile.dFmt] = none) ∧
    (let s := tBase.tFmt 0x24210
     s.trapsAt 0x40 ∧ s.tile.dFmt = some fp32 ∧ s.tile.rounding fp32 = none ∧ commonWidth [s.tile.aFmt, s.tile.bFmt, some fp32] ≠ none ∧
       commonWidth [s.tile.aFmt, some fp32] ≠ none ∧ 8 ≤ fp32.width) := by unfold State.trapsAt; decide +kernel
theorem witness_VectorLogicAndCompare :
    let f := tRG 3 1 2 0
    let t := tBase.tile
    (t.predOn f.pred = true ∧ t.vecRaw f.srcA t.aFmt = some 0 ∧ t.vecRaw f.srcB t.bFmt = some 0 ∧ t.dFmt = some fp32 ∧ 8 ≤ fp32.width) ∧
    ∀ x ∈ tFormats,
      let t := (tBase.tFmt x.1).tile
      t.aFmt = some x.2.1 ∧ t.bFmt = some x.2.1 ∧ t.dFmt = some x.2.1 ∧ 8 ≤ x.2.1.width ∧ t.rounding x.2.1 = some x.2.2 := by decide +kernel
/-- The two ends of the scale, and the values beyond them; a quire scale of one and one from scalar 2. -/
theorem witness_QuireInstructions :
    (let f := tRG 1 2 3 0
     let t := tBase.tile
     t.aFmt = some fp32 ∧ t.bFmt = some fp32 ∧ 8 ≤ fp32.width ∧ t.predOn f.pred = true ∧ t.vecRaw f.srcA t.aFmt = some 0) ∧
    (∀ n ∈ [0x03FF, 0xFC01],
      let s := tBase.tS [(2, .ofNat 64 n)]
      let k := signedOf ((s.tile.scalar (tRG 1 2 2 0).srcB).toNat % 2 ^ 16) 16
      s.tile.predOn (tRG 1 2 2 0).pred = true ∧ -1023 ≤ k ∧ k ≤ 1023) ∧
    (∀ n ∈ [0x0400, 0xFC00],
      let s := tBase.tS [(2, .ofNat 64 n)]
      let k := signedOf ((s.tile.scalar (tRG 1 2 2 0).srcB).toNat % 2 ^ 16) 16
      s.trapsAt 0x40 ∧ s.tile.predOn (tRG 1 2 2 0).pred = true ∧ (k < -1023 ∨ 1023 < k)) ∧
    ∀ x ∈ tFormats,
      let t := (tBase.tFmt x.1).tile
      t.dFmt = some x.2.1 ∧ 8 ≤ x.2.1.width ∧ t.rounding x.2.1 = some x.2.2 ∧ t.quireScale (tRG 1 2 0 0).srcB = some (.fin false 1 1) := by
  unfold State.trapsAt; decide +kernel
/-- In a handler that owns the matrix state. -/
def tOwner : State := tHandler.onMx fun m => { m with owned := true }
theorem witness_LaneQuires : ∀ t ∈ [tBase.tile, tOwner.tile],
    (t.ctl.handler = false ∨ t.mx.owned = true) ∧ t.aFmt = some fp32 ∧ t.bFmt = some fp32 ∧ t.dFmt = some fp32 ∧ 8 ≤ fp32.width ∧
      fp32.view ≤ laneView fp32.width ∧ t.predOn (tRG 1 2 3 0).pred = true ∧ t.rounding fp32 = some .nearest ∧
      t.quireScale (tRG 1 2 0 0).srcB = some (.fin false 1 1) ∧ (tRG 1 2 0 0).srcA.getLsbD 1 = true ∧ (tRG 1 1 0 0).srcA.getLsbD 1 = false ∧
      (tRG 1 1 0 0).srcA.getLsbD 0 = true ∧ (tRG 1 2 0 0).srcA.getLsbD 0 = false := by decide +kernel
/-- Two widths; BF16, whose view is wider than its lane; T4. -/
theorem witness_LaneQuires_traps :
    (let s := tBase.tFmt 0x4204
     s.trapsAt 0x40 ∧ commonWidth [s.tile.aFmt, s.tile.bFmt] = none) ∧
    (let s := tBase.tFmt 0x4231
     let b : Fmt := .ieee 16 8 8
     s.trapsAt 0x40 ∧ s.tile.aFmt = some b ∧ s.tile.bFmt = some b ∧ 8 ≤ b.width ∧ laneView b.width < b.view) ∧
    (let s := tBase.tFmt 0x0000
     s.trapsAt 0x40 ∧ commonWidth [s.tile.aFmt] = none ∧ commonWidth [s.tile.dFmt] = none) ∧
    (tHandler.tile.ctl.handler = true ∧ tHandler.tile.mx.owned = false ∧ tHandler.tile.predOn (tRG 1 2 3 0).pred = true) := by
  unfold State.trapsAt; decide +kernel
/-- T8 to FP32 in its last part and beyond it; FP32 to T4 and back. -/
theorem witness_VectorConversions :
    (let f := tRG 3 1 0x64 0
     let t := tBase.tile
     let h := f.srcB.toNat
     Fmt.ofCode (h % 32) = some (.tap 8 0) ∧ t.dFmt = some fp32 ∧ 8 ≤ fp32.width ∧ t.rounding fp32 = some .nearest ∧
       t.vecRaw f.srcA t.aFmt = some 0 ∧ h / 32 < max 8 fp32.width / min 8 fp32.width) ∧
    (let f := tRG 3 1 0x70 0
     let t := tBase.tile
     let h := f.srcB.toNat
     tBase.trapsAt 0x40 ∧ Fmt.ofCode (h % 32) = some fp32 ∧ t.dFmt = some fp32 ∧ 8 ≤ fp32.width ∧ t.rounding fp32 = some .nearest ∧
       t.vecRaw f.srcA t.aFmt = some 0 ∧ max fp32.width fp32.width / min fp32.width fp32.width ≤ h / 32) ∧
    (let s := tBase.tFmt 0x0210
     s.trapsAt 0x40 ∧ s.tile.aFmt = some fp32 ∧ 8 ≤ fp32.width ∧ s.tile.dFmt = some (.tap 4 0) ∧ s.tile.rounding (.tap 4 0) = some .nearest ∧
       (tRG 0 1 7 0).srcB.toNat < 512 / (2048 / fp32.width) ∧ 512 / (2048 / fp32.width) ≤ (tRG 0 1 8 0).srcB.toNat) ∧
    (let s := tBase.tFmt 0x4200
     s.trapsAt 0x40 ∧ s.tile.aFmt = some (.tap 4 0) ∧ s.tile.dFmt = some fp32 ∧ 8 ≤ fp32.width ∧ s.tile.rounding fp32 = some .nearest ∧
       (tRG 0 2 7 0).srcB.toNat < 512 / (2048 / fp32.width) ∧ 512 / (2048 / fp32.width) ≤ (tRG 0 2 8 0).srcB.toNat) := by
  unfold State.trapsAt; decide +kernel
theorem witness_VectorDataMovement :
    let f := tRG 3 1 2 0
    let t := tBase.tile
    t.vecRaw f.srcA t.aFmt = some 0 ∧ t.vecRaw f.srcB t.bFmt = some 0 ∧ t.dFmt = some fp32 ∧ t.predOn f.pred = true ∧ 8 ≤ fp32.width ∧
      t.rounding fp32 = some .nearest := by decide +kernel
theorem witness_VectorSpecials :
    let f := tRG 3 1 2 0
    let sb := fun (n : Nat) => (((tBase.tS [(2, .ofNat 64 n)]).tile.scalar f.srcB).toNat)
    (∀ n ∈ [0x0100000000, 0x7FFFFFFFFF - 0x1F00000000],
      (tBase.tS [(2, .ofNat 64 n)]).tile.aFmt = some fp32 ∧ 8 ≤ fp32.width ∧ 1 ≤ sb n / 2 ^ 32 % 64 ∧ sb n / 2 ^ 32 % 64 ≤ 32 ∧ sb n < 2 ^ 39) ∧
    (∀ n ∈ [0, 0x2100000000, 0x8100000000],
      let s := tBase.tS [(2, .ofNat 64 n)]
      s.trapsAt 0x40 ∧ s.tile.aFmt = some fp32 ∧ 8 ≤ fp32.width ∧ (sb n / 2 ^ 32 % 64 = 0 ∨ 32 < sb n / 2 ^ 32 % 64 ∨ 2 ^ 39 ≤ sb n)) ∧
    (∀ n ∈ [1, 4, 12],
      let t := (tBase.tS [(2, .ofNat 64 n)]).tile
      t.vecRaw f.srcA t.aFmt = some 0 ∧ t.predOn f.pred = true ∧ 1 ≤ sb n % 8 ∧ sb n % 8 ≤ 4 ∧ sb n < 16) ∧
    (∀ n ∈ [0, 5, 17],
      let s := tBase.tS [(2, .ofNat 64 n)]
      s.trapsAt 0x40 ∧ s.tile.vecRaw f.srcA s.tile.aFmt = some 0 ∧ s.tile.predOn f.pred = true ∧ (sb n % 8 = 0 ∨ 4 < sb n % 8 ∨ 16 ≤ sb n)) ∧
    ∀ x ∈ tFormats,
      let t := (tBase.tFmt x.1).tile
      t.aFmt = some x.2.1 ∧ t.dFmt = some x.2.1 ∧ 8 ≤ x.2.1.width ∧ t.rounding x.2.1 = some x.2.2 := by unfold State.trapsAt; decide +kernel

/-! ### Witnesses: the matrix unit and the copy port -/

/-- Outside a handler, with a configuration of the matrix unit. -/
def tMode (m : Nat) (a d : Nat) : State := tBase.onMx fun x => { x with mode := m, aFmt := .ofNat 5 a, bFmt := .ofNat 5 a, dFmt := .ofNat 5 d }
/-- What MatrixBeats calls readable. -/
def tReadable (s : State) (z : Nat) (os : List Nat) : Bool :=
  decide ((∀ o ∈ os, o + z ≤ 0x60000 ∧ o % z = 0) ∧ (∀ o ∈ os, ∀ p ∈ os, o / 16 % 16 = p / 16 % 16 → o / 16 = p / 16) ∧
    (os ≠ [] → s.tile.feedWrites s.cycle = false))
/-- A beat whose A operand is a register and one whose 16 bytes are in the scratchpad, one after another. -/
theorem witness_MatrixBeats :
    let own := fun (s : State) => s.tile.ctl.handler = false ∨ s.tile.mx.owned = true
    (let s := (tMode 0 4 16).tS [(0, 0x0000000000000001)]
     let m := s.tile.mx
     let z := elemBytes m.mode
     own s ∧ m.configOk = true ∧ ¬(m.mode = 3 ∧ (tBeat 0x40 1 0 1 false).plane = true) ∧ (tBeat 0x40 1 0 1 false).flags.getLsbD 0 = true ∧
       s.tile.beatOffsets 0x40 m.ca.toNat 0 (16 / z) ≠ [] ∧ tReadable s z (s.tile.beatOffsets 0x40 m.ca.toNat 0 (16 / z) ++ []) = true) ∧
    (let s := tMode 0 4 16
     let m := s.tile.mx
     let z := elemBytes m.mode
     own s ∧ (tBeat 0x40 1 0 2 false).flags.getLsbD 1 = true ∧ tReadable s z (s.tile.beatOffsets 0x40 m.ca.toNat (16 / z) (16 / z)) = true) ∧
    (let s := tMode 3 0 16
     own s ∧ s.tile.mx.mode = 3 ∧ s.tile.mx.configOk = true) := by decide +kernel
/-- Configurations that are illegal, and a plane that T4-block mode lacks. -/
theorem witness_MatrixBeats_traps :
    (∀ s ∈ [tMode 1 4 16], s.trapsAt 0x40 ∧ s.tile.mx.configOk = false) ∧
    ((tMode 3 0 16).trapsAt 0x40 ∧ (tMode 3 0 16).tile.mx.mode = 3 ∧ (tBeat 0 1 0 0 true).plane = true) ∧
    ((tMode 0 4 16).trapsAt 0x40 ∧ (tMode 0 4 16).tile.mx.mode ≠ 3) ∧ tHandler.tile.ctl.handler = true ∧ tHandler.tile.mx.owned = false := by
  unfold State.trapsAt; decide +kernel
theorem witness_MatrixDrainsAndImages :
    let s := tMode 0 4 16
    let m := s.tile.mx
    let own := fun (s : State) => s.tile.ctl.handler = false ∨ s.tile.mx.owned = true
    (let f := tBeat 1 0 15 0 false
     own s ∧ m.configOk = true ∧ Fmt.ofCode m.dFmt.toNat = some fp32 ∧ s.tile.rounding fp32 = some .nearest ∧ f.row.toNat < rowsOf m.mode ∧
       ¬(m.mode = 3 ∧ f.plane = true) ∧ cellsPerRow m.mode * (f.flags.toNat % 16 + 1) ≤ 2048 / fp32.width) ∧
    (let f := tBeat 0x40 0 15 0 false
     let row := rowSpan m.mode f.plane f.row.toNat
     let base := ((s.tile.descriptor f.srcA).base + m.cd.toNat) % 2 ^ 19
     own s ∧ f.row.toNat < rowsOf m.mode ∧ ¬(m.mode = 3 ∧ f.plane = true) ∧ base + row.2.2 / 8 ≤ 0x60000 ∧ base % 16 = 0 ∧
       ∀ i, i < row.2.2 / 2048 → s.tile.feedWrites (s.cycle + ((if m.mode = 3 then 1 else 3) + i) * s.unit) = false) ∧
    (∀ t ∈ [s, tHandler, tOwner],
      let f := tBeat 0x40 68 0 0 false
      let b := ((t.tile.descriptor f.srcA).base + t.tile.mx.cd.toNat) % 2 ^ 19
      b + 256 ≤ 0x60000 ∧ b % 16 = 0 ∧ t.tile.feedWrites (t.cycle + t.unit) = false ∧ t.tile.feedWrites t.cycle = false) ∧
    own s ∧ own tOwner ∧ (tHandler.tile.ctl.handler = true ∧ tHandler.tile.mx.owned = false) := by decide +kernel
def tBinding (kind : Nat) : Binding := { kind := kind, queue := 7, life := 0, wrsh := 3, donesh := 2, status := 0 }
def tBound (kind : Nat) (b0 b1 : Nat) : State :=
  { tBase with
    tile := { tBase.tile with
      io := { tBase.tile.io with bindings := [(4, tBinding kind)] }
      spad := Memory.empty.writeNat 0x5FFC0 2 (b0 + 256 * b1) }
    queues := [(7, { Queue.zero with state := .active })] }
/-- A COPY2D packet in the last 64 bytes; a launch; a bad version byte. -/
theorem witness_CopyPortInstructions :
    let f := tCopy 2 1 4 0
    let at_ := fun (s : State) => (((s.tS [(1, 0x5FFC0)]).tile.scalar f.srcB).toNat) % 2 ^ 32
    (tBase.tile.predOn f.pred = true ∧ tBase.trapsAt 0x40 ∧ tBase.binding tBase.tile f.bnd.toNat = none) ∧
    (let s := tBound 3 1 1
     s.tile.predOn f.pred = true ∧ s.trapsAt 0x40 ∧ s.binding s.tile f.bnd.toNat = some (tBinding 3) ∧ (tBinding 3).kind = 3) ∧
    (let s := tReqs (tBound 1 1 1)
     s.tile.predOn f.pred = true ∧ s.trapsAt 0x40 ∧ s.binding s.tile f.bnd.toNat = some (tBinding 1) ∧ (tBinding 1).kind ≠ 3 ∧
       16 ≤ s.tile.io.requests.length) ∧
    ∀ k ∈ [1, 2], ∀ x ∈ [(1, 1), (0x10, 1), (1, 0)],
      let s := (tBound k x.1 x.2).tS [(1, 0x5FFC0)]
      let bs := s.tile.spad.bytes (at_ s) 64
      s.tile.predOn f.pred = true ∧ s.trapsAt 0x40 ∧ s.binding s.tile f.bnd.toNat = some (tBinding k) ∧ (tBinding k).kind ≠ 3 ∧
        s.tile.io.requests.length < 16 ∧ at_ s % 64 = 0 ∧ at_ s + 64 ≤ 0x60000 ∧
        (x = (1, 1) → pushable s.tile.place.hvpriv (fieldOf bs 0 1) = true ∧ (fieldOf bs 1 1 = 1 ∨ fieldOf bs 1 1 = 2)) ∧
        (x ≠ (1, 1) → pushable s.tile.place.hvpriv (fieldOf bs 0 1) = false ∨ (fieldOf bs 1 1 ≠ 1 ∧ fieldOf bs 1 1 ≠ 2)) := by
  unfold State.trapsAt; decide +kernel
/-- One byte past the end, a place that is not aligned, a packet that may not be pushed, and a full queue. -/
theorem witness_CopyPortInstructions_traps : ∀ e ∈ [(0x5FFC1, 1), (1, 1), (0x5FFC0, 0x10), (0x5FFC0, 1)],
    let f := tCopy 2 1 4 0
    let s := (tReqs (tBound 1 e.2 1)).tS [(1, .ofNat 64 e.1)]
    let o := (s.tile.scalar f.srcB).toNat % 2 ^ 32
    let bs := s.tile.spad.bytes o 64
    s.tile.predOn f.pred = true ∧ s.trapsAt 0x40 ∧ s.binding s.tile f.bnd.toNat = some (tBinding 1) ∧ (tBinding 1).kind ≠ 3 ∧
      (0x60000 < o + 64) = (e.1 = 0x5FFC1) ∧ (o % 64 ≠ 0) = (e.1 ≠ 0x5FFC0) ∧
      (e.1 = 0x5FFC0 → pushable s.tile.place.hvpriv (fieldOf bs 0 1) = (e.2 == 1) ∧ fieldOf bs 1 1 = 1) ∧ 16 ≤ s.tile.io.requests.length := by
  unfold State.trapsAt; decide +kernel
/-! ### Witnesses: control, traps, tasks -/

def tLevel : Level :=
  { pass := 0, ncount := 1, limit := 1, baseIt := 0, first := 32, last := 64, loopm := false, ii := 1, stages := 1, clamped := false }
def tLevels (n : Nat) : State := tBase.onCtl fun c => { c with levels := List.replicate n tLevel }
/-- Operand 1 is 0, operand 2 is 1: the longest body at pc 0, one bundle too long at pc 32; five levels and six. -/
theorem witness_TransfersAndLoops :
    let one := fun (n : Nat) => (tLevels n).tS [(1, 1)]
    let c := fun (s : State) => (s.tile.kOperand 1).toNat % 2 ^ 32
    (tBase.tile.kOperand 1 = 0 ∧ c tBase = 0 ∧ tBase.tile.ctl.pc + 32 * 2047 ≤ 0xFFE0 ∧ 1 ≤ (tLevels 1).tile.ctl.levels.length) ∧
    ((one 5).tile.kOperand 1 ≠ 0 ∧ c (one 5) ≠ 0 ∧ (one 5).tile.ctl.levels.length < 6 ∧ (one 5).tile.ctl.pc + 32 * 2047 ≤ 0xFFE0) ∧
    ((one 6).trapsAt 0x40 ∧ c (one 6) ≠ 0 ∧ 6 ≤ (one 6).tile.ctl.levels.length) ∧
    (let s := tBase.onCtl fun k => { k with pc := 32 }
     (c s = 0 ∨ s.tile.ctl.levels.length < 6) ∧ 0xFFE0 < s.tile.ctl.pc + 32 * 2047) ∧
    ((one 6).tile.kOperand 1 ≠ 0 ∧ (one 6).tile.ctl.levels[6 - 1]? = some tLevel) ∧ tBase.trapsAt 0x40 ∧ tBase.tile.ctl.levels.length < 1 := by
  unfold State.trapsAt; decide +kernel
/-- A trap is taken with and without an entry point; ERET outside a handler, in one, and in one that has not restored the image. -/
theorem witness_TrapEntryAndReturn :
    (tBase.tile.place.entryPoint = some 0x40 ∧ tInfo.rewait = []) ∧ State.reset.tile.place.entryPoint = none ∧ tBase.trapsAt 0x40 ∧
    (tHandler.tile.ctl.handler = true ∧ (tHandler.tile.mx.owned = false ∨ 69 ≤ tHandler.tile.mx.restored.length)) ∧
    (tOwner.tile.ctl.handler = true ∧ tOwner.tile.mx.owned = true ∧ tOwner.tile.mx.restored.length < 69) ∧
    (tBase.enterTrap tInfo).tile.frame.isSome = true := by unfold State.trapsAt; decide +kernel
theorem witness_KernelInstructions :
    let f := fun (s : State) => s.effNopre (s.ctxPath s.tile.place.ctx)
    let open_ := tBase.onCtl fun c => { c with nopre := true }
    (tBase.tile.kOperand 1).toNat ≤ tBase.cycle + tBase.unit ∧ tBase.cycle + tBase.unit < ((tBase.tS [(1, 2)]).tile.kOperand 1).toNat ∧
    tBase.taskCount ≤ tBase.tile.place.task + 1 ∧ (open_.tile.ctl.nopre = true ∧ open_.tile.ctl.preempt = none) ∧
    ((tNode 4).tile.ctl.nopre = false ∧ f (tNode 4) = true) ∧ ((tNode 0).trapsAt 0x40 ∧ (tNode 0).tile.ctl.nopre = false ∧ f (tNode 0) = false) ∧
    (tBase.onPlace fun p => { p with hvpriv := true }).tile.place.hvpriv = true ∧ tBase.trapsAt 0x40 ∧ tBase.tile.place.hvpriv = false := by
  unfold State.trapsAt; decide +kernel
/-! ### Witnesses: events of tiles and of the network -/

def tFlight (d : Dest) (nwb : Bool) (k : Option Latch) : Flight :=
  { due := 0, issued := 0, id := 0, syl := 1, dest := d, payload := .word 9, flags := 0, nwb := nwb, latch := k }
def tLanding (f : Flight) : State := tBase.onTile fun t => { t with flights := [f], io := { t.io with sincs := [(0, 255, 3)] } }
theorem witness_TileEvents_landing : ∀ f ∈ [tFlight (.s 63 false) false (some .b1), tFlight (.s 0 true) true none, tFlight (.a 15) false none],
    let s := tLanding f
    s.tile.flights.filter (fun x => decide (x.due ≤ s.cycle)) = [f] ∧ (s.tile.mx.pending.filter fun x => decide (x.due ≤ s.cycle)) = [] ∧
      f.payload = .word 9 ∧ s.tile.io.sincs.filter (fun x => decide (x.1 ≤ s.cycle)) = [(0, 255, 3)] := by decide +kernel
def tEntry (e l : Option TrapInfo) : State := tBase.onCtl fun c => { c with entry := e, landing := l }
theorem witness_TileEvents_traps :
    ((tEntry (some tInfo) none).trapsAt 0x40 ∧ (tEntry (some tInfo) none).tile.ctl.entry = some tInfo) ∧
    ((tEntry none (some tInfo)).trapsAt 0x40 ∧ (tEntry none (some tInfo)).tile.ctl.entry = none ∧ (tEntry none (some tInfo)).tile.ctl.landing = some tInfo) := by
  unfold State.trapsAt; decide +kernel
def tWaiting (s : State) (w : Wait) : State :=
  s.onTile fun t => { t with place := { t.place with status := .waiting }, ctl := { t.ctl with waits := [w] } }
theorem witness_TileEvents_waits :
    ((tWaiting tBase (.cycle 0)).tile.ctl.waits = [.cycle 0] ∧ ∃ u, (tWaiting tBase (.cycle 0)).testWait (.cycle 0) = .satisfied u) ∧
    ((tWaiting tBase (.sem 255 0)).tile.ctl.waits = [.sem 255 0] ∧ ∃ u, (tWaiting tBase (.sem 255 0)).testWait (.sem 255 0) = .satisfied u) ∧
    ((tWaiting tBase (.sem 255 1)).tile.ctl.waits = [.sem 255 1] ∧ (tWaiting tBase (.sem 255 1)).testWait (.sem 255 1) = .waiting) :=
  ⟨⟨rfl, _, rfl⟩, ⟨rfl, _, rfl⟩, rfl, rfl⟩
/-- A tile waits at a gate that has become REVOKED. -/
theorem witness_TileEvents_denied :
    let s := tWaiting (tGate (tShadow .revoked true true) 0) (.gate 17)
    s.tile.ctl.waits = [.gate 17] ∧ s.testWait (.gate 17) = .denied ∧ s.trapsAt 0x40 := ⟨rfl, rfl, rfl, Nat.zero_le 1, rfl⟩
theorem witness_TileEvents_stop : (tEntry (some tInfo) none).tile.ctl.entry = some tInfo ∧ (tEntry (some tInfo) none).tile.place.lead = tBase.cur ∧
    tBase.args.a = tBase.cur ∧ tBase.tileExists tBase.cur = true ∧ (tEntry (some tInfo) none).tile.place.stop = none ∧
    (tEntry (some tInfo) none).tile.place.feed = [] := by decide +kernel
def tTask (b : Option Nat) (c : List Cond) : Task := { entry := 0, notBefore := b, conds := c }
def tKernel (k : Task) : Kernel :=
  { hvpriv := false, gangW := 1, gangH := 1, skew := 0, handler := none, tasks := [k, k], code := [], data := [], kmask := 0, consts := [], bindings := [] }
def tLaunch : Launch :=
  { state := .running, queue := 0, index := 0, ctx := 0, image := 0, args := 0, seed := 0, kseq := 1, tiles := 1, minTiles := 1, gw := 1
    preds := [], prio := 0, shrink := false, kernel := some (tKernel (tTask none [])), group := some 1, passes := 0, seq := 0 }
def tGroup (st : GroupState) (lock : Bool) (k : Task) : Group :=
  { state := st, launch := 1, ctx := 0, partition := 0, tiles := [0], size := 1, gw := 1, kernel := tKernel k, lockstep := lock, s0 := 0
    haltMax := 0, sliceEnd := 0, preemptAt := some 0, passes := 0, seq := 0, prio := 0, barriers := Vector.replicate 32 ⟨2, 0, 0⟩, arrivals := []
    releases := [], saved := [] }
def tGrouped (st : GroupState) (lock : Bool) (k : Task) (from_ : Nat) (status : TileStatus) : State :=
  { tBase with
    args := { Args.none with a := 1 }
    groups := [(1, tGroup st lock k)]
    launches := [(1, tLaunch)]
    contexts := [(0, { tCtx with rcb := 0 })]
    tile := { tBase.tile with place := { tBase.tile.place with group := some 1, status := status, taskFrom := from_ } } }
def tCond (v : Nat) : Cond := { kind := 1, object := 255, value := v }
/-- A task that starts: its bound at cycle 0 or later, its condition true or false, elastic and lockstep; one whose bound is past. -/
theorem witness_TileEvents_tasks : ∀ lock ∈ [false, true], ∀ v ∈ [0, 1], ∀ from_ ∈ [0, 1],
    let k := tTask none [tCond v]
    let s := tGrouped .running lock k from_ .starting
    let g := tGroup .running lock k
    s.tile.place.group = some 1 ∧ find s.groups 1 = some g ∧ g.kernel.tasks[s.tile.place.task]? = some k ∧ s.tile.place.status = .starting ∧
      s.args.parts = [] ∧ (from_ = 1 → s.cycle < max 0 s.tile.place.taskFrom) ∧ (from_ = 0 → max 0 s.tile.place.taskFrom ≤ s.cycle) ∧
      g.lockstep = lock ∧ k.notBefore = none ∧ k.conds.all s.condHolds = (v == 0) := by decide +kernel
theorem witness_TileEvents_late :
    let k := tTask (some 0) []
    let s := { tGrouped .running true k 1 .starting with cycle := 1 }
    let g := tGroup .running true k
    s.tile.place.group = some 1 ∧ find s.groups 1 = some g ∧ g.kernel.tasks[s.tile.place.task]? = some k ∧ s.tile.place.status = .starting ∧
      s.args.parts = [] ∧ max (s.tile.place.s0 + 0) s.tile.place.taskFrom ≤ s.cycle ∧ g.lockstep = true ∧ k.notBefore ≠ none ∧
      s.tile.place.s0 + 0 < s.tile.place.taskFrom := by decide +kernel
def tLoopm : Level := { tLevel with loopm := true, limit := 5 }
theorem witness_TileEvents_preempt : ∀ ls ∈ [[], [tLoopm]],
    let s := (tGrouped .preempting false (tTask none []) 0 .issuing).onCtl fun c => { c with levels := ls }
    find s.groups s.args.a = some (tGroup .preempting false (tTask none [])) ∧ (tGroup .preempting false (tTask none [])).tiles = [s.cur] ∧
      s.tile.place.lead = s.cur ∧ s.tile.ctl.nopre = false ∧ s.tile.ctl.handler = false ∧ s.tile.ctl.levels = ls ∧ tLoopm.loopm = true ∧
      tLoopm.baseIt + tLoopm.pass + 1 < tLoopm.limit := by decide +kernel
theorem witness_KernelInstructions_tasks :
    (tGrouped .running false (tTask none []) 0 .issuing).tile.place.task + 1 < (tGrouped .running false (tTask none []) 0 .issuing).taskCount := by decide +kernel

def tRemoteOp (dest module : Nat) (sem : Option Nat) : RemoteOp :=
  { id := 0, src := 0, destModule := module, dest := dest, offset := 8, kind := .put [7], sem := sem, cls := 0, deliver := none }
/-- A fence of one path at PARTITION scope, or of none. -/
def tFence (i w : Nat) : FenceRec := { id := i, paths := if w = 0 then 0 else 2, scope := 1, issued := 0 }
/-- A tile of group 1 whose write queue holds one entry, with two fences and a mark in the request queue. -/
def tOut (e : OutEntry) : State :=
  { tBase with
    groups := [(1, tGroup .running false (tTask none []))]
    tile := { tBase.tile with
      place := { tBase.tile.place with group := some 1 }
      io := { tBase.tile.io with writes := [e], fences := [tFence 3 0, tFence 4 1], remotes := [0], requests := [{ ready := 0, kind := .mark 3, parked := false }] } } }
theorem witness_NetworkEvents_writes :
    let at_ := fun (k : OutKind) => { ready := 0, kind := k : OutEntry }
    let ok := fun (e : OutEntry) => (tOut e).tileExists (tOut e).args.a = true ∧ ((tOut e).getTile (tOut e).args.a).io.writes = [e]
    (ok ⟨1, .mark 3⟩ ∧ (tOut ⟨1, .mark 3⟩).cycle < 1) ∧
    (let e := at_ (.remote (tRemoteOp 1 0 none))
     ok e ∧ e.ready ≤ (tOut e).cycle ∧ (tOut e).stuck (tOut e).args.a = false ∧ 0 = (tOut e).globals.modIdx ∧ massifOf 1 = massifOf (tOut e).args.a) ∧
    (let e := at_ (.remote (tRemoteOp 1 1 none))
     ok e ∧ e.ready ≤ (tOut e).cycle ∧ (tOut e).stuck (tOut e).args.a = false ∧ 1 ≠ (tOut e).globals.modIdx) ∧
    (let e := at_ (.arrive 0 31 0 false)
     ok e ∧ e.ready ≤ (tOut e).cycle ∧ ((tOut e).getTile (tOut e).args.a).place.group = some 1 ∧
       find (tOut e).groups 1 = some (tGroup .running false (tTask none []))) ∧
    (∀ i ∈ [(3, 0), (4, 1)],
      let e := at_ (.fence i.1)
      let t := (tOut e).getTile (tOut e).args.a
      ok e ∧ e.ready ≤ (tOut e).cycle ∧ t.io.fences.find? (fun f => f.id == i.1) = some (tFence i.1 i.2) ∧
        (tOut e).fencePasses t (tFence i.1 i.2) = (i.2 == 0)) ∧
    (let e := at_ (.mark 3)
     ok e ∧ e.ready ≤ (tOut e).cycle ∧ ((tOut e).getTile (tOut e).args.a).io.requests = [{ ready := 0, kind := .mark 3, parked := false }]) := by
  decide +kernel
/-- An operation that stands before a link whose 64 slots others own holds back the next. -/
theorem witness_NetworkEvents_ridge :
    let o := tRemoteOp 1 1 none
    let full := { Link.zero with state := .active, slots0 := (List.range 64).map fun i => (i, 7) }
    let y : Transit := { op := o, seq := 9, piece := 9, key := 0, part := 0, ctx := 0, ready := 0, hops := [{ link := 0, dir := 0, after := 16 }], last := none, flits := 1 }
    let s := { tOut ⟨0, .remote o⟩ with links := [(0, full)], transit := [y] }
    s.tileExists s.args.a = true ∧ (s.getTile s.args.a).io.writes = [⟨0, .remote o⟩] ∧ 0 ≤ s.cycle ∧ s.stuck s.args.a = true := by decide +kernel
/-- R24: the west col at y = 5 carries west ports 6-8, the east col at y = 10 east ports 13-15, the root col south ports 14 and 15 and east port 0. -/
theorem test_ports :
    portCol .west 6 = (0, 5) ∧ portCol .west 8 = (0, 5) ∧ portCol .east 13 = (15, 10) ∧ portCol .east 15 = (15, 10) ∧ portCol .south 14 = (15, 0) ∧
      portCol .south 15 = (15, 0) ∧ portCol .east 0 = (15, 0) ∧ portCol .west 15 = (0, 11) ∧ portCol .north 3 = (2, 11) := by decide
def tTransit : Transit := { op := tRemoteOp 1 0 (some 255), seq := 6, piece := 6, key := 0, part := 0, ctx := 0, ready := 0, hops := [], last := none, flits := 1 }
/-- A write and an atomic, untimed and for this cycle, and one for a later cycle; its massif at full power and in retention. -/
theorem witness_NetworkEvents_arrival : ∀ k ∈ [RemoteKind.put [7], .atomic { op := 0, bits := 32, es := 0, value := 1, cmp := 0 }],
    ∀ c ∈ [none, some 0, some 5], ∀ w ∈ [PowerState.full, .retention],
    let y := { tTransit with op := { tTransit.op with kind := k, deliver := c } }
    let s := { tBase with args := { Args.none with a := 6 }, transit := [y], power := [(0, { state := w, pending := none, lastErr := 0 })] }
    s.args.op = none ∧ s.args.flag = false ∧ s.args.bytes = [] ∧ y.op.destModule = s.globals.modIdx ∧
      s.transit.find? (fun y => y.piece == s.args.a) = some y ∧ (∀ z ∈ s.transit, z.seq = y.seq → z.piece = s.args.a) ∧ y.hops = [] ∧ y.ready ≤ s.cycle ∧
      s.channelBlocked y = false ∧ y.stalled = false ∧ s.portHolds y = false ∧ (s.powerOf (massifOf y.op.dest)).state ≠ .off ∧ (s.powerOf (massifOf y.op.dest)).holds = (w == .retention) ∧
      (c = some 5 → s.cycle < 5) ∧ (s.getTile y.op.dest).io.timed.length < 64 ∧ (s.getTile y.op.dest).ecc = [] ∧
      (c ≠ some 5 → y.op.deliver = none ∨ y.op.deliver = some s.cycle) ∧ y.op.src < 253440 ∧
      s.servesLater y.op.dest = false ∧ y.op.sem = some 255 ∧ (rd (s.getTile y.op.dest).sems 255).count.toNat < 0xFFFFFFFF := by decide +kernel
def tHeld (d : Nat) : Held := { deliver := d, seq := 2, op := { tRemoteOp 0 0 none with deliver := some d } }
theorem witness_NetworkEvents_timed : ∀ d ∈ [0, 1], ∀ w ∈ [PowerState.full, .retention],
    let s := { tBase.onIo (fun p => { p with timed := [tHeld d] }) with
      args := { Args.none with a := 0, b := 2 }, power := [(0, { state := w, pending := none, lastErr := 0 })] }
    s.tileExists s.args.a = true ∧ (s.getTile s.args.a).io.timed.find? (fun h => h.seq == s.args.b) = some (tHeld d) ∧
      (d = 0 → (tHeld d).deliver ≤ s.cycle ∧ (tHeld d).op.deliver = some 0) ∧ (d = 1 → s.cycle < (tHeld d).deliver) ∧
      (s.powerOf (massifOf (tHeld d).op.dest)).state ≠ .off ∧ (s.powerOf (massifOf (tHeld d).op.dest)).holds = (w == .retention) := by decide +kernel
/-- A network port that another operation holds in the cycle; a massif whose inbound slots all belong to others. -/
theorem witness_NetworkEvents_port :
    let y := { tTransit with op := { tTransit.op with dest := 0 } }
    let s := { tBase.onIo (fun p => { p with port := (0, y.op.banks) }) with args := { Args.none with a := 6 }, transit := [y] }
    s.args.op = none ∧ s.args.flag = false ∧ s.args.bytes = [] ∧ y.op.destModule = s.globals.modIdx ∧ y.stalled = false ∧
      s.transit.find? (fun y => y.piece == s.args.a) = some y ∧ y.hops = [] ∧ y.ready ≤ s.cycle ∧ s.channelBlocked y = false ∧ s.portHolds y = true ∧
      (let full := { Link.zero with state := .active, slots1 := (List.range 64).map fun i => (i, 7) }
       { s with links := (massifEdges 0).map (·, full) }.shutIn (massifOf 0) 1 none = true ∧ s.shutIn (massifOf 0) 1 none = false) := by decide +kernel
/-- The last arrival of a phase, and one before it; an arrival that waits for its cycle; a release, and one that has gone. -/
theorem witness_NetworkEvents_barriers : ∀ target ∈ [1, 2], ∀ ready ∈ [0, 1],
    let e : Arrival := ⟨0, 31, 5, 0, ready, false⟩
    let g := { tGroup .running false (tTask none []) with arrivals := [e], releases := [(0, 31)], barriers := Vector.replicate 32 ⟨target, 0, 0⟩ }
    let s := { tBase with args := { Args.none with a := 1, b := 0, c := 31 }, groups := [(1, g)], tile := { tBase.tile with place := { tBase.tile.place with group := some 1 } } }
    find s.groups s.args.a = some g ∧ g.arrivals.find? (fun e => e.tile == s.args.b && e.bar == s.args.c) = some e ∧ e.tile < 253440 ∧
      s.arrivalWaits e = (ready == 1) ∧ ((rd g.barriers e.bar).count + 1 < (rd g.barriers e.bar).target ↔ target = 2) ∧
      g.releases.contains (s.args.b, s.args.c) = true ∧
      (let u := { s with args := { s.args with b := 1 } }
       find u.groups u.args.a = some g ∧ g.releases.contains (u.args.b, u.args.c) = false) ∧
      (s.getTile s.args.b).place.group = some s.args.a := by decide +kernel
/-! ### Witnesses: queues -/

/-- 64 bytes with the given fields (offset, value). -/
def tBytes (l : List (Nat × Nat)) : List Byte := natBytes (l.foldl (fun a e => a + e.2 * 256 ^ e.1) 0) 64
def tPacket (l : List (Nat × Nat)) : Packet :=
  { index := 0, bytes := tBytes l, cls := 0, pusher := none, next := 0, parked := false, complete := false, failed := false, waiting := false, held := false
    data := [], deadline := 5 }
/-- The whole space is mapped to itself in both stages. -/
def tRange : RangeEntry := { base := 0, last := 0x5FFFFFFFFFF, out := 0, ctl := 7 }
def tMapped (st : CtxState) : Context := { tCtx with state := st, home := 0, xlat := { Translation.zero with s1range := [(0, tRange)], s2range := [(0, tRange)] } }
def tQueue (st : QueueState) (ps : List Packet) : Queue := { Queue.zero with state := st, logSize := 6, packets := ps }
/-- How an access ends: 0 well, 1 with a fault, 2 held; its value and its state. -/
def Acc.ending {α : Type} : Acc α → Nat
  | .ok _ _ => 0
  | .fault _ _ => 1
  | .hold _ => 2
def Acc.value {α : Type} : Acc α → Option α
  | .ok _ v => some v
  | _ => none
def Acc.state {α : Type} (x : Acc α) (d : State) : State :=
  match x with
  | .ok s _ => s
  | .fault s _ => s
  | .hold _ => d
theorem Acc.ok_of {α : Type} {x : Acc α} {d : State} (h : x.ending = 0) : ∃ v, x = .ok (x.state d) v := by
  cases x with
  | ok s v => exact ⟨v, rfl⟩
  | fault => exact absurd h (by simp [Acc.ending])
  | hold => exact absurd h (by simp [Acc.ending])
/-- A queue that executes one packet, at its index 0. -/
def tPackets (st : CtxState) (l : List (Nat × Nat)) : State :=
  { tPlaced 0x4210 0 with
    args := Args.none
    contexts := [(0, tMapped st)]
    queues := [(0, tQueue .active [tPacket l])] }
theorem accepts_of {s : State} {k qn : Nat} {q : Queue} {p : Packet} (h : s.commandPacket (· == k) = some (qn, q, p))
    (g : (decide (s.args.a < 98304) && s.globals.boot == 7 && pkSemen p.bytes == false && fieldOf p.bytes 19 1 == 0 && p.next != statusHeld) = true) : s.accepts k qn q p := by
  simp only [Bool.and_eq_true, decide_eq_true_eq, beq_iff_eq, bne_iff_ne] at g
  exact ⟨g.1.1.1.1, g.1.1.1.2, h, g.1.1.2, g.1.2, g.2⟩
/-- The stamp of a slot that is read. -/
def SlotRead.stamp : SlotRead → Option Nat
  | .bytes _ bs => some (fieldOf bs 63 1)
  | _ => none
/-- A queue after a slot read. -/
def SlotRead.queue : SlotRead → Nat → Option Queue
  | .bytes u _, n => find u.queues n
  | _, _ => none
theorem stamp_bytes {r : SlotRead} {n : Nat} (h : r.stamp = some n) : ∃ u bs, r = .bytes u bs ∧ fieldOf bs 63 1 = n := by
  cases r with
  | bytes u bs => exact ⟨u, bs, rfl, by simpa [SlotRead.stamp] using h⟩
  | _ => cases h

/-- Queue 7 of interface 4095, whose slot of index 0 holds zeros, the stamp of lap 0. -/
def tHosted (st : QueueState) (rdidx : Nat) : Queue :=
  { tQueue st [] with intf := 0x8FFF, qsel := 15, rdidx := rdidx, wridx := rdidx + 1, kickPend := true, windowFrom := some 0 }
def tKick (st : QueueState) (size : Nat) : State :=
  { tPackets .running [] with
    args := { Args.none with a := 4095, b := 15, c := size }
    interfaces := [(4095, { Interface.zero with state := 1 })]
    links := [(420, { Link.zero with state := .active })]
    queues := [(7, tHosted st 0)] }
theorem witness_QueueEvents_kick : ∀ st ∈ [QueueState.active, .waitingContent], ∀ c ∈ [4, 8, 2],
    let s := tKick st c
    let k := { tHosted st 0 with kickPend := true, windowFrom := none }
    s.args.a < 4096 ∧ s.hostPort = true ∧ { s with links := [] }.hostPort = false ∧ s.notifyQueue s.args.a s.args.b = some (7, tHosted st 0) ∧ find s.queues 7 = some (tHosted st 0) ∧ (tHosted st 0).state = st ∧
      s.args.c = c ∧ (tHosted st 0).state ≠ .error ∧ ({ s with queues := put s.queues 7 k }.readSlot 7 k 0).stamp = some 0 ∧
      { s with args := { s.args with b := 14 } }.notifyQueue 4095 14 = none := by decide +kernel
/-- The sweep meets no waiting queue, and one whose stamp is right; the window of a queue at index 64 has passed. -/
theorem witness_QueueEvents_slots :
    (∀ e ∈ (tKick .active 4).queues, e.2.state ≠ .waitingContent) ∧
    (let s := tKick .waitingContent 4
     let q := tHosted .waitingContent 0
     s.args.flag = false ∧ s.queues = [(7, q)] ∧ q.state = .waitingContent ∧ (s.readSlot 7 q q.rdidx).stamp = some (q.rdidx / 2 ^ q.logSize % 256)) ∧
    (let q := tHosted .active 64
     let s := { tPackets .running [] with args := { Args.none with a := 7 }, cycle := 1024, queues := [(7, q)] }
     s.args.a < 98304 ∧ find s.queues s.args.a = some q ∧ q.windowFrom = some 0 ∧ q.state = .active ∧ q.kickPend = true ∧
       find s.contexts q.ctx = some (tMapped .running) ∧ (tMapped .running).state.consumes = true ∧ 0 + 1024 ≤ s.cycle ∧
       (s.readSlot s.args.a q q.rdidx).stamp = some 0 ∧ 0 ≠ q.rdidx / 2 ^ q.logSize % 256) := by decide +kernel
/-- An idle queue; a mismatching stamp; slots of zeros, whose kind is not a tile's to push but a host's; a fence. -/
theorem witness_QueueEvents_begin :
    let s := fun (q : Queue) (m : Memory) => { tPackets .running [] with args := { Args.none with a := 7 }, dev := m, queues := [(7, q)] }
    let ok := fun (s : State) (q : Queue) => s.args.a < 98304 ∧ find s.queues s.args.a = some q ∧ q.kickPend = true ∧ q.state = .active ∧
      find s.contexts q.ctx = some (tMapped .running) ∧ (tMapped .running).state.consumes = true ∧ q.packets = []
    (let q := { tHosted .active 0 with wridx := 0 }
     ok (s q .empty) q ∧ q.rdidx = q.wridx) ∧
    (let q := tHosted .active 64
     ok (s q .empty) q ∧ q.rdidx ≠ q.wridx ∧ ((s q .empty).readSlot 7 q q.rdidx).queue 7 = some q ∧ ((s q .empty).readSlot 7 q q.rdidx).stamp = some 0 ∧ 0 ≠ q.rdidx / 2 ^ q.logSize % 256) ∧
    (∀ bs ∈ [tBytes [], tBytes [(0, 7), (1, 1)]],
      let q := { tHosted .active 0 with intf := 0 }
      let t := s q { epoch := none, cells := (cellsAt 0 bs).filter fun c => c.2 != 0 }
      ok t q ∧ q.rdidx ≠ q.wridx ∧ (t.readSlot 7 q q.rdidx).queue 7 = some q ∧ (t.readSlot 7 q q.rdidx).stamp = some (q.rdidx / 2 ^ q.logSize % 256)) ∧
    (tPackets .running []).packetReason 7 (tHosted .active 1) 0 (tBytes []) ≠ none ∧
    (tPackets .running []).packetReason 7 { tHosted .active 1 with intf := 0 } 0 (tBytes [(0, 7), (1, 1)]) = none := by decide +kernel
def tDonePacket (bs : List (Nat × Nat)) (failed : Bool) : Packet := { tPacket bs with complete := true, failed := failed, pusher := some (1, 0) }
def tDone (st : GroupState) (bs : List (Nat × Nat)) (failed : Bool) : State :=
  { tPackets .running [] with
    queues := [(0, tQueue .active [tDonePacket bs failed])]
    groups := [(1, tGroup st false (tTask none []))] }
theorem witness_QueueEvents_completion : ∀ f ∈ [false, true],
    let s := tDone .running [] f
    let q := tQueue .active [tDonePacket [] f]
    s.args.a < 98304 ∧ find s.queues s.args.a = some q ∧ q.packets.find? (fun p => p.index == s.args.b && p.complete) = some (tDonePacket [] f) ∧
      q.finished = [] ∧ (tDonePacket [] f).index = q.done ∧ (pkSemen (tDonePacket [] f).bytes = false ∨ (tDonePacket [] f).failed = true) := by
  decide +kernel
/-- A packet with a semaphore increments the pusher's, and waits while its group is switched out. -/
theorem witness_QueueEvents_semaphores :
    let l := [(4, 0x40), (5, 255)]
    let p := tDonePacket l false
    let q := tQueue .active [p]
    let e : Engine := { ctx := q.ctx, massif := 0 / 1024, group := p.pusher.map (·.1) }
    (∀ st ∈ [GroupState.running, .switched],
      let s := tDone st l false
      s.args.a = 0 ∧ s.args.a < 98304 ∧ find s.queues s.args.a = some q ∧ q.packets.find? (fun p => p.index == s.args.b && p.complete) = some p ∧
        pkSemen p.bytes = true ∧ p.failed = false) ∧
    (tDone .running l false).semTargets e p = .tiles [⟨(tDone .running l false).globals.modIdx, 0⟩] ∧ (tDone .switched l false).semTargets e p = .wait :=
  ⟨by decide +kernel, rfl, rfl⟩
theorem witness_QueueEvents_publications : ∀ c ∈ [3, 9],
    let q := { tQueue .active [] with pubs := [(3, 5, 0), (4, 6, 1)] }
    let s := { tPackets .running [] with args := { Args.none with a := 0, b := 7, c := c }, queues := [(7, q)] }
    s.tileExists s.args.a = true ∧ find s.queues s.args.b = some q ∧ q.pubs ≠ [] ∧
      (c = 3 → q.pubs.find? (fun e => e.1 == s.args.c) = some (3, 5, 0)) ∧
      (c = 9 → q.pubs.find? (fun e => e.1 == s.args.c) = none ∧ q.pubs.getLast? = some (4, 6, 1)) := by decide +kernel
/-- An advance that has reached the one binding, one that has not, and none. -/
theorem witness_QueueEvents_settle : ∀ d ∈ [0, 4, 5],
    let q := { tQueue .active [] with pubs := if d = 0 then [] else [(3, 5, 1), (5, 6, 0)] }
    let s := (tPackets .running []).onIo fun p => { p with bindings := [(4, { (tBinding 1) with queue := 0, donesh := .ofNat 64 d })] }
    let s := { s with queues := [(0, q)] }
    find s.queues 0 = some q ∧ (q.pubs.filter fun e => decide (q.doneReg < e.1) && s.reached 0 q e.1).getLast? =
      (if d = 0 then none else if d = 4 then some (3, 5, 1) else some (5, 6, 0)) := by decide +kernel
/-- R288: DONE moves with the last binding that an advance reaches. -/
theorem test_settle :
    let q := { tQueue .active [] with pubs := [(3, 5, 0)] }
    let s := fun (d : Nat) => { (tPackets .running []).onIo (fun p => { p with bindings := [(4, { (tBinding 1) with queue := 0, donesh := .ofNat 64 d })] }) with queues := [(0, q)] }
    (find ((s 2).settle 0).queues 0).map (·.doneReg) = some 0 ∧ (find ((s 3).settle 0).queues 0).map (·.doneReg) = some 3 := by decide +kernel
/-- A tile whose request queue holds one entry. -/
def tRequest (r : Nat) (k : ReqKind) (q : Queue) : State :=
  { tPackets .running [] with
    tile := (tBase.onIo fun p => { p with
      requests := [{ ready := r, kind := k, parked := false }], writes := [{ ready := 0, kind := .mark 3 }], fences := [tFence 3 0, tFence 4 1], remotes := [0] }).tile
    queues := [(7, q)] }
theorem witness_QueueEvents_requests :
    let ok := fun (r : Nat) (k : ReqKind) (q : Queue) => (tRequest r k q).tileExists (tRequest r k q).args.a = true ∧
      ((tRequest r k q).getTile (tRequest r k q).args.a).io.requests = [{ ready := r, kind := k, parked := false }] ∧ find (tRequest r k q).queues 7 = some q
    let q := { tQueue .active [] with wridx := 63 }
    (ok 1 (.mark 3) q ∧ (tRequest 1 (.mark 3) q).cycle < 1) ∧
    (∀ st ∈ [QueueState.active, .waitingContent],
      let s := tRequest 0 (.kick 7) (tHosted st 0)
      let t := s.getTile s.args.a
      let k := { tHosted st 0 with kickPend := true, windowFrom := none }
      ok 0 (.kick 7) (tHosted st 0) ∧ (tHosted st 0).state = st ∧
        ({ s.setTile s.args.a { t with io := { t.io with requests := [] } } with queues := put s.queues 7 k }.readSlot 7 k 0).stamp = some 0) ∧
    (∀ i ∈ [some 64, none],
      ok 0 (.push 0 7 i []) q ∧ (q.state = .active ∨ q.state = .waitingContent) ∧ (i = some 64 → q.rdidx + 2 ^ q.logSize ≤ i.getD q.wridx) ∧
        (i = none → i.getD q.wridx < q.rdidx + 2 ^ q.logSize)) ∧
    (∀ i ∈ [(3, 0), (4, 1)],
      let s := tRequest 0 (.fence i.1) q
      let t := s.getTile s.args.a
      ok 0 (.fence i.1) q ∧ t.io.fences.find? (fun f => f.id == i.1) = some (tFence i.1 i.2) ∧ s.fencePasses t (tFence i.1 i.2) = (i.2 == 0)) ∧
    (ok 0 (.mark 3) q ∧ ((tRequest 0 (.mark 3) q).getTile 0).io.writes = [{ ready := 0, kind := .mark 3 }]) := by decide +kernel
/-- The slot of index 63 is mapped. -/
theorem witness_QueueEvents_push : ∃ u a, (tRequest 0 (.push 0 7 none []) (tQueue .active [])).translate 0 (0 + 64 * (63 % 2 ^ 6)) true = .ok u a ∧
    u.reach 0 a = .ok u () := ⟨_, _, rfl, rfl⟩
/-! ### Witnesses: data packets and queue commands -/

/-- A copy of one byte from place (0, 0) to place (3, 3) of the partition. -/
def tPlaceWord (x y off : Nat) : Nat := 2 * 2 ^ 62 + x * 2 ^ 34 + y * 2 ^ 20 + off
def tDataFields (kind ver : Nat) (l : List (Nat × Nat)) : List (Nat × Nat) := [(0, kind), (1, ver), (8, tPlaceWord 0 0 63), (16, tPlaceWord 3 3 63)] ++ l
def Resolved.tile? : Resolved → Option PlaceAt
  | .tile p => some p
  | _ => none
theorem tile_of {r : Resolved} {p : PlaceAt} (h : r.tile? = some p) : r = .tile p := by cases r <;> simp_all [Resolved.tile?]
/-- What DataPackets calls readable and writable. -/
def tReads (s : State) (e : Engine) (a : Endp) (t n : Nat) : Bool :=
  a.ty != 0 && (s.resolve e (a.ty == 2) a.x a.y).tile? == some ⟨s.globals.modIdx, t⟩ && (s.powerOf (massifOf t)).holds == false &&
    (s.getTile t).ecc == [] && decide (1 ≤ n) && decide (a.off % 64 + n ≤ 64)
def tWritable (s : State) (e : Engine) (d : Endp) (x y t n : Nat) : Bool :=
  d.ty != 0 && d.imem == false && (s.resolve e (d.ty == 2) x y).tile? == some ⟨s.globals.modIdx, t⟩ && (s.powerOf (massifOf t)).state != .off &&
    (s.powerOf (massifOf t)).holds == false && decide (1 ≤ n) && decide (d.off % 64 + n ≤ 64)
def tIs (kind : Nat) (p : Packet) (s : State) : Bool := decide (s.args.a < 98304) && s.running (· == kind) == some (0, tQueue .active [p], p)
theorem witness_DataPackets :
    let go := fun (kind ver : Nat) (l : List (Nat × Nat)) (n : Nat) (f : Packet → Bool) =>
      let p := tPacket (tDataFields kind ver l)
      let s := tPackets .running (tDataFields kind ver l)
      let e := engineOf 0 (tQueue .active [p]) p
      p.next = 0 ∧ p.data = [] ∧ tIs kind p s = true ∧ f p = true ∧ tReads s e (pkSrc p) 0 n = true ∧ tWritable s e (pkDst p) (pkDst p).x (pkDst p).y 1155 n = true
    go 1 1 [(24, 1)] 1 (fun p => pkVer p.bytes == 1 && fieldOf p.bytes 24 8 == 1) ∧
    go 1 2 [(24, 1)] 1 (fun p => pkVer p.bytes == 2 && (copyDims p.bytes).all (·.n == 1) && fieldOf p.bytes 24 4 == 1) ∧
    go 2 1 [(24, 0), (26, 1), (28, 1), (32, 1), (36, 1)] 1
      (fun p => let t := tile2d p.bytes; t.th == 1 && t.tw == 1 && t.h == 1 && t.w == 1 && t.es == 1) ∧
    go 4 1 [(24, 1), (32, 1), (36, 1), (37, 1)] 1 (fun p => mcastTiles p.bytes (pkDst p) == [(3, 3)] && fieldOf p.bytes 32 4 == 1) ∧
    go 5 1 [(24, 1)] 1 (fun p => fieldOf p.bytes 24 8 == 1) := by decide +kernel
/-- What DataPackets calls source and target, at tiles 0 and 1155. -/
def tEnds (s : State) (q : Queue) (p : Packet) : Bool :=
  let e := engineOf 0 q p
  let a := pkSrc p
  let d := pkDst p
  a.ty != 0 && (s.resolve e (a.ty == 2) a.x a.y).tile? == some ⟨s.globals.modIdx, 0⟩ && (s.powerOf (massifOf 0)).holds == false && (s.getTile 0).ecc == [] &&
    d.ty != 0 && d.imem == false && (s.resolve e (d.ty == 2) d.x d.y).tile? == some ⟨s.globals.modIdx, 1155⟩ && (s.powerOf (massifOf 1155)).state != .off &&
    (s.powerOf (massifOf 1155)).holds == false && (s.getTile 1155).spad.wf
/-- Transfers of several pieces: 130 bytes; two bytes, the second a pitch of 64 further; a tile of two by two that reaches over the border; one place. -/
theorem witness_DataPackets_pieces :
    let go := fun (kind ver : Nat) (l : List (Nat × Nat)) (f : Packet → Bool) =>
      let p := tPacket (tDataFields kind ver l)
      p.next = 0 ∧ p.data = [] ∧ tIs kind p (tPackets .running (tDataFields kind ver l)) = true ∧
        tEnds (tPackets .running (tDataFields kind ver l)) (tQueue .active [p]) p = true ∧ f p = true
    go 1 1 [(24, 130)] (fun p => pkVer p.bytes == 1 && fieldOf p.bytes 24 8 == 130) ∧
    go 1 2 [(24, 1), (28, 2), (36, 1), (40, 64)] (fun p => pkVer p.bytes == 2 && fieldOf p.bytes 24 4 == 1 && copyDims p.bytes == [⟨2, 1, 64⟩, ⟨1, 0, 0⟩, ⟨1, 0, 0⟩]) ∧
    go 2 1 [(24, 0), (26, 2), (28, 2), (32, 2), (36, 1), (40, 2 ^ 32 - 1), (48, 1), (52, 2)]
      (fun p => let t := tile2d p.bytes; decide (1 ≤ t.tw) && decide (t.tw * t.es ≤ t.dp)) ∧
    go 4 1 [(24, 1), (32, 130), (36, 1), (37, 1)] (fun p => mcastTiles p.bytes (pkDst p) == [((pkDst p).x, (pkDst p).y)]) := by decide +kernel
/-- The blocks of the strided copy above lie at 63 and 127. -/
theorem witness_DataPackets_blocks : ∃ back : Nat → Option (Nat × Nat), ∀ k i b, back k = some (i, b) ↔ (i < 2 * 1 * 1 ∧ b < 1 ∧
    (((63 : Nat) : Int) + ((((i % 2 : Nat) : Int) * 64 + ((i / 2 % 1 : Nat) : Int) * 0 + ((i / 2 / 1 % 1 : Nat) : Int) * 0) + b)).toNat = k) := by
  refine ⟨fun k => if k = 63 then some (0, 0) else if k = 127 then some (1, 0) else none, fun k i b => ?_⟩
  show (if k = 63 then some (0, 0) else if k = 127 then some (1, 0) else none) = some (i, b) ↔ _
  split
  · simp; omega
  · split
    · simp; omega
    · simp; omega
/-- Two destinations; a source and a destination in device memory; a destination in a massif in retention. -/
theorem witness_DataPackets_ends :
    (let l := tDataFields 4 1 [(24, 3), (32, 1), (36, 0), (37, 0)]
     let p := tPacket l
     p.next = 0 ∧ p.data = [] ∧ tIs 4 p (tPackets .running l) = true ∧ mcastTiles p.bytes (pkDst p) = [(3, 3), (3, 3)] ∧ fieldOf p.bytes 32 4 = 1 ∧
       tEnds (tPackets .running l) (tQueue .active [p]) p = true) ∧
    (let l := [(0, 1), (1, 1), (8, 0x1000), (16, tPlaceWord 3 3 63), (24, 1)]
     let p := tPacket l
     p.next = 0 ∧ p.data = [] ∧ tIs 1 p (tPackets .running l) = true ∧ pkVer p.bytes = 1 ∧ (pkSrc p).ty = 0 ∧ (pkSrc p).va = 0x1000 ∧ fieldOf p.bytes 24 8 = 1 ∧
       tWritable (tPackets .running l) (engineOf 0 (tQueue .active [p]) p) (pkDst p) (pkDst p).x (pkDst p).y 1155 1 = true) ∧
    (∀ k ∈ [1, 5],
      let l := [(0, k), (1, 1), (8, tPlaceWord 0 0 63), (16, 0x1000), (24, 1)]
      let p := tPacket l
      p.next = 0 ∧ p.data = [] ∧ tIs k p (tPackets .running l) = true ∧ pkVer p.bytes = 1 ∧ (pkDst p).ty = 0 ∧ (pkDst p).va = 0x1000 ∧ fieldOf p.bytes 24 8 = 1 ∧
        (k = 1 → tReads (tPackets .running l) (engineOf 0 (tQueue .active [p]) p) (pkSrc p) 0 1 = true)) ∧
    (let l := tDataFields 5 1 [(24, 1)]
     let p := tPacket l
     let s := { tPackets .running l with power := [(0, { state := .retention, pending := none, lastErr := 0 })] }
     p.next = 0 ∧ p.data = [] ∧ tIs 5 p s = true ∧ 1 ≤ fieldOf p.bytes 24 8 ∧ (pkDst p).ty ≠ 0 ∧ (s.powerOf (massifOf 1155)).holds = true ∧ s.parkedAtEdge = [] ∧
       (s.resolve (engineOf 0 (tQueue .active [p]) p) ((pkDst p).ty == 2) (pkDst p).x (pkDst p).y).tile? = some ⟨s.globals.modIdx, 1155⟩) := by decide +kernel
theorem witness_DataPackets_address : ∀ w, ∃ u a, (tPackets .running []).translate 0 (0x1000 % 2 ^ 57) w = .ok u a ∧ u.reach 0 a = .ok u () ∧
    (u.countAccess 0 0 a).devEcc = [] := by
  intro w
  cases w
  · exact ⟨_, _, rfl, rfl, rfl⟩
  · exact ⟨_, _, rfl, rfl, rfl⟩
theorem witness_DataPackets_signal :
    let l := [(0, 9), (1, 1), (16, tPlaceWord 3 3 56)]
    let p := tPacket l
    let q := tQueue .active [p]
    let s := tPackets .running l
    p.next = 0 ∧ p.data = [] ∧ tIs 9 p s = true ∧ find s.queues s.args.a = some q ∧ q.earlierDone p.index = true ∧
      tWritable s (engineOf 0 q p) (pkDst p) (pkDst p).x (pkDst p).y 1155 8 = true := by decide +kernel
/-- An earlier packet of another class is still running. -/
theorem witness_DataPackets_order : ∀ k ∈ [7, 8, 9],
    let p := { tPacket [(0, k), (1, 1)] with index := 1, cls := 1 }
    let q := tQueue .active [tPacket [(0, 5)], p]
    let s := { tPackets .running [] with args := { Args.none with b := 1 }, queues := [(0, q)] }
    s.running (· == k) = some (0, q, p) ∧ find s.queues s.args.a = some q ∧ q.earlierDone p.index = false := by decide +kernel
/-- The source is a place of the pusher's group, which is switched out. -/
theorem witness_DataPackets_waits :
    let l := [(0, 1), (1, 1), (8, 2 ^ 62 + 63), (16, tPlaceWord 3 3 63), (24, 1)]
    let p := { tPacket l with pusher := some (1, 0) }
    let q := tQueue .active [p]
    let s := { tPackets .running l with queues := [(0, q)], groups := [(1, tGroup .switched false (tTask none []))] }
    (p.next = 0 ∧ p.data = [] ∧ s.args.a < 98304 ∧ s.running (· == 1) = some (0, q, p) ∧ pkVer p.bytes = 1 ∧ (pkSrc p).ty = 1 ∧
      tWritable s (engineOf 0 q p) (pkDst p) (pkDst p).x (pkDst p).y 1155 1 = true) ∧
    s.resolve (engineOf 0 q p) false 0 0 = .wait := ⟨by decide +kernel, rfl⟩
theorem witness_DataPackets_waits_fill :
    let l := [(0, 5), (1, 1), (16, 2 ^ 62 + 63), (24, 1)]
    let p := { tPacket l with pusher := some (1, 0) }
    let q := tQueue .active [p]
    let s := { tPackets .running l with queues := [(0, q)], groups := [(1, tGroup .switched false (tTask none []))] }
    (p.next = 0 ∧ p.data = [] ∧ s.args.a < 98304 ∧ s.running (· == 5) = some (0, q, p) ∧ 1 ≤ fieldOf p.bytes 24 8 ∧ (pkDst p).ty = 1) ∧
    s.resolve (engineOf 0 q p) false 0 0 = .wait := ⟨by decide +kernel, rfl⟩
theorem witness_DataPackets_prefetch : ∀ n ∈ [0, 4096],
    let l := [(0, 11), (1, 1), (8, 0x1000), (16, n)]
    let p := tPacket l
    p.next = 0 ∧ p.data = [] ∧ tIs 11 p (tPackets .running l) = true ∧ fieldOf p.bytes 16 8 = n ∧ (pkSrc p).va % 4096 + n ≤ 4096 := by decide +kernel
theorem witness_DataPackets_prefetch_address : ∃ u t, (tPackets .running []).translate 0 (0x1000 % 2 ^ 57) false = .ok u t := ⟨_, _, rfl⟩
/-- Stage-2 tables at 0x4000, 0x6000, 0x7000 and 0x8000; entry 0 of the last is `v`. Stage 1 has a range. -/
def tTabled : Context := { tMapped .running with xlat := { Translation.zero with s1range := [(0, tRange)], s2root := 0x4000 } }
def tTables (l : List (Nat × Nat)) (v : Nat) : State :=
  { tPackets .running l with
    contexts := [(0, tTabled)]
    dev := (((Memory.empty.writeNat 0x4000 8 0x600D).writeNat 0x6000 8 0x700D).writeNat 0x7000 8 0x800D).writeNat 0x8000 8 v }
/-- The walk answers an entry whose state satisfies `f`. -/
def Path.holds (p : Path) (a : Nat) (f : State → Bool) : Bool :=
  match p with
  | .entry u b => b == a && f u
  | _ => false
theorem reached {s : State} {g a n : Nat} (h : (s.reachAll g a n).ending = 0) : s.reachAll g a n = .ok s () := by
  unfold State.reachAll State.reach State.through at *
  repeat' split at h
  all_goals simp_all [Acc.ending]
def tMigrate (l : List (Nat × Nat)) : List (Nat × Nat) := [(0, 0x0A), (1, 1), (24, 0x80000000000)] ++ l
def tMoves (p : Packet) (n : Nat) (u : State) : Bool :=
  let c := fieldOf p.bytes 18 1
  let frame := fieldOf p.bytes 24 8
  let v := u.dpaNat 0x8000 8
  let l := u.pageLeaves c 0x8000 v
  decide (v % 4 = 3) && entryMalformed 2 c v == false && l.1.length == n && decide (fieldOf p.bytes 8 8 % l.2 = 0 ∧ frame % l.2 = 0) &&
    u.dpa frame != .bad && (u.reachAll 0 (entryAddr v / l.2 * l.2) l.2).ending == 0 && (u.reachAll 0 frame l.2).ending == 0 && u.devEcc == [] &&
    decide (l.1.length * u.entryHbm 2 c (frame + 3) ≤ l.1.length * u.entryHbm 2 c v)
/-- A 4 KiB page, and the sixteen entries of a 64 KiB page, move from HBM to the LPDDR memory. -/
theorem witness_DataPackets_migrate : ∀ n ∈ [1, 16],
    let p := tPacket (tMigrate [])
    let s := tTables (tMigrate []) (if n = 1 then 0x1000F else 0x1002F)
    let s := { s with dev := if n = 1 then s.dev else (List.range 16).foldl (fun d i => d.writeNat (0x8000 + 8 * i) 8 (0x1002F + 4096 * i)) s.dev }
    tIs 10 p s = true ∧ fieldOf p.bytes 8 8 = 0 ∧ fieldOf p.bytes 16 2 = 0 ∧ fieldOf p.bytes 18 1 = 0 ∧ fieldOf p.bytes 24 8 = 0x80000000000 ∧
      find s.contexts 0 = some tTabled ∧ 0x80000000000 % pageSize 0 = 0 ∧ ((s.path 0 tTabled 2 0 0).holds 0x8000 (tMoves p n)) = true := by decide +kernel

/-- Queue 0 under a command code in an interface that is bound to context 0. -/
def tControl (q : Queue) (c : Nat) : State :=
  { tPackets .running [] with
    args := { Args.none with a := 0, c := c }
    interfaces := [(4095, { Interface.zero with state := 1 })]
    links := [(420, { Link.zero with state := .active })]
    queues := [(0, q)]
    contexts := [(0, { tMapped .running with rcb := 0x1000 })]
    dev := Memory.empty.writeNat 0x1018 4 0xFFFFFFFF }
def tAsked (q : Queue) (c : Nat) : Bool :=
  let s := tControl q c
  decide (s.args.a < 98304) && s.args.flag == false && s.hostPort == true && s.queue s.args.a == q && s.args.c == c
theorem witness_QueueControl_commands :
    let fre := tQueue .free []
    let bad := { fre with logSize := 5 }
    let hosted := { fre with intf := 0x8000 }
    (tAsked { fre with qres := 256 } 1 = true ∧ ({ fre with qres := 256 } : Queue).busy = true) ∧
    (tAsked fre 4 = true ∧ fre.busy = false ∧ 4 ≤ (tControl fre 4).args.c) ∧
    (tAsked (tQueue .active []) 1 = true ∧ (tQueue .active []).busy = false ∧ (tQueue .active []).state ≠ .free) ∧
    (tAsked bad 1 = true ∧ bad.busy = false ∧ bad.state = .free ∧ (tControl bad 1).descriptorOk bad = false) ∧
    (tAsked hosted 1 = true ∧ hosted.busy = false ∧ hosted.state = .free ∧ (tControl hosted 1).descriptorOk hosted = true ∧
      (tControl hosted 1).bindOk 0 hosted = false) ∧
    (let s := tControl fre 1
     tAsked fre 1 = true ∧ fre.busy = false ∧ fre.state = .free ∧ s.descriptorOk fre = true ∧ s.bindOk 0 fre = true ∧
       s.fits 0x2C 4 s.effQslots (2 ^ fre.logSize) (s.ctxPath fre.ctx) = true ∧ ((s.addQslots 0 (2 ^ fre.logSize : Nat)).stampSlots fre (2 ^ fre.logSize) 0).2 = (2 ^ fre.logSize, false)) ∧
    (let s := { tControl fre 1 with dev := Memory.empty.writeNat 0x1018 4 1 }
     s.hostPort = true ∧ s.queue s.args.a = fre ∧ s.descriptorOk fre = true ∧ s.bindOk 0 fre = true ∧
       s.fits 0x2C 4 s.effQslots (2 ^ fre.logSize) (s.ctxPath fre.ctx) = false) ∧
    (∀ b ∈ [0, 256],
      let q := { fre with qres := b }
      let s := { tControl q 0 with args := { Args.none with b := 3, flag := true } }
      s.args.a < 98304 ∧ s.args.flag = true ∧ (s.queue s.args.a).busy = (b == 256) ∧ { s with links := [] }.hostPort = false) ∧
    (∀ st ∈ [QueueState.active, .error],
      let q := tQueue st []
      tAsked q 2 = true ∧ q.busy = false ∧ (q.state = .active ∨ q.state = .error) ∧ q.doneReg = q.wridx ∧ q.pushes = 0) ∧
    (let q := { tQueue .active [] with pushes := 1 }
     tAsked q 2 = true ∧ q.busy = false ∧ ¬((q.state = .active ∨ q.state = .error) ∧ q.doneReg = q.wridx ∧ q.pushes = 0)) ∧
    (∀ st ∈ [QueueState.active, .error], tAsked (tQueue st []) 3 = true ∧ (tQueue st []).busy = false ∧ (tQueue st []).state = st) := by
  decide +kernel
/-- The first slot lies in a page that is still to be pulled. -/
theorem witness_QueueControl_pulls :
    let q := tQueue .free []
    let s := { tTables [] 0x1001E with
      args := { Args.none with c := 1 }, queues := [(0, q)], links := [(420, { Link.zero with state := .active })], contexts := [(0, { tTabled with rcb := 0x1000 })]
      dev := (tTables [] 0x1001E).dev.writeNat 0x1018 4 0xFFFFFFFF }
    s.hostPort = true ∧ s.queue s.args.a = q ∧ s.args.c = 1 ∧ q.busy = false ∧ q.state = .free ∧ s.descriptorOk q = true ∧ s.bindOk 0 q = true ∧
      s.fits 0x2C 4 s.effQslots (2 ^ q.logSize) (s.ctxPath q.ctx) = true ∧ ((s.addQslots 0 (2 ^ q.logSize : Nat)).stampSlots q (2 ^ q.logSize) 0).2 = (0, false) := by decide +kernel
def tIface (st pasid : Nat) (q : Queue) : State :=
  { tControl q 0 with args := { Args.none with a := 4095 }, interfaces := [(4095, { Interface.zero with state := st, ctx := 0, pasid := pasid })] }
theorem witness_QueueControl_interfaces :
    let used := fun (s : State) => s.queues.any fun e => e.2.state != .free && e.2.iface == s.args.a && e.2.hostq
    let named := fun (s : State) => s.queues.any fun e => e.2.state != .free && e.2.iface == s.args.a
    let busy := fun (s : State) => s.queues.any fun e => e.2.state != .free && e.2.hostq && e.2.iface == s.args.a && e.2.packets.any fun p => !p.waiting
    let idle := tQueue .active []
    let host := { tQueue .active [tPacket []] with intf := 0x8FFF }
    (∀ st ∈ [0, 1, 2, 3], ∀ pasid ∈ [0, 1],
      let s := tIface st pasid idle
      s.args.a < 4096 ∧ s.hostPort = true ∧ (s.interface s.args.a).state = st ∧ (s.interface s.args.a).pasid = pasid ∧ find s.contexts (s.interface s.args.a).ctx = some { tMapped .running with rcb := 0x1000 } ∧
        (tMapped .running).state ≠ .free ∧ (tMapped .running).pasid = 0 ∧ (s.interface s.args.a).iflags.testBit 0 = false ∧ used s = false ∧ named s = false ∧
        busy s = false) ∧
    (let s := tIface 2 0 host
     s.args.a < 4096 ∧ (s.interface s.args.a).state = 2 ∧ busy s = true) ∧
    (let s := tIface 3 0 host
     s.args.a < 4096 ∧ (s.interface s.args.a).state = 3 ∧ named s = true) := by decide +kernel
/-- A queue that is cut off: free, in ERROR, and active with a packet that executes. -/
theorem witness_QueueControl_cut : ∀ st ∈ [QueueState.free, .error, .active],
    let y := { tQueue st [tPacket []] with intf := 0x8FFF }
    let s := tIface 1 0 y
    s.args.a < 4096 ∧ s.hostPort = true ∧ (s.interface s.args.a).state = 1 ∧ find s.queues 0 = some y ∧ y.state = st ∧
      (∀ p ∈ y.packets, p.parked = false ∧ p.waiting = false) ∧ y.wridx ≤ y.rdidx := by decide +kernel
/-! ### Witnesses: launches and groups -/

/-- The fields of a LAUNCH packet: image at 0x40000, no arguments, kernel 9, one tile in a grid of width 1, a predecessor. -/
def tLaunchPacket (pred : Nat) : List (Nat × Nat) := [(0, 0x10), (1, 1), (8, 0x40000), (32, 9), (36, 0x100001), (40, 1), (44, pred)]
/-- With completion records, and in a lockstep context (node at 0x1000) or not. -/
def tLaunching (pred : Nat) (done : List (Nat × Nat × Bool)) (flags : Nat) : State :=
  { tPackets .running (tLaunchPacket pred) with
    contexts := [(0, { tMapped .running with rcb := 0x1000, completions := done })]
    dev := Memory.empty.writeNat 0x1009 1 flags }
theorem witness_LaunchEvents_packet :
    let go := fun (pred : Nat) (done : List (Nat × Nat × Bool)) (flags : Nat) (lockstep : Bool) (r : Option (Option Bool)) =>
      let s := tLaunching pred done flags
      let p := tPacket (tLaunchPacket pred)
      let q := tQueue .active [p]
      let x := { tMapped .running with rcb := 0x1000, completions := done }
      let preds := ([44, 48, 52, 56].map fun o => fieldOf p.bytes o 4).filter (· != 0)
      s.args.a < 98304 ∧ find s.queues s.args.a = some q ∧
        q.packets.find? (fun p => p.index == s.args.b && pkKind p.bytes == 0x10 && !p.waiting && !p.parked && !p.complete) = some p ∧
        s.launchOf s.args.a p.index = none ∧ find s.contexts q.ctx = some x ∧ x.state.consumes = true ∧ preds.map x.predecessor = r.toList ∧
        s.effLockstep (s.ctxPath q.ctx) = lockstep
    go 0 [] 0 false none ∧ go 1 [(1, 1, true)] 0 false (some (some true)) ∧ go 1 [] 0 false (some none) ∧ go 1 [(1, 1, false)] 0 false (some (some false)) ∧
      go 1 [] 2 true (some none) := by decide +kernel
def tLaunched (st : LaunchState) (preds : List Nat) (done : List (Nat × Nat × Bool)) : State :=
  { tPackets .running (tLaunchPacket 0) with
    args := { Args.none with a := 1 }
    launches := [(1, { tLaunch with state := st, image := 0x40000, preds := preds, kernel := none, group := none })]
    contexts := [(0, { tMapped .running with completions := done })] }
theorem witness_LaunchEvents_deps :
    let go := fun (done : List (Nat × Nat × Bool)) (r : Option Bool) =>
      let s := tLaunched .waitDep [1] done
      let l := { tLaunch with state := .waitDep, image := 0x40000, preds := [1], kernel := none, group := none }
      let x := { tMapped .running with completions := done }
      find s.launches s.args.a = some l ∧ find s.contexts l.ctx = some x ∧ l.state = .waitDep ∧ x.state = .running ∧ l.preds.map x.predecessor = [r]
    go [(1, 1, true)] (some true) ∧ go [] none ∧ go [(1, 1, false)] (some false) := by decide +kernel
/-- An image of one bundle of NOPs and one task. -/
def tImage : List (Nat × Nat) :=
  [(0, 0x314B524F424C4942), (8, 2), (12, 12000), (20, 0xFFFFFFFF), (24, 1), (32, 0x80), (36, 0x20), (80, 0xA0), (84, 80), (104, 0xF0), (112, 0x70)]
def tImaged : State :=
  { tLaunched .check [] [] with dev := (tImage.foldl (fun m e => m.writeNat (0x40000 + e.1) (if e.1 = 8 ∨ e.1 = 24 then 2 else if e.1 = 0 then 8 else 4) e.2) .empty) }
def Checked.passed : Checked → Option Bool
  | .ok _ _ _ => some true
  | .fail _ _ _ => some false
  | _ => none
/-- It passes; memory of zeros does not. -/
theorem witness_LaunchEvents_check :
    let l := { tLaunch with state := .check, image := 0x40000, preds := [], kernel := none, group := none }
    let p := tPacket (tLaunchPacket 0)
    let q := tQueue .active [p]
    ∀ x ∈ [(tImaged, true), (tLaunched .check [] [], false)],
      let s := x.1
      find s.launches s.args.a = some l ∧ find s.queues l.queue = some q ∧ find s.contexts l.ctx = some (tMapped .running) ∧
        q.packets.find? (fun p => p.index == l.index) = some p ∧ l.state = .check ∧ (tMapped .running).state = .running ∧ p.parked = false ∧ q.turn p = true ∧
        (s.checkLaunch s.args.a l p.bytes).passed = some x.2 := by decide +kernel
/-- A launch that waits for a place on a node that admits one tile. -/
def tCand : State :=
  { tPackets .running [] with
    launches := [(1, { tLaunch with state := .waitPlace, group := none })]
    contexts := [(0, { tMapped .running with rcb := 0x1000 })]
    dev := Memory.empty.writeNat 0x100C 4 5 }
theorem witness_LaunchEvents_placement :
    (tCand.runDecision []).2 = some [0] ∧ (tPackets .running []).candidates = [] ∧
    (let c : Cand := { isGroup := false, num := 1, level := 0, ctx := 0, part := 0, seq := 0, passes := 0 }
     c.isGroup = false ∧ find tCand.launches c.num = some { tLaunch with state := .waitPlace, group := none } ∧
       ({ tLaunch with state := .waitPlace, group := none } : Launch).kernel = some (tKernel (tTask none []))) := by decide +kernel

theorem witness_GroupEvents_loaded :
    let g := tGroup .loading false (tTask none [])
    let s := { tGrouped .loading false (tTask none []) 0 .idle with launches := [(1, { tLaunch with state := .loading })] }
    find s.groups s.args.a = some g ∧ find s.launches g.launch = some { tLaunch with state := .loading } ∧ find s.contexts g.ctx = some { tCtx with rcb := 0 } ∧
      tCtx.state = .running ∧ g.state = .loading ∧ tLaunch.ctx = g.ctx ∧ g.tiles = [0] ∧ g.size = 1 := by decide +kernel
/-- The group holds its tile, and has lost it. -/
theorem witness_GroupEvents_own : ∀ st ∈ [GroupState.loading, .resuming],
    let g := tGroup st false (tTask none [])
    let s := tGrouped st false (tTask none []) 0 .idle
    s.ownTiles s.args.a g = g.tiles ∧ (s.onTile fun t => { t with place := { t.place with group := none } }).ownTiles s.args.a g ≠ g.tiles := by decide +kernel
theorem witness_GroupEvents_done :
    let g := tGroup .running false (tTask none [])
    let s := tGrouped .running false (tTask none []) 0 .ended
    find s.launches s.args.a = some tLaunch ∧ tLaunch.group = some 1 ∧ find s.groups 1 = some g ∧ tLaunch.state = .running ∧ g.state = .running ∧
      ∀ t ∈ g.tiles, (s.getTile t).finished = true ∧ s.outboundDone (s.getTile t) = true ∧ (s.getTile t).io.stores = [] ∧ (s.getTile t).io.amos = [] ∧
        (s.getTile t).io.inbound = [] := by decide +kernel
/-- Before its end; with no candidate; with one that fits beside the group's tile, and one that takes it. -/
theorem witness_GroupEvents_slices :
    let g := { tGroup .running false (tTask none []) with launch := 2, sliceEnd := 1 }
    let s := { tGrouped .running false (tTask none []) 0 .issuing with groups := [(1, g)] }
    let h := { g with sliceEnd := 0 }
    let u := { tCand with groups := [(1, h)], nextNum := 7, args := { Args.none with a := 1 } }
    (find s.groups s.args.a = some g ∧ g.state = .running ∧ s.cycle < g.sliceEnd) ∧
    (let v := { s with groups := [(1, h)] }
     find v.groups v.args.a = some h ∧ h.state = .running ∧ h.sliceEnd ≤ v.cycle ∧ (v.runDecision h.tiles).2 = none) ∧
    (let k := { h with tiles := [9 * 384] }
     let v := { u with groups := [(1, k)], tiles := [] }
     find v.groups v.args.a = some k ∧ k.state = .running ∧ k.sliceEnd ≤ v.cycle ∧ (v.runDecision k.tiles).2 = some [0] ∧ [0].any k.tiles.contains = false) ∧
    (find u.groups u.args.a = some h ∧ h.sliceEnd ≤ u.cycle ∧ (u.runDecision h.tiles).2 = some [0] ∧ [0].any h.tiles.contains = true ∧
      (find (u.runDecision h.tiles).1.groups u.args.a).map (·.state) = some .running) := by decide +kernel
theorem witness_GroupEvents_watchdog : ∀ st ∈ [TileStatus.halted, .ended, .issuing],
    let g := tGroup .preempting false (tTask none [])
    let s := { tGrouped .preempting false (tTask none []) 0 st with cycle := 51200 }
    find s.groups s.args.a = some g ∧ g.state = .preempting ∧ g.preemptAt = some 0 ∧ 0 + 51200 ≤ s.cycle ∧ g.tiles = [s.cur] ∧ s.tile.place.status = st := by
  decide +kernel
/-- The same in a handler. -/
theorem witness_GroupEvents_watchdog_handler : ∀ h ∈ [false, true],
    let s := { tGrouped .preempting false (tTask none []) 0 .issuing with cycle := 51200 }
    (s.onCtl fun c => { c with handler := h }).tile.ctl.inHandler 51200 = h := by decide +kernel
/-- Two contexts of one fault domain: one condition, and one of each. -/
theorem witness_GroupEvents_domain :
    let x := tMapped .running
    let s := { tPackets .running [] with queues := [], contexts := [(0, { x with rcb := 0x1000 }), (1, { x with rcb := 0x1000 })] }
    let u := { s with timers := [(0, .fatalTeardown, { Args.none with a := 1 })] }
    s.args.a < 1024 ∧ s.args.a ≠ 1 ∧ s.faultDomain 0 = some 0x1000 ∧ s.faultDomain 1 = some 0x1000 ∧ x.state = .running ∧ s.groups = [] ∧ s.launches = [] ∧
      s.queues = [] ∧ (s.timers.any fun e => e.2.1 == .fatalTeardown && e.2.2.a == 1) = false ∧
      (u.timers.any fun e => e.2.1 == .fatalTeardown && e.2.2.a == 1) = true := by decide +kernel
theorem witness_GroupEvents_saved :
    (let g := tGroup .preempting false (tTask none [])
     let s := tGrouped .preempting false (tTask none []) 0 .ended
     find s.groups s.args.a = some g ∧ g.state = .preempting ∧ (∀ t ∈ g.tiles, s.savable t = true) ∧ g.arrivals = [] ∧ g.releases = []) ∧
    (let g := tGroup .resuming false (tTask none [])
     let s := tGrouped .resuming false (tTask none []) 0 .idle
     find s.groups s.args.a = some g ∧ g.state = .resuming ∧ find s.contexts g.ctx = some { tCtx with rcb := 0 } ∧ tCtx.state = .running) := by decide +kernel
theorem witness_GroupEvents_contexts :
    (let s := { tPackets .suspending [] with queues := [] }
     s.args.a < 1024 ∧ find s.contexts s.args.a = some (tMapped .suspending) ∧ (tMapped .suspending).state = .suspending ∧ s.packetsQuiet s.args.a = true ∧
       (∀ e ∈ s.groups, e.2.ctx = s.args.a → e.2.state = .switched ∨ e.2.state = .ended ∨ e.2.state = .discarded) ∧ s.pendingCommand 0x2C s.args.a = none) ∧
    (let s := { tPackets .running [] with queues := [] }
     s.args.a < 1024 ∧ s.faultDomain s.args.a = some 0x1000 ∧ s.contexts = [(s.args.a, tMapped .running)] ∧ (tMapped .running).state = .running ∧
       (∀ e ∈ s.groups, e.2.ctx ≠ s.args.a) ∧ (∀ e ∈ s.launches, e.2.ctx ≠ s.args.a) ∧ (∀ e ∈ s.queues, e.2.ctx ≠ s.args.a) ∧
       s.pendingCommand 0x2C s.args.a = none) ∧
    (let s := tPackets .migratingOut []
     s.args.a < 1024 ∧ s.faultDomain s.args.a = some 0x1000 ∧ s.contexts = [(s.args.a, tMapped .migratingOut)] ∧ (tMapped .migratingOut).state = .migratingOut) ∧
    (let s := tGrouped .running false (tTask none []) 0 .ended
     find s.groups s.args.a = some (tGroup .running false (tTask none [])) ∧ GroupState.running ≠ .ended ∧ GroupState.running ≠ .discarded) := by decide +kernel
/-! ### Witnesses: commands for contexts -/

/-- A policy that accepts the firmware of module 0. -/
def tPolicy : List Byte := [1, 0, 0, 0, 0, 0, 0, 0, 0, 0, 0, 0, 0, 0, 0, 0] ++ firmwareOf 0
def tSlot (st : SlotState) : Counter :=
  { state := st, lineage := 0x5000, key := 0, counter := 8, policy := tPolicy, src := 0, cert := [], fwd := (0, 0), held := [] }
/-- A command of queue 0 for context 1 in its step `n`, whose other fields are `l`; context 1 is `x`, with its lineage's slot here. -/
def tFields (kind f : Nat) (l : List (Nat × Nat)) : List (Nat × Nat) := [(0, kind), (1, 1), (16, 1), (18, f)] ++ l
def tStep (kind f n : Nat) (l : List (Nat × Nat)) : Packet := { tPacket (tFields kind f l) with next := n }
def tCommand (kind f n : Nat) (l : List (Nat × Nat)) (x : Context) (st : SlotState) : State :=
  { tPackets .running (tFields kind f l) with
    args := { Args.none with flag := true }
    contexts := [(0, tMapped .running), (1, x)]
    globals := { tBase.globals with measured := firmwareOf 0 }
    counters := [(4, tSlot st)]
    queues := [(0, tQueue .active [tStep kind f n l])] }
def tAt (st : CtxState) : Context := { tMapped st with lineage := 0x5000 }
/-- Whether the packet in that state is accepted as a command of its kind. -/
def tAccepted (s : State) (kind f n : Nat) (l : List (Nat × Nat)) : Bool :=
  s.commandPacket (· == kind) == some (0, tQueue .active [tStep kind f n l], tStep kind f n l) && decide (s.args.a < 98304) && s.globals.boot == 7 &&
    pkSemen (tStep kind f n l).bytes == false && fieldOf (tStep kind f n l).bytes 19 1 == 0 && (tStep kind f n l).next != statusHeld
theorem accepted {s : State} {kind f n : Nat} {l : List (Nat × Nat)} (h : tAccepted s kind f n l = true) :
    s.accepts kind 0 (tQueue .active [tStep kind f n l]) (tStep kind f n l) := by
  simp only [tAccepted, Bool.and_eq_true, decide_eq_true_eq, beq_iff_eq, bne_iff_ne] at h
  exact ⟨h.1.1.1.1.2, h.1.1.1.2, h.1.1.1.1.1, h.1.1.2, h.1.2, h.2⟩

/-- CTX_CREATE of context 5 whose node at 0x2000 names it; the policy at 0x3000. -/
def tCreate (kind f : Nat) (c w : Nat) : State :=
  { tCommand kind f 0 [(16, c - 1), (32, 0x2000), (40, w)] (tAt .created) .live with
    dev := (((Memory.empty.writeNat 0x201C 4 12800).writeNat 0x2038 4 5)).writeNat 0x3000 1 4 }
theorem witness_ContextCommands_create : ∀ fw ∈ [(0, 0x5000), (1, 0x3000)],
    let s := tCreate 0x2B fw.1 5 fw.2
    let l := [(16, 4), (32, 0x2000), (40, fw.2)]
    let bs := (tStep 0x2B fw.1 0 l).bytes
    tAccepted s 0x2B fw.1 0 l = true ∧ fieldOf bs 16 2 = 5 ∧ fieldOf bs 18 1 = fw.1 ∧ fieldOf bs 20 4 < 2 ^ 20 ∧ fieldOf bs 24 1 < 96 ∧
      zeroIn bs 25 32 = true ∧ zeroIn bs 48 63 = true ∧ fieldOf bs 40 8 = fw.2 ∧ fw.2 < 2 ^ 56 ∧ fw.2 / 2 ^ 12 % 2 ^ 9 < 432 ∧ find s.contexts 5 = none ∧
      s.chainOk (fieldOf bs 32 8) 5 = true ∧ ¬16 ≤ (s.contexts.filter fun e => e.2.partition == fieldOf bs 24 1).length ∧ s.dpa fw.2 ≠ .bad ∧
      (fw.1 = 1 → policyOk (s.dpaBytes fw.2 144) = true) ∧ s.freeSlot = some 0 := by decide +kernel
/-- The policy is read where memory is, and an address without memory is a fault; a policy of no list is malformed. -/
theorem witness_ContextCommands_policy :
    (∃ u, (tCreate 0x2B 1 5 0x3000).commandReads [(0x3000, 144)] = .ok u () ∧ policyOk (u.dpaBytes 0x3000 144) = true ∧ u.freeSlot = some 0 ∧
      find u.contexts 5 = none ∧ u.chainOk 0x2000 5 = true ∧ (u.contexts.filter fun e => e.2.partition == 0).length < 16) ∧
    (∃ u, (tCreate 0x2B 1 5 0x4000).commandReads [(0x4000, 144)] = .ok u () ∧ policyOk (u.dpaBytes 0x4000 144) = false) ∧
    (∃ u g, (tCreate 0x2B 1 5 0x60000000000).commandReads [(0x60000000000, 144)] = .fault u g) :=
  ⟨⟨_, rfl, by decide +kernel, by decide +kernel, by decide +kernel, by decide +kernel, by decide +kernel⟩, ⟨_, rfl, by decide +kernel⟩, _, _, rfl⟩
/-- A number in use, a node of another context, a full partition. -/
theorem witness_ContextCommands_refused :
    let bs := fun (c : Nat) => (tStep 0x2B 0 0 [(16, c - 1), (32, 0x2000), (40, 0x5000)]).bytes
    let ok := fun (s : State) (c : Nat) => tAccepted s 0x2B 0 0 [(16, c - 1), (32, 0x2000), (40, 0x5000)] && fieldOf (bs c) 16 2 == c
    (ok (tCreate 0x2B 0 1 0x5000) 1 = true ∧ find (tCreate 0x2B 0 1 0x5000).contexts 1 = some (tAt .created)) ∧
    (ok (tCreate 0x2B 0 6 0x5000) 6 = true ∧ find (tCreate 0x2B 0 6 0x5000).contexts 6 = none ∧ (tCreate 0x2B 0 6 0x5000).chainOk 0x2000 6 = false) ∧
    (let s := { tCreate 0x2B 0 5 0x5000 with contexts := (0, tMapped .running) :: (List.range 16).map fun n => (n + 6, tMapped .created) }
     ok s 5 = true ∧ find s.contexts 5 = none ∧ s.chainOk 0x2000 5 = true ∧ 16 ≤ (s.contexts.filter fun e => e.2.partition == fieldOf (bs 5) 24 1).length) := by
  decide +kernel
/-- Every state of context 1 under the three commands that a state may refuse, and CTX_DESTROY. -/
theorem witness_ContextCommands_states : ∀ st ∈ [CtxState.running, .suspended, .haltedDiverged, .created], ∀ kind ∈ [0x2C, 0x2D, 0x2E],
    let s := tCommand kind 0 0 [] (tAt st) .live
    let bs := (tStep kind 0 0 []).bytes
    tAccepted s kind 0 0 [] = true ∧ fieldOf bs 18 1 = 0 ∧ zeroIn bs 20 63 = true ∧ fieldOf bs 16 2 = 1 ∧ find s.contexts 1 = some (tAt st) ∧
      (tAt st).state = st ∧ (tAt st).state ≠ .free ∧ (tStep kind 0 0 []).next ≠ 1 ∧ (∀ e ∈ s.groups, e.2.ctx ≠ 1) ∧ (tAt st).keepSealed = false := by
  decide +kernel
/-- A kept seal: the home here; on another module, before its answer and after. -/
theorem witness_ContextCommands_home :
    let x := { tAt .suspended with keepSealed := true }
    let y := { x with home := 431 }
    let s := tCommand 0x2D 0 0 [] x .live
    let far := fun (n : Nat) (code : BitVec 8) =>
      let u := tCommand 0x2D 0 n [] y .live
      { u with globals := { u.globals with present := [0, 431] }, args := { u.args with peer := ⟨code, 0⟩ } }
    (tAccepted s 0x2D 0 0 [] = true ∧ find s.contexts 1 = some x ∧ x.state = .suspended ∧ x.keepSealed = true ∧ (tStep 0x2D 0 0 []).next ≠ 2 ∧
      (tSlot .live).counter ≠ 2 ^ 64 - 1) ∧
    (∀ n ∈ [0, 2], ∀ code ∈ [0, 6, 9],
      tAccepted (far n code) 0x2D 0 n [] = true ∧ find (far n code).contexts 1 = some y ∧ y.state = .suspended ∧ y.keepSealed = true ∧
        431 ≠ (far n code).globals.modIdx ∧ (tStep 0x2D 0 n []).next = n ∧ (far n code).args.peer.status = code) := by decide +kernel
theorem witness_ContextCommands_homes :
    (tCommand 0x2D 0 0 [] (tAt .suspended) .live).home 0 0x5000 = .here 4 (tSlot .live) ∧
      ({ tCommand 0x2D 0 0 [] (tAt .suspended) .live with globals := { tBase.globals with present := [0, 431] } } : State).home 431 0x5000 = .away 431 none :=
  ⟨rfl, rfl⟩
/-- REHOME of lineage 0x5000 to module `h`, in step `n`, with the slot in state `st`. -/
def tMove (f n h : Nat) (st : SlotState) (ok : Bool) (code : BitVec 8) : State :=
  let s := tCommand 0x2F f n [(24, 0x5000), (32, h)] (tAt .suspended) st
  { s with globals := { s.globals with present := [0, 431] }, args := { s.args with flag := ok, peer := ⟨code, 7⟩ } }
theorem witness_ContextCommands_moves :
    let l := fun (h : Nat) => [(24, 0x5000), (32, h)]
    let ok := fun (f n h : Nat) (s : State) =>
      let bs := (tStep 0x2F f n (l h)).bytes
      tAccepted s 0x2F f n (l h) && zeroIn bs 20 24 && fieldOf bs 24 8 == 0x5000 && fieldOf bs 32 2 == h && zeroIn bs 34 63 && fieldOf bs 18 1 == f &&
        (tStep 0x2F f n (l h)).next == n
    let at_ := fun (st : SlotState) (s : State) => (s.slotOf 0x5000).map (fun e => (e.1, e.2.state, e.2.held)) == some (4, st, [])
    let fwd := fun (s : State) => (s.counters.find? fun e => e.2.lineage == 0x5000 && e.2.state == .forward).map (·.1)
    (ok 1 0 0 (tMove 1 0 0 .forward true 0) = true ∧ fwd (tMove 1 0 0 .forward true 0) = some 4) ∧
    (ok 1 0 0 (tMove 1 0 0 .live true 0) = true ∧ fwd (tMove 1 0 0 .live true 0) = none ∧ at_ .live (tMove 1 0 0 .live true 0) = true) ∧
    (ok 0 0 0 (tMove 0 0 0 .moving true 0) = true ∧ at_ .moving (tMove 0 0 0 .moving true 0) = true) ∧
    (∀ h ∈ [0, 430, 431], ok 0 0 h (tMove 0 0 h .live true 0) = true ∧ at_ .live (tMove 0 0 h .live true 0) = true ∧
      (tMove 0 0 h .live true 0).globals.present.contains h = (h != 430)) ∧
    (∀ n ∈ [1, 2], ok 0 n 431 (tMove 0 n 431 .moving false 0) = true ∧ at_ .moving (tMove 0 n 431 .moving false 0) = true ∧
      (tMove 0 n 431 .moving false 0).args.flag = false) ∧
    (ok 0 1 0 (tMove 0 1 0 .moving true 0) = true ∧ at_ .moving (tMove 0 1 0 .moving true 0) = true ∧ (tMove 0 1 0 .moving true 0).freeSlot = some 0) ∧
    (∀ code ∈ [0, 2], ok 0 3 431 (tMove 0 3 431 .moving true code) = true ∧ at_ .moving (tMove 0 3 431 .moving true code) = true ∧
      (tMove 0 3 431 .moving true code).args.peer.status = code) := by decide +kernel
/-- The quotes of modules 0 and 431 under policies that accept them. -/
theorem attested_policy (s : State) (m : Nat) (h : s.globals.present.contains m = true)
    (g : m = s.globals.modIdx → s.globals.measured = firmwareOf m) :
    s.attested ([1, 0, 0, 0, 0, 0, 0, 0, 0, 0, 0, 0, 0, 0, 0, 0] ++ firmwareOf m) m true = true := by
  have e : (firmwareOf m).length = 32 := by simp [firmwareOf]
  have d : ([1, 0, 0, 0, 0, 0, 0, 0, 0, 0, 0, 0, 0, 0, 0, 0] ++ firmwareOf m).drop 16 = firmwareOf m := by simp
  have a : acceptList ([1, 0, 0, 0, 0, 0, 0, 0, 0, 0, 0, 0, 0, 0, 0, 0] ++ firmwareOf m) = [firmwareOf m] := by
    have c : fieldOf ([1, 0, 0, 0, 0, 0, 0, 0, 0, 0, 0, 0, 0, 0, 0, 0] ++ firmwareOf m) 0 1 = 1 := by simp [fieldOf, leNat]
    simp only [acceptList, c, List.range_one, List.map_cons, List.map_nil, Nat.mul_zero, Nat.add_zero, d]
    rw [List.take_of_length_le (by omega)]
  have r : ¬m = s.globals.modIdx ∨ s.globals.measured = firmwareOf m := by
    by_cases q : m = s.globals.modIdx
    · exact .inr (g q)
    · exact .inl q
  simp only [State.attested, a, h, Bool.or_true, Bool.and_true, Bool.true_and]
  simpa using r
theorem witness_ContextCommands_quotes : (tMove 0 1 0 .moving true 0).attested (tSlot .moving).policy 0 true = true ∧
    (tMove 0 2 431 .moving true 0).attested ([1, 0, 0, 0, 0, 0, 0, 0, 0, 0, 0, 0, 0, 0, 0, 0] ++ firmwareOf 431) 431 true = true :=
  ⟨attested_policy _ 0 (by decide +kernel) fun _ => rfl, attested_policy _ 431 (by decide +kernel) fun h => absurd h (by decide +kernel)⟩
/-- A slot whose policy accepts module 431, in the step that moves it there. -/
theorem witness_ContextCommands_moves_away :
    let k := { tSlot .moving with policy := [1, 0, 0, 0, 0, 0, 0, 0, 0, 0, 0, 0, 0, 0, 0, 0] ++ firmwareOf 431 }
    let s := { tMove 0 2 431 .moving true 0 with counters := [(4, k)] }
    let l := [(24, 0x5000), (32, 431)]
    tAccepted s 0x2F 0 2 l = true ∧ fieldOf (tStep 0x2F 0 2 l).bytes 32 2 = 431 ∧ (tStep 0x2F 0 2 l).next = 2 ∧ s.slotOf 0x5000 = some (4, k) ∧
      k.state = .moving ∧ s.attested k.policy 431 s.args.flag = true ∧ 431 ≠ s.globals.modIdx :=
  ⟨by decide +kernel, by decide +kernel, rfl, rfl, rfl, attested_policy _ 431 (by decide +kernel) fun h => absurd h (by decide +kernel), by decide +kernel⟩
/-- Requests of module 0 and the slot's states. -/
def tAsk (k n : Nat) (st : SlotState) (ok : Bool) : State :=
  let s := tCommand 0x2D 0 0 [] (tAt .suspended) st
  { s with args := { s.args with req := { Args.none.req with kind := k, lineage := 0x5000, counter := n, source := 0, src := 0, quoteOk := ok } } }
theorem witness_ContextCommands_requests :
    let at_ := fun (st : SlotState) (s : State) => (s.slotOf 0x5000).map (fun e => (e.1, e.2.state, e.2.counter, e.2.src)) == some (4, st, 8, 0)
    (tAsk 5 0 .live true).args.req.kind = 5 ∧ ((tAsk 3 0 .live true).args.req.kind = 3 ∧ (tAsk 3 0 .live true).freeSlot = some 0) ∧
    ((tAsk 0 0 .live true).args.req.kind = 0 ∧ ({ tAsk 0 0 .live true with counters := [] } : State).slotOf 0x5000 = none) ∧
    (∀ st ∈ [SlotState.moving, .forward], (tAsk 0 0 st true).args.req.kind ≠ 3 ∧ (tAsk 0 0 st true).args.req.kind ≠ 5 ∧
      ((tAsk 0 0 st true).slotOf 0x5000).map (·.2.state) = some st) ∧
    (∀ k ∈ [0, 1, 2, 4], ∀ n ∈ [7, 8, 9], ∀ q ∈ [false, true], at_ .live (tAsk k n .live q) = true ∧ (tAsk k n .live q).args.req.kind = k ∧
      (tAsk k n .live q).args.req.counter = n ∧ (tAsk k n .live q).args.req.quoteOk = q ∧ (tAsk k n .live q).args.req.src = 0) := by decide +kernel
/-- A key for this module and one for another; a lineage that has left this home. -/
theorem witness_ContextCommands_keys : ∀ m ∈ [0, 431],
    let s := tAsk 3 0 .live true
    let r := { s.args.req with key := ⟨m, []⟩ }
    let s := { s with args := { s.args with req := r } }
    s.args.req.kind = 3 ∧ s.freeSlot = some 0 ∧ (s.args.req.key.receiver = s.globals.modIdx ↔ m = 0) := by decide +kernel
/-- A status word with nowhere to go yet; an address of the host over a port that is down, and one that carries. -/
theorem witness_ContextCommands_status :
    (let s := tCommand 0x2D 0 0 [] (tAt .suspended) .live
     let p := { tStep 0x2D 0 0 [] with next := statusHeld, data := natBytes 6 8 }
     let u := { s with queues := [(0, tQueue .active [p])] }
     u.args.a < 98304 ∧ u.globals.boot = 7 ∧ u.commandPacket (· == 0x2D) = some (0, tQueue .active [p], p) ∧ p.next = statusHeld) ∧
    (let s := fun (st : LinkState) => { tCommand 0x2D 0 0 [] (tAt .suspended) .live with links := [(420, { Link.zero with state := st })] }
     let a := fun (n : Nat) => fieldOf (tStep 0x2D 0 0 [(8, n)]).bytes 8 8
     a 0 = 0 ∧ a (hostWindow + 64) ≠ 0 ∧ (s .active).dpa (a (hostWindow + 64)) ≠ .bad ∧ (s .active).dpa (a (2 ^ 55 - 1)) = .bad ∧
       ((s .active).reach 0 (a (hostWindow + 64))).ending = 0 ∧ ((s .down).reach 0 (a (hostWindow + 64))).ending = 1 ∧
       ((s .retraining).reach 0 (a (hostWindow + 64))).ending = 2) := by decide +kernel
/-- Requests that name a slot: two slots of one lineage that forward. -/
theorem witness_ContextCommands_named :
    let j := { tSlot .forward with policy := [] }
    let k := { j with fwd := (431, 3) }
    let r := { Args.none.req with lineage := 0x5000, slot := some 9 }
    let s := { tAsk 0 0 .forward true with counters := [(4, j), (9, k)] }
    (∀ e ∈ s.counters, e.2.lineage = r.lineage → e.2.state = .forward) ∧ r.slot = some 9 ∧ (9, k) ∈ s.counters ∧
      (∀ e ∈ s.counters, e.1 = 9 → e.2 = k) ∧ k.lineage = r.lineage ∧ k.fwd.1 ≠ s.globals.modIdx ∧ j.fwd.1 = s.globals.modIdx := by
  decide +kernel
theorem witness_ContextCommands_released : ∀ l ∈ [[], [0x5000]],
    let s := { tAsk 0 0 .live true with counters := [], released := l }
    s.args.req.kind ≠ 3 ∧ s.args.req.kind ≠ 5 ∧ s.slotOf s.args.req.lineage = none ∧ s.released.contains s.args.req.lineage = !l.isEmpty := by decide +kernel
/-- The answer to a request of this module, whose packet is still there. -/
theorem witness_ContextCommands_own : ∀ kind ∈ [0x24, 0x25, 0x2D],
    let s := tCommand kind 0 1 [] (tAt .sealing) .live
    let a := { Args.none.req with packet := some (0, 0) }
    let y := tQueue .active [tStep kind 0 1 []]
    a.packet = some (0, 0) ∧ find s.queues 0 = some y ∧ y.packets.find? (fun p => p.index == 0) = some (tStep kind 0 1 []) ∧
      pkKind (tStep kind 0 1 []).bytes = kind := by decide +kernel
theorem find_same {β : Type} (v : β) (k : Nat) : ∀ l : List Nat, k ∈ l → find (l.map fun n => (n, v)) k = some v := by
  intro l
  induction l with
  | nil => simp
  | cons a r ih =>
    intro h
    by_cases e : a = k
    · simp [find, e]
    · simp only [List.map_cons, find, e, if_false]
      exact ih ((List.mem_cons.1 h).resolve_left fun h => e h.symm)
theorem witness_ContextCommands_full :
    let s := { tAsk 3 0 .live true with counters := (List.range 4096).map fun n => (n, tSlot .live) }
    s.args.req.kind = 3 ∧ s.freeSlot = none := by
  refine ⟨rfl, ?_⟩
  simp only [State.freeSlot, List.find?_eq_none]
  intro n hn
  rw [find_same _ n _ hn]; simp [tSlot]
/-- Both the asking module and the home satisfy the policy, and with a quote that does not verify they do not. -/
theorem witness_ContextCommands_attested : ∀ k n,
    (let s := tAsk k n .live true
     s.attested (tSlot .live).policy s.args.req.source s.args.req.quoteOk = true ∧ s.attested (tSlot .live).policy s.globals.modIdx true = true) ∧
    (let s := tAsk k n .live false
     ¬(s.attested (tSlot .live).policy s.args.req.source s.args.req.quoteOk = true ∧ s.attested (tSlot .live).policy s.globals.modIdx true = true)) :=
  fun _ _ => ⟨⟨attested_policy _ 0 rfl fun _ => rfl, attested_policy _ 0 rfl fun _ => rfl⟩, fun h => by simp [tAsk, State.attested] at h⟩
/-! ### Witnesses: images and places -/

theorem padded_nil : padded [] = [] := rfl
/-- With open records of no bytes, a context with no group, queue, ring or mapped page seals its range entries and its nodes. -/
theorem payload_small (h : ∀ a l, Config.openLength a l = 0) (k : Cairn) (g : k.groups = []) (q : k.queues = []) (r : k.ring.2 = []) (t : k.tables = [])
    (p : k.pages = []) : k.payload = padded k.rcb.flatten ++ padded (rangeBytes k.context.xlat.s1range ++ rangeBytes k.context.xlat.s2range) := by
  have o : ∀ a l, openRecord a l = [] := fun a l => by simp [openRecord, h]
  simp [Cairn.payload, o, g, q, r, t, p, padded_nil]
def tSealFields (dlen : Nat) : List (Nat × Nat) := [(24, 0x10000), (32, dlen)]
def tSeal (n dlen : Nat) (x : Context) (st : SlotState) (ok : Bool) : State :=
  let s := tCommand 0x24 0 n (tSealFields dlen) x st
  { s with args := { s.args with flag := ok }, globals := { s.globals with present := [0, 431] } }
/-- What is read of device memory depends on its bytes and errors, the cycle, the host's memory and the globals. -/
theorem dpaBytes_same {s t : State} (d : s.dev = t.dev) (e : s.devEcc = t.devEcc) (c : s.cycle = t.cycle) (g : s.globals = t.globals)
    (h : s.host = t.host) (a n : Nat) : s.dpaBytes a n = t.dpaBytes a n := by
  induction n generalizing a with
  | zero => rfl
  | succ n ih => simp only [State.dpaBytes, ih, State.dpaByte, State.dpa, State.devNat, d, e, c, g, h]
theorem rcbPath_same {s t : State} (d : s.dev = t.dev) (e : s.devEcc = t.devEcc) (c : s.cycle = t.cycle) (g : s.globals = t.globals)
    (a n : Nat) : s.rcbPath a n = t.rcbPath a n := by
  induction n generalizing a with
  | zero => rfl
  | succ n ih =>
    have o : ∀ a, s.ownBase a = t.ownBase a := fun a => by simp only [State.ownBase, g]
    have r : ∀ a n, s.devNat a n = t.devNat a n := fun a n => by simp only [State.devNat, d, e, c]
    simp only [State.rcbPath, ih, o, r]
theorem nodes_same {s t : State} (d : s.dev = t.dev) (e : s.devEcc = t.devEcc) (c : s.cycle = t.cycle) (g : s.globals = t.globals)
    (h : s.host = t.host) (a : Nat) : ((s.rcbPath a 6).map fun x => s.dpaBytes x 256) = (t.rcbPath a 6).map fun x => t.dpaBytes x 256 := by
  rw [rcbPath_same d e c g]
  exact List.map_congr_left fun x _ => dpaBytes_same d e c g h x 256
def tSealBase : State := { tSeal 0 0x10000 (tAt .suspended) .live true with counters := [] }
theorem length_small (h : ∀ a l, Config.openLength a l = 0) (n counter : Nat) (x : Context) (key : List Byte) (ok : Bool) (cs : List (Nat × Counter))
    (hx : x.xlat = (tAt .suspended).xlat) (hr : x.rcb = 0x1000) :
    cairnLength (({ tSeal n 0x10000 x .live ok with counters := cs } : State).cairnOf 1 x counter 0 key).payload.length = 17168 := by
  generalize hs : ({ tSeal n 0x10000 x .live ok with counters := cs } : State) = s
  have nodes : ((s.rcbPath 0x1000 6).map fun x => s.dpaBytes x 256) = (tSealBase.rcbPath 0x1000 6).map fun x => tSealBase.dpaBytes x 256 :=
    nodes_same (by subst hs; rfl) (by subst hs; rfl) (by subst hs; rfl) (by subst hs; rfl) (by subst hs; rfl) _
  have groups : (s.cairnOf 1 x counter 0 key).groups = [] := by subst hs; rfl
  have queues : (s.cairnOf 1 x counter 0 key).queues = [] := by subst hs; rfl
  rw [payload_small h _ groups queues (by simp only [State.cairnOf, State.ringBytes, hx]; rfl) (by simp only [State.cairnOf, hx]; rfl) rfl]
  have e : (s.cairnOf 1 x counter 0 key).rcb = (s.rcbPath x.rcb 6).map fun x => s.dpaBytes x 256 := rfl
  have f : (s.cairnOf 1 x counter 0 key).context.xlat = (tAt .suspended).xlat := hx
  rw [e, f, hr, nodes]; decide +kernel
/-- SEAL of a context in each state; a home here and away; a range that is too short. -/
theorem witness_CairnsAndPlaces_seal_fields : ∀ n ∈ [0, 1], ∀ d ∈ [0, 0x10000], ∀ st ∈ [CtxState.running, .suspended, .sealing], ∀ home ∈ [0, 431],
    let x := { tAt st with home := home }
    let s := tSeal n d x .live true
    let bs := (tStep 0x24 0 n (tSealFields d)).bytes
    tAccepted s 0x24 0 n (tSealFields d) = true ∧ fieldOf bs 16 2 = 1 ∧ fieldOf bs 18 1 = 0 ∧ find s.contexts 1 = some x ∧ x.state = st ∧ x.state ≠ .free ∧
      zeroIn bs 20 24 = true ∧ zeroIn bs 40 63 = true ∧ fieldOf bs 24 8 = 0x10000 ∧ fieldOf bs 24 8 % 4096 = 0 ∧ fieldOf bs 32 8 = d ∧
      (tStep 0x24 0 n (tSealFields d)).next = n ∧ s.rangeOk 0x10000 17168 = true := by decide +kernel
theorem witness_CairnsAndPlaces_seal_homes : ∀ n st ok,
    (tSeal n 0x10000 { tAt st with home := 0 } .live ok).home 0 0x5000 = .here 4 (tSlot .live) ∧
      (tSeal n 0x10000 { tAt st with home := 431 } .live ok).home 431 0x5000 = .away 431 none ∧ 431 ≠ (tSeal n 0x10000 (tAt st) .live ok).globals.modIdx :=
  fun _ _ _ => ⟨rfl, rfl, show 431 ≠ 0 by decide⟩
/-- No range of length 0 holds an image; with open records of no bytes, 64 KiB do. -/
theorem witness_CairnsAndPlaces_seal_lengths (h : ∀ a l, Config.openLength a l = 0) : (∀ n, 0 < cairnLength n) ∧
    (∀ st ok home, let x := { tAt st with home := home }; cairnLength ((tSeal 0 0x10000 x .live ok).cairnOf 1 x 0 0 []).payload.length ≤ 0x10000) := by
  refine ⟨fun n => by unfold cairnLength; omega, fun st ok home => ?_⟩
  exact Nat.le_trans (Nat.le_of_eq (length_small h 0 0 { tAt st with home := home } [] ok [(4, tSlot .live)] rfl rfl)) (by decide)
/-- The modes of a SEAL. -/
theorem witness_CairnsAndPlaces_seal_modes : ∀ f ∈ [0, 1, 2, 4, 5], ∀ n ∈ [0, 1],
    let s := tCommand 0x24 f n (tSealFields 0x10000) (tAt .sealing) .live
    tAccepted s 0x24 f n (tSealFields 0x10000) = true ∧ fieldOf (tStep 0x24 f n (tSealFields 0x10000)).bytes 18 1 = f ∧ f < 8 ∧ f % 4 ≠ 3 ∧ f ≠ 6 := by
  decide +kernel
/-- What the first step of a SEAL reads can be read; the home is still where it was. -/
theorem witness_CairnsAndPlaces_seal_reads : ∀ ok, ∀ home ∈ [0, 431],
    let x := { tAt .suspended with home := home }
    let s := tSeal 0 0x10000 x .live ok
    ∃ u, s.commandReads (s.cairnOf 1 x 0 0 []).sources = .ok u () ∧ (home = 0 → u.home x.home x.lineage = .here 4 (tSlot .live)) ∧
      (home = 431 → u.home x.home x.lineage = .away 431 none ∧ 431 ≠ u.globals.modIdx) := by
  intro ok home hh
  rcases List.mem_cons.1 hh with rfl | h
  · exact ⟨_, rfl, fun _ => rfl, fun h => by omega⟩
  · obtain rfl := List.mem_singleton.1 h
    exact ⟨_, rfl, fun h => by omega, fun _ => ⟨rfl, show 431 ≠ 0 by decide⟩⟩
/-- The second step of a SEAL whose home is here: its quote, its counter, and what its first step found. -/
theorem witness_CairnsAndPlaces_seal_steps : ∀ counter ∈ [8, 2 ^ 64 - 1], ∀ ok,
    let k := { tSlot .live with counter := counter }
    let x := tAt .sealing
    let t := tSeal 1 0x10000 x .live ok
    let z := t.cairnOf 1 x 0 0 []
    let s := { t with counters := [(4, k)], sealing := [(1, z)] }
    s.home x.home x.lineage = .here 4 k ∧ s.attested k.policy s.globals.modIdx s.args.flag = ok ∧ find s.sealing 1 = some z := by
  intro counter _ ok
  refine ⟨rfl, ?_, rfl⟩
  cases ok
  · simp [tSeal, tCommand, State.attested]
  · exact attested_policy _ 0 rfl fun _ => rfl

/-- A home here whose slot moves; an image whose range stands behind a port that is down, and one that is not. -/
theorem witness_CairnsAndPlaces_seal_moving : ∀ ok,
    let x := { tAt .suspended with home := 0 }
    let s := tSeal 0 0x10000 x .moving ok
    s.home 0 0x5000 = .away 0 none ∧ 0 = s.globals.modIdx ∧ s.slotOf 0x5000 = some (4, tSlot .moving) := fun _ => ⟨rfl, rfl, rfl⟩
theorem witness_CairnsAndPlaces_seal_port :
    let s := { tSeal 1 0x10000 (tAt .sealing) .live true with links := [(420, { Link.zero with state := .down })] }
    s.portDown hostWindow = some 420 ∧ s.portDown 0x10000 = none := by decide +kernel
/-- Partition 3 of a context that runs, whose massif or extents would change; of one that is still, which would be dissolved. -/
theorem witness_CairnsAndPlaces_dissolved : ∀ st ∈ [CtxState.running, .created],
    let x := { tAt st with partition := 3 }
    let u := { tPackets .running [] with contexts := [(1, x)], partitions := [(3, { massifs := [2], extents := [] })] }
    u.contexts.filter (fun e => e.2.partition == 3) = [(1, x)] ∧
      u.contexts.find? (fun e => e.2.partition == 3 && !e.2.state.still) = (if st = .running then some (1, x) else none) ∧
      ((∀ e ∈ u.contexts, e.2.partition = 3 → e.2.state.still = true) ↔ st = .created) ∧
      (let old := (find u.partitions 3).getD { massifs := [], extents := [] }
       ∃ m ∈ old.massifs, m ∉ [1]) ∧ (∀ e ∈ u.partitions, e.1 ≠ 3 → ∀ m ∈ e.2.massifs, m ∉ [1]) := by decide +kernel

theorem find_cellsAt (l : List Byte) : ∀ (a i : Nat), find (cellsAt a l) (a + i) = l[i]? := by
  induction l with
  | nil => intro a i; rfl
  | cons b r ih =>
    intro a i
    cases i with
    | zero => simp [cellsAt, find]
    | succ i =>
      have := ih (a + 1) i
      rw [show a + 1 + i = a + (i + 1) by omega] at this
      simpa [cellsAt, find] using this
theorem dpaBytes_cellsAt {s : State} {a : Nat} {l : List Byte} (e : s.devEcc = []) (h : s.dev.cells = cellsAt a l) (u : a + l.length ≤ 0x60000000000) :
    ∀ n i, i + n ≤ l.length → s.dpaBytes (a + i) n = (l.drop i).take n := by
  intro n
  induction n with
  | zero => intro i _; simp [State.dpaBytes]
  | succ n ih =>
    intro i hi
    have hb : s.dpaByte (a + i) = l[i]'(by omega) := by
      have : s.dpa (a + i) = .hbm ((a + i) / 2 ^ 36) (a + i) := by
        simp only [State.dpa, ownDpa]; split <;> first | omega | skip
        split <;> first | omega | skip
        split <;> first | omega | rfl
      simp only [State.dpaByte, this, State.devNat, e, find, Memory.nat, Memory.bytes, Memory.read, h, find_cellsAt]
      rw [List.getElem?_eq_getElem (by omega)]; simp [leNat]
    have := ih (i + 1) (by omega)
    rw [State.dpaBytes, hb, show a + i + 1 = a + (i + 1) by omega, this, List.drop_eq_getElem_cons (by omega : i < l.length), List.take_succ_cons]
/-- A cairn of lineage 0x5000 with counter `n`, its key as the slot derives it. -/
def tKey (n : Nat) : List Byte := imageKey 0 (tAt .suspended).measure n
def tCairn (n : Nat) : Cairn :=
  { lineage := 0x5000, counter := n, source := 0, mode := 0, context := tAt .suspended, groups := [], launches := [], queues := [], rcb := [], ring := (0, []),
    rights := [], tables := [], pages := [], key := tKey n, salt := 0 }
def tHeader (n home : Nat) : List Byte := cairnHeader 0 0x5000 home 4 n (tAt .suspended).measure 0 16384
def tSealedImage (n home : Nat) : List Byte := tHeader n home ++ (tCairn n).body (tHeader n home) (tCairn n).payload
/-- RESTORE of that image, in step `m`, into a context `x`; the slot knows `cert` as the certificate of the last sealing module. -/
def tRestore (m slen n home : Nat) (x : Context) (cert : List Byte) (ok : Bool) : State :=
  let s := tCommand 0x25 0 m (tSealFields slen) x .live
  { s with
    args := { s.args with flag := ok }
    globals := { s.globals with present := [0, 431] }
    counters := [(4, { tSlot .live with cert := cert })]
    cairns := [tCairn n]
    dev := { epoch := none, cells := cellsAt 0x10000 (tSealedImage n home) } }
theorem tHeader_length (n home : Nat) : (tHeader n home).length = 128 := by
  simp [tHeader, cairnHeader, cairnMagic, tAt, tMapped, natBytes]; rfl
theorem tCairn_payload (h : ∀ a l, Config.openLength a l = 0) (n : Nat) : (tCairn n).payload.length = 16384 := by
  rw [payload_small h (tCairn n) rfl rfl rfl rfl rfl]
  show (padded [].flatten ++ padded (rangeBytes (tAt .suspended).xlat.s1range ++ rangeBytes (tAt .suspended).xlat.s2range)).length = 16384
  decide +kernel
theorem tKey_rounds : ∀ n ∈ [7, 8], ∀ r ∈ Aes.roundKeys (toNats (tKey n)), r.length = 16 := by decide +kernel
/-- The image as it is read. -/
theorem tRestore_sealed (h : ∀ a l, Config.openLength a l = 0) {n : Nat} (hn : n ∈ [7, 8]) {home : Nat} (hh : home ∈ [0, 431]) (m slen : Nat) (x : Context)
    (cert : List Byte) (ok : Bool) : (tRestore m slen n home x cert ok).sealedAt 0x10000 =
      { header := tHeader n home, body := (tCairn n).body (tHeader n home) (tCairn n).payload, paylen := 16384, lineage := 0x5000, counter := n, home := home,
        slot := 4 } := by
  have p := tCairn_payload h n
  obtain ⟨b, _, l1, l2⟩ := body_one (header := tHeader n home) (k := tCairn n) (tKey_rounds n hn) (by omega) (by omega)
  have e : ((tCairn n).body (tHeader n home) (tCairn n).payload).length = 16784 := by simp [b, l1, l2, p, signature]
  have i : (tSealedImage n home).length = 16912 := by simp [tSealedImage, e, tHeader_length]
  have r := fun n' k hk => dpaBytes_cellsAt (s := tRestore m slen n home x cert ok) (a := 0x10000) (l := tSealedImage n home) rfl rfl (by omega) n' k hk
  have r1 : (tRestore m slen n home x cert ok).dpaBytes 0x10000 128 = tHeader n home := by
    have := r 128 0 (by omega)
    rw [Nat.add_zero, List.drop_zero, tSealedImage, List.take_left' (tHeader_length n home)] at this
    exact this
  have r2 : (tRestore m slen n home x cert ok).dpaBytes (0x10000 + 128) 16784 = (tCairn n).body (tHeader n home) (tCairn n).payload := by
    rw [r 16784 128 (by omega), tSealedImage, List.drop_left' (tHeader_length n home), List.take_of_length_le (by omega)]
  have f : ∀ n ∈ [7, 8], ∀ home ∈ [0, 431], fieldOf (tHeader n home) 0x68 8 = 16384 ∧ fieldOf (tHeader n home) 0x10 8 = 0x5000 ∧
      fieldOf (tHeader n home) 0x20 8 = n ∧ fieldOf (tHeader n home) 0x18 2 = home ∧ fieldOf (tHeader n home) 0x1A 2 = 4 := by decide +kernel
  obtain ⟨f1, f2, f3, f4, f5⟩ := f n hn home hh
  simp only [State.sealedAt, r1, f1, f2, f3, f4, f5, show cairnLength 16384 - 128 = 16784 from by decide, r2]
theorem witness_CairnsAndPlaces_restore_fields : ∀ m ∈ [0, 1], ∀ d ∈ [127, 128, 0x10000], ∀ st ∈ [CtxState.suspended, .created, .restoring],
    let x := tAt st
    let l := tSealFields d
    let s := { tCommand 0x25 0 m l x .live with globals := { (tCommand 0x25 0 m l x .live).globals with present := [0, 431] } }
    let bs := (tStep 0x25 0 m l).bytes
    tAccepted s 0x25 0 m l = true ∧ fieldOf bs 16 2 = 1 ∧ fieldOf bs 18 1 < 2 ∧ find s.contexts 1 = some x ∧ x.state = st ∧ x.state ≠ .free ∧
      zeroIn bs 20 24 = true ∧ zeroIn bs 40 63 = true ∧ fieldOf bs 24 8 = 0x10000 ∧ fieldOf bs 24 8 % 4096 = 0 ∧ fieldOf bs 32 8 = d ∧
      (tStep 0x25 0 m l).next = m ∧ s.rangeOk 0x10000 d = true ∧ cairnLength 16384 ≤ 0x10000 := by decide +kernel
theorem tSealed_form (body : List Byte) {home : Nat} (hh : home ∈ [0, 431]) : (⟨tHeader 8 home, body, 16384, 0x5000, 8, home, 4⟩ : Sealed).form = true := by
  have f : ∀ home ∈ [0, 431], (⟨tHeader 8 home, [], 16384, 0x5000, 8, home, 4⟩ : Sealed).form = true := by decide +kernel
  have g := f home hh
  simp only [Sealed.form] at g ⊢
  exact g
/-- A restore of the right lineage and of another; its home here and away. -/
theorem witness_CairnsAndPlaces_restore_begin (h : ∀ a l, Config.openLength a l = 0) : ∀ home ∈ [0, 431], ∀ lineage ∈ [0x5000, 0x5001], ∀ ok,
    let x := { tAt .created with lineage := lineage }
    let s := tRestore 0 0x10000 8 home x [] ok
    let i := s.sealedAt 0x10000
    find s.contexts 1 = some x ∧ i.form = true ∧ (lineage = 0x5000 → i.lineage = x.lineage) ∧ (lineage = 0x5001 → i.lineage ≠ x.lineage) ∧
      (home = 0 → s.home i.home i.lineage = .here 4 { tSlot .live with cert := [] }) ∧ (home = 431 → s.home i.home i.lineage = .away 431 none) := by
  intro home hh lineage _ ok
  have e := tRestore_sealed h (n := 8) (by decide) hh 0 0x10000 { tAt .created with lineage := lineage } [] ok
  intro x s i
  have e : i = _ := e
  have l : i.lineage = 0x5000 := by rw [e]
  have m : i.home = home := by rw [e]
  refine ⟨rfl, by rw [e]; exact tSealed_form _ hh, fun h => l.trans h.symm, fun h => by rw [l]; show 0x5000 ≠ lineage; omega, fun h => ?_, fun h => ?_⟩
  · rw [l, m, h]; rfl
  · rw [l, m, h]; rfl
/-- What the first step of a RESTORE reads can be read, with each answer of its home; and an address without memory. -/
theorem witness_CairnsAndPlaces_restore_reads : ∀ home ∈ [0, 430, 431], ∀ cs ∈ [[(4, tSlot .live)], []], ∀ ok,
    let t := tRestore 0 0x10000 8 home (tAt .created) [] ok
    let s := { t with counters := cs }
    ∃ u, s.commandReads [(0x10000, cairnLength 16384)] = .ok u () ∧
      (home = 0 → cs = [(4, tSlot .live)] → u.home home 0x5000 = .here 4 (tSlot .live)) ∧ (home = 431 → u.home home 0x5000 = .away 431 none) ∧
      (home = 0 → cs = [] → u.home home 0x5000 = .absent) ∧ (home = 430 → u.home home 0x5000 = .unreached) := by
  intro home _ cs _ ok
  refine ⟨_, rfl, ?_, ?_, ?_, ?_⟩
  · rintro rfl rfl; rfl
  · rintro rfl; rfl
  · rintro rfl rfl; rfl
  · rintro rfl; rfl
theorem witness_CairnsAndPlaces_restore_fault : ∃ u g, (tRestore 0 0x10000 8 0 (tAt .created) [] true).commandReads [(0x60000000000, cairnLength 16384)] = .fault u g :=
  ⟨_, _, rfl⟩
/-- The steps of a RESTORING context: a foreign certificate, a quote that does not verify, a counter of the past, and the image of the last seal. -/
theorem witness_CairnsAndPlaces_restore_steps (h : ∀ a l, Config.openLength a l = 0) : ∀ n ∈ [7, 8],
    let s := fun (cert : List Byte) (ok : Bool) => tRestore 1 0x10000 n 0 (tAt .restoring) cert ok
    let own := certificateOf 0
    let l := fun (cert : List Byte) => { tSlot .live with cert := cert }
    (∀ cert ok, (s cert ok).cairnFor ((s cert ok).sealedAt 0x10000) = some (tCairn n) ∧
      (s cert ok).home ((s cert ok).sealedAt 0x10000).home ((s cert ok).sealedAt 0x10000).lineage = .here 4 (l cert) ∧
      (s cert ok).attested (l cert).policy (s cert ok).globals.modIdx (s cert ok).args.flag = ok) ∧
    (∀ ok, ((s (own ++ [0]) ok).sealedAt 0x10000).verifies (tCairn n) (own ++ [0]) = false) ∧
    (∀ ok, let i := (s own ok).sealedAt 0x10000
      i.verifies (tCairn n) own = true ∧ (n = 7 → i.counter < (l own).counter) ∧ (n = 8 → i.counter = (l own).counter) ∧
        (tCairn n).source = (l own).src ∧ i.counter ≠ 2 ^ 64 - 1 ∧
        i.chunks = ((sealChunks (imageKey (l own).key (tCairn n).context.measure i.counter) (tCairn n).payload).map fun x => x.1 ++ x.2).flatten) := by
  intro n hn
  have e := fun cert ok => tRestore_sealed h (n := n) hn (home := 0) (by decide) 1 0x10000 (tAt .restoring) cert ok
  have p := tCairn_payload h n
  simp only [e]
  refine ⟨fun cert ok => ⟨?_, rfl, ?_⟩, fun ok => ?_, fun ok => ?_⟩
  · have q : ((tCairn n).payload.length == 16384) = true := by simp [p]
    simp only [State.cairnFor]
    show List.find? _ [tCairn n] = _
    rw [List.find?_cons_of_pos]
    simp only [q, Bool.true_and]
    exact beq_iff_eq.2 rfl
  · cases ok
    · simp [tRestore, tCommand, State.attested]
    · exact attested_policy _ 0 rfl fun _ => rfl
  · simp [Sealed.verifies, tCairn]
  · have := sealed_one (k := tCairn n) (i := { header := tHeader n 0, body := (tCairn n).body (tHeader n 0) (tCairn n).payload, paylen := 16384, lineage := 0x5000, counter := n, home := 0, slot := 4 })
      (tKey_rounds n hn) (by omega) (by omega) p.symm rfl
    refine ⟨this.1, ?_, ?_, rfl, ?_, this.2⟩
    · rintro rfl; decide
    · rintro rfl; rfl
    · simp only [List.mem_cons, List.not_mem_nil, or_false] at hn; omega
/-- One massif and one extent for partition 3, beside partition 0. -/
theorem witness_CairnsAndPlaces_places :
    let l := [(0, 0x26), (1, 1), (24, 3), (25, 1), (32, 2), (48, 0x9000)]
    let bs := tBytes l
    let e := natBytes (4 * 2 ^ 28 + 4 * 2 ^ 42 + 2 ^ 56 + 48 * 2 ^ 80) 16
    let s := { tPackets .running l with dev := { epoch := none, cells := cellsAt 0x9000 e } }
    s.commandPacket (· == 0x26) = some (0, tQueue .active [tPacket l], tPacket l) ∧ s.args.a < 98304 ∧ s.globals.boot = 7 ∧ pkSemen bs = false ∧
      fieldOf bs 19 1 = 0 ∧ fieldOf bs 18 1 = 0 ∧ fieldOf bs 24 1 = 3 ∧ fieldOf bs 25 1 = 1 ∧ fieldOf bs 48 8 = 0x9000 ∧
      zeroIn bs 20 24 = true ∧ zeroIn bs 26 32 = true ∧ zeroIn bs 44 48 = true ∧ zeroIn bs 56 63 = true ∧
      s.rangeOk 0x9000 16 = true ∧ s.dpaBytes 0x9000 16 = e ∧ extentRes e = true ∧ (extentAt e).valid = true ∧ (extentAt e).mod = s.globals.modIdx ∧
      s.extentOk [1] (extentAt e) = true ∧ (∀ x ∈ s.partitions, x.1 ≠ 3 → ∀ m ∈ x.2.massifs, m ∉ [1]) ∧
      (∀ x ∈ s.contexts, x.2.partition = 3 → x.2.state.still = true) ∧ (List.range 96).filter (Nat.testBit (fieldOf bs 32 12)) = [1] := by decide +kernel
/-- Its extent lies in this module or in module 431, before the answer and after; its tiles exist, or its width is 0; another partition holds its
massif, or a context of the partition runs. -/
theorem witness_CairnsAndPlaces_extents : ∀ m ∈ [0, 431], ∀ e ∈ [(0, 0), (2, 0), (2, 7)], ∀ w ∈ [0, 4], ∀ own ∈ [[], [1]], ∀ present ∈ [[0], [0, 431]],
    let n := e.1
    let code := e.2
    let l := [(0, 0x26), (1, 1), (24, 3), (25, 1), (32, 2), (48, 0x9000)]
    let e := natBytes (w * 2 ^ 28 + 4 * 2 ^ 42 + 2 ^ 56 + m * 2 ^ 64 + 48 * 2 ^ 80) 16
    let p := { tPacket l with next := n }
    let s := { tPackets .running l with
      args := { Args.none with peer := ⟨BitVec.ofNat 8 code, 0⟩ }, queues := [(0, tQueue .active [p])], partitions := [(0, { massifs := own, extents := [] })]
      globals := { tBase.globals with present := present }, dev := { epoch := none, cells := cellsAt 0x9000 e } }
    s.commandPacket (· == 0x26) = some (0, tQueue .active [p], p) ∧ (s.commandReads [(0x9000, 16)]).ending = 0 ∧ s.dpaBytes 0x9000 16 = e ∧
      extentRes e = true ∧ (extentAt e).valid = true ∧ (extentAt e).mod = m ∧ s.extentOk [1] (extentAt e) = (w != 0) ∧
      (s.partitions.any fun x => x.1 != 3 && x.2.massifs.any [1].contains) = own.contains 1 ∧
      (s.contexts.all fun x => x.2.partition != 3 || x.2.state.still) = true ∧ s.globals.present.contains m = (m == 0 || present == [0, 431]) ∧
      s.args.peer.status.toNat = code := by decide +kernel
theorem witness_CairnsAndPlaces_extents_fault : (tPackets .running []).commandReads [] = .ok (tPackets .running []) () ∧
    ∃ u g, (tPackets .running []).commandReads [(0x60000000000, 16)] = .fault u g := ⟨rfl, _, _, rfl⟩
theorem witness_CairnsAndPlaces_queries : ∀ f, ∀ bs ∈ [[], List.replicate 16 0],
    let s := { tPackets .running [] with args := { Args.none with flag := f, bytes := bs } }
    s.args.flag = f ∧ s.args.bytes = bs ∧ (find s.contexts s.args.b).isSome = true ∧ (find s.partitions s.args.b).isSome = true := by decide +kernel
/-! ### Witnesses: translation tables and pulls -/

/-- A command of queue 0 for context 0, whose stage 2 has tables. -/
def tPageFields (kind f : Nat) (l : List (Nat × Nat)) : List (Nat × Nat) := [(0, kind), (1, 1), (18, f)] ++ l
def tTableCommand (kind f : Nat) (l : List (Nat × Nat)) (v : Nat) : State := tTables (tPageFields kind f l) v
/-- That command is accepted, for a context that is not FREE. -/
def tPageOk (s : State) (kind f : Nat) (l : List (Nat × Nat)) : Bool :=
  let p := tPacket (tPageFields kind f l)
  s.commandPacket (· == kind) == some (0, tQueue .active [p], p) && decide (s.args.a < 98304) && s.globals.boot == 7 &&
    pkSemen p.bytes == false && fieldOf p.bytes 19 1 == 0 && p.next != statusHeld && fieldOf p.bytes 16 2 == 0 && fieldOf p.bytes 18 1 == f && find s.contexts 0 == some tTabled
theorem witness_PageCommands_entries :
    let v := fun (bs : List Byte) => fieldOf bs 32 8
    let ok := fun (kind f val : Nat) (old : Nat) =>
      let l := [(32, val)]
      let s := tTableCommand kind f l old
      let bs := tBytes (tPageFields kind f l)
      tPageOk s kind f l = true ∧ v bs = val ∧ zeroIn bs 21 24 = true ∧ zeroIn bs 40 63 = true ∧ fieldOf bs 20 1 = 0 ∧ fieldOf bs 24 8 = 0 ∧
        (if val % 4 = 0 then entryRes 2 0 val else entryMalformed 2 0 val) = false ∧
        ((s.path 0 tTabled 2 0 0).holds 0x8000 fun u => u.pulling.all fun y => y.ctx != 0 || y.entryAddr != 0x8000) = true
    ok 0x20 8 0x8000000000F 0 ∧ ok 0x20 8 0x1000F 0 ∧ ok 0x21 8 0 0x1000F := by decide +kernel
/-- An entry that the budget admits, one that it does not, and an entry cleared. -/
theorem witness_PageCommands_budget :
    ((tTableCommand 0x20 8 [(32, 0x8000000000F)] 0).path 0 tTabled 2 0 0).holds 0x8000 (fun u => (u.setEntry 0 2 0 0 0x8000 0x8000000000F).isSome) = true ∧
      ((tTableCommand 0x20 8 [(32, 0x1000F)] 0).path 0 tTabled 2 0 0).holds 0x8000 (fun u => (u.setEntry 0 2 0 0 0x8000 0x1000F).isNone) = true ∧
      ((tTableCommand 0x21 8 [] 0x1000F).path 0 tTabled 2 0 0).holds 0x8000 (fun u => (u.setEntry 0 2 0 0 0x8000 0).isSome) = true := by decide +kernel
/-- A reserved bit of an absent entry, a present entry that is malformed, and a path without its root. -/
theorem witness_PageCommands_malformed :
    (∀ val ∈ [2 ^ 63, 2 ^ 56 + 3],
      let l := [(32, val)]
      let bs := tBytes (tPageFields 0x20 8 l)
      tPageOk (tTableCommand 0x20 8 l 0) 0x20 8 l = true ∧ fieldOf bs 32 8 = val ∧ zeroIn bs 21 24 = true ∧ zeroIn bs 40 63 = true ∧
        (if val % 4 = 0 then entryRes 2 0 val else entryMalformed 2 0 val) = true) ∧
    (let l := [(32, 0x1000F)]
     let s := tTableCommand 0x20 0 l 0
     let bs := tBytes (tPageFields 0x20 0 l)
     tPageOk s 0x20 0 l = true ∧ zeroIn bs 21 24 = true ∧ zeroIn bs 40 63 = true ∧ (match s.path 0 tTabled 1 0 0 with
      | .missing _ _ => true
      | _ => false) = true) := by decide +kernel
/-- Range entries: off, the whole of one page, and the last page of stage 2. -/
theorem witness_PageCommands_range : ∀ e ∈ [(1, 0x1000, 0x1FFF, 0x3000, 7), (9, 2 ^ 48 - 4096, 2 ^ 48 - 1, 0x3000, 7), (9, 5, 3, 1, 6)],
    let l := [(20, 255), (24, e.2.1), (32, e.2.2.1), (40, e.2.2.2.1), (48, e.2.2.2.2)]
    let bs := tBytes (tPageFields 0x20 e.1 l)
    let a := fieldOf bs 24 8
    let v := fieldOf bs 32 8
    tPageOk (tTableCommand 0x20 e.1 l 0) 0x20 e.1 l = true ∧ zeroIn bs 21 24 = true ∧ zeroIn bs 56 63 = true ∧ fieldOf bs 48 8 < 8 ∧
      (fieldOf bs 48 8 % 2 = 0 ∨ (a % 4096 = 0 ∧ v % 4096 = 4095 ∧ a ≤ v ∧ fieldOf bs 40 8 % 4096 = 0 ∧ v < (if e.1 = 9 then 2 ^ 48 else 2 ^ 57))) := by
  decide +kernel
theorem witness_PageCommands_roots : ∀ m ∈ [0, 431, 0xFFFF],
    let l := [(24, 0x1000), (32, 0x2000), (40, m)]
    let bs := tBytes (tPageFields 0x20 2 l)
    tPageOk (tTableCommand 0x20 2 l 0) 0x20 2 l = true ∧ zeroIn bs 20 24 = true ∧ zeroIn bs 42 63 = true ∧ fieldOf bs 24 8 % 4096 = 0 ∧
      fieldOf bs 32 8 % 4096 = 0 ∧ fieldOf bs 24 8 < 2 ^ 48 ∧ fieldOf bs 32 8 < 2 ^ 56 ∧ (fieldOf bs 40 2 < 432 ∨ fieldOf bs 40 2 = 0xFFFF) := by decide +kernel
/-- Rings that are off, that lie in memory, and of which one does not. -/
theorem witness_PageCommands_rings : ∀ fq ∈ [0, 0x10000, 2 ^ 55 - 4096], ∀ mq ∈ [0, 0x20000, 2 ^ 55 - 4096], ∀ log ∈ [6, 16],
    let l := [(24, fq), (32, log), (40, mq), (48, log), (52, 5)]
    let s := tTableCommand 0x20 3 l 0
    let bs := tBytes (tPageFields 0x20 3 l)
    let there := fun (t : State) (base : Nat) => if base = 0 then Acc.ok t () else t.reachAll 0 base (64 + 64 * 2 ^ log)
    tPageOk s 0x20 3 l = true ∧ zeroIn bs 20 24 = true ∧ zeroIn bs 33 40 = true ∧ zeroIn bs 49 52 = true ∧ zeroIn bs 54 63 = true ∧
      fieldOf bs 24 8 = fq ∧ fieldOf bs 40 8 = mq ∧ fieldOf bs 32 1 = log ∧ fieldOf bs 48 1 = log ∧
      (fq = 0 ∨ (fq % 4096 = 0 ∧ fq < 2 ^ 56 ∧ 6 ≤ log ∧ log ≤ 16)) ∧ (mq = 0 ∨ (mq % 4096 = 0 ∧ mq < 2 ^ 56 ∧ 6 ≤ log ∧ log ≤ 16)) ∧
      (there s fq).ending = (if fq = 2 ^ 55 - 4096 then 1 else 0) ∧ (there ((there s fq).state s) mq).ending = (if mq = 2 ^ 55 - 4096 then 1 else 0) := by
  decide +kernel
/-- Rings that no field may name: past the addresses, not aligned, and of too few slots. -/
theorem witness_PageCommands_rings_malformed : ∀ e ∈ [(2 ^ 56, 6), (0x10040, 6), (0x10000, 5)],
    let l := [(24, e.1), (32, e.2)]
    let s := tTableCommand 0x20 3 l 0
    let bs := tBytes (tPageFields 0x20 3 l)
    let ring := fun (base log : Nat) => base = 0 ∨ (base % 4096 = 0 ∧ base < 2 ^ 56 ∧ 6 ≤ log ∧ log ≤ 16)
    tPageOk s 0x20 3 l = true ∧ zeroIn bs 20 24 = true ∧ zeroIn bs 33 40 = true ∧ zeroIn bs 49 52 = true ∧ zeroIn bs 54 63 = true ∧
      ¬(ring (fieldOf bs 24 8) (fieldOf bs 32 1) ∧ ring (fieldOf bs 40 8) (fieldOf bs 48 1)) := by decide +kernel
theorem witness_PageCommands_invalidate : ∀ f ∈ [0, 1, 2, 8, 9, 10], ∀ len ∈ [4096, 2 ^ 48],
    let l := [(24, 0x1000), (32, len)]
    let bs := tBytes (tPageFields 0x22 f l)
    tPageOk (tTableCommand 0x22 f l 0) 0x22 f l = true ∧ f % 4 < 3 ∧ f % 8 < 4 ∧ f < 16 ∧ zeroIn bs 20 24 = true ∧ zeroIn bs 40 63 = true ∧
      (f % 4 ≠ 0 ∨ (fieldOf bs 32 8 % 4096 = 0 ∧ 4096 ≤ fieldOf bs 32 8 ∧ fieldOf bs 32 8 ≤ 2 ^ 48)) := by decide +kernel
/-- HARVEST of one page that is dirty, of one that is clean, and of one that is absent. -/
theorem witness_PageCommands_harvest :
    let l := [(32, 4096), (40, 0x5008)]
    (∀ e ∈ [(0x1001F, (true, [0x8000])), (0x1000F, (false, [])), (0, (false, []))],
      let s := tTableCommand 0x23 0 l e.1
      let bs := tBytes (tPageFields 0x23 0 l)
      let r := s.harvestPages 0 tTabled ((List.range (4096 / 4096)).map fun k => 0 + 4096 * k)
      tPageOk s 0x23 0 l = true ∧ zeroIn bs 20 24 = true ∧ zeroIn bs 48 63 = true ∧ fieldOf bs 24 8 = 0 ∧ fieldOf bs 32 8 = 4096 ∧
        fieldOf bs 40 8 = 0x5008 ∧ 0x5008 % 8 = 0 ∧ r.value.map (fun l => l.map fun d => (d.bit, d.leaves)) = some [e.2] ∧
        ((r.state s).reachAll 0 0x5008 ((4096 / 4096 + 7) / 8)).ending = 0) := by decide +kernel
/-- A page of a range entry, and one of a context without a root. -/
theorem witness_PageCommands_harvest_pages : (rangeHit (tMapped .running).xlat.s2range 0).isSome = true ∧
    rangeHit Translation.zero.s2range 0 = none ∧ Translation.zero.s2root = 0 := by decide +kernel
/-- Its tables lie where there is no memory. -/
theorem witness_PageCommands_harvest_fault :
    let l := tPageFields 0x23 0 [(32, 4096), (40, 0x5008)]
    let x := { tTabled with xlat := { tTabled.xlat with s2root := 2 ^ 55 - 4096 } }
    let s := { tTables l 0 with contexts := [(0, x)] }
    s.commandPacket (· == 0x23) = some (0, tQueue .active [tPacket l], tPacket l) ∧ find s.contexts 0 = some x ∧
      (s.harvestPages 0 x [0]).ending = 1 := by decide +kernel
/-- FAULT_RESUME with nothing parked, and of one parked queue. -/
theorem witness_PageCommands_resume :
    (∀ f ∈ [0, 2],
      let l := [(24, 98303)]
      let s := { tTableCommand 0x2A f l 0 with args := { Args.none with a := 0 } }
      let bs := tBytes (tPageFields 0x2A f l)
      tPageOk s 0x2A f l = true ∧ f < 4 ∧ zeroIn bs 20 24 = true ∧ zeroIn bs 28 32 = true ∧ zeroIn bs 40 63 = true ∧ f % 2 = 0 ∧
        fieldOf bs 24 4 = 98303 ∧ (∀ e ∈ s.queues, e.1 = 98303 → e.2.ctx ≠ 0)) := by decide +kernel
theorem witness_PageCommands_resume_queue :
    let l := tPageFields 0x2A 0 [(24, 98303)]
    let s := { tTables l 0 with queues := [(0, tQueue .active [tPacket l]), (98303, tQueue .faultParked [])] }
    let bs := tBytes l
    tPageOk s 0x2A 0 [(24, 98303)] = true ∧ zeroIn bs 20 24 = true ∧ zeroIn bs 28 32 = true ∧ zeroIn bs 40 63 = true ∧ fieldOf bs 24 4 = 98303 ∧
      (tQueue .faultParked []).ctx = 0 ∧ (tQueue .faultParked []).packets = [] := by decide +kernel
/-- FAULT_RESUME of one queue and of all; a queue parked on its ring, one with a parked packet, and one with a launch that is parked. -/
theorem witness_PageCommands_resume_all : ∀ f ∈ [0, 1, 2, 3],
    let l := if f % 2 = 1 then [] else [(24, 98303), (32, 7)]
    let s := tTableCommand 0x2A f l 0
    let bs := tBytes (tPageFields 0x2A f l)
    tPageOk s 0x2A f l = true ∧ f < 4 ∧ zeroIn bs 20 24 = true ∧ zeroIn bs 28 32 = true ∧ zeroIn bs 40 63 = true ∧ f.testBit 0 = (f % 2 == 1) ∧
      (if f.testBit 0 = true then fieldOf bs 24 4 = 0 ∧ fieldOf bs 32 8 = 0 else fieldOf bs 24 4 < 98304) := by decide +kernel
theorem witness_PageCommands_resumed :
    let z := { tPacket [(0, 0x10)] with parked := true }
    let y := tQueue .active [z]
    let s := { tTables [] 0 with queues := [(9, y), (8, tQueue .faultParked [])] }
    let u := { s with launches := [(1, { tLaunch with state := .check, queue := 9 })] }
    find s.queues 9 = some y ∧ y.packets.filter (fun p => p.parked && true) = [z] ∧ y.state ≠ .faultParked ∧ (s.launchOf 9 z.index).isNone = true ∧
      (u.launchOf 9 z.index).isSome = true ∧ find s.queues 8 = some (tQueue .faultParked []) ∧ (tQueue .faultParked []).packets = [] ∧
      y.packets.filter (fun p => p.parked && false) = [] := by decide +kernel
def tPull : Pulling := { ctx := 0, gpa := 0, level := 0, entryAddr := 0x8000, since := 5 }
theorem witness_PageCommands_pulls : ∀ c ∈ [8000004, 8000005],
    let s := { tTables [] 0x1001E with pulling := [tPull], cycle := c, args := { Args.none with a := 0 } }
    s.pulling.find? (fun y => y.ctx == s.args.a && y.gpa == s.args.b) = some tPull ∧ s.args.peer.status = 0 ∧
      (c = 8000004 → s.cycle < tPull.since + 8000000) ∧ (c = 8000005 → tPull.since + 8000000 ≤ s.cycle) := by decide +kernel
/-- The context 0 migrates out, with its pages or without them; none does. -/
def tSource (x : Context) : State := { tTables [] 0x1001E with contexts := [(0, { x with state := .migratingOut })], args := { Args.none with a := 0x5000, c := 4096 } }
theorem witness_PageCommands_sources :
    let source := fun (s : State) => s.contexts.find? fun e => e.2.lineage == s.args.a && e.2.state == .migratingOut && !e.2.lostPages
    (∀ x ∈ [tTabled, tMapped .running], source (tSource x) = some (0, { x with state := .migratingOut }) ∧
      (tSource x).contexts.find? (fun e => e.2.lineage == (tSource x).args.a && e.2.state == .migratingOut) = some (0, { x with state := .migratingOut }) ∧
      find (tSource x).contexts 0 = some { x with state := .migratingOut }) ∧
    source (tTables [] 0) = none ∧ source (tSource { tTabled with lostPages := true }) = none := by decide +kernel
/-- A page that is there, sound or with an error in it, and one that a pull holds. -/
theorem witness_PageCommands_stage :
    let s := tSource (tMapped .running)
    let read := fun (s : State) => (s.stage2 0 0 s.args.b false).bind fun u d => (u.reachAll 0 d s.args.c).bind fun v _ => .ok v (v.readErrors d s.args.c).2
    (read s).value = some none ∧
      (((s.stage2 0 0 s.args.b false).value.map fun d => (read { s with devEcc := [(d / 64, true)] }).value) = some (some (((s.stage2 0 0 s.args.b false).value).map fun d => d / 64 * 64))) ∧
      ((tSource tTabled).stage2 0 0 (tSource tTabled).args.b false).ending = 2 := by decide +kernel
/-- The entry of a pull that has been answered is there, in a granule with an error, and nowhere. -/
theorem witness_PageCommands_received :
    let s := { tTables [] 0x1001E with pulling := [tPull], args := { Args.none with a := 0 } }
    (s.walkAt 0 0 0 0x8000).ending = 0 ∧ ({ s with devEcc := [(0x200, true)] }.walkAt 0 0 0 0x8000).ending = 1 ∧ (s.walkAt 0 0 0 (2 ^ 55 - 4096)).ending = 1 ∧
      ({ s with links := [(420, { Link.zero with state := .retraining })] }.walkAt 0 0 0 hostWindow).ending = 2 := by decide +kernel
/-- A page asked for that stands where there is no memory. -/
theorem witness_PageCommands_unread :
    let x := { tTabled with xlat := { tTabled.xlat with s2root := 2 ^ 55 - 4096 } }
    ((tSource x).stage2 0 0 (tSource x).args.b false).ending = 1 := by decide +kernel
/-! ### Witnesses: gates -/

/-- Two entries of access, for context 0 of module 0 and context 5 of module 431, and gate 17 under a full bucket. -/
def tOwn : AclEntry := { module := 0, ctx := 0, post := true, wait := true, doff := 0 }
def tFar : AclEntry := { module := 431, ctx := 5, post := true, wait := true, doff := 0 }
def tRecord (st : GateState) : Gate := { Gate.zero with state := st, prior := .closed, acl := [tOwn], tokens := 96, win := 1024 }
def tGateFields (kind op home : Nat) (l : List (Nat × Nat)) : List (Nat × Nat) := [(0, kind), (1, 1), (18, op), (22, home)] ++ l
/-- The block of access at 0xA000 or 0xB000, and a packet that has read it in its first step. -/
def tBlock (a : Nat) : List Byte :=
  if a = 0xA000 then natBytes (2 ^ 63 + 3 * 2 ^ 19) 192 else if a = 0xB000 then natBytes (2 ^ 63 + 3 * 2 ^ 19 + 431 * 2 ^ 10 + 5) 192 else natBytes 0 192
def tGatePacket (n : Nat) (l : List (Nat × Nat)) : Packet :=
  { tPacket l with next := n, data := if n = 0 then [] else tBlock (fieldOf (tBytes l) 32 8) }
/-- A gate command in step `n`; the block of access of gate 17 stands at 0xA000, and one that names module 431 at 0xB000. -/
def tGates (st : GateState) (n : Nat) (l : List (Nat × Nat)) : State :=
  { tPackets .running l with
    queues := [(0, tQueue .active [tGatePacket n l])]
    globals := { tBase.globals with present := [0, 431] }
    args := { Args.none with parts := [(431, 5, 0)] }
    gates := [(17, tRecord st)]
    dev := { epoch := none, cells := cellsAt 0xA000 (natBytes (2 ^ 63 + 3 * 2 ^ 19) 8) ++ cellsAt 0xB000 (natBytes (2 ^ 63 + 3 * 2 ^ 19 + 431 * 2 ^ 10 + 5) 8) } }
def tGateOk (s : State) (kind n : Nat) (l : List (Nat × Nat)) : Bool :=
  let p := tGatePacket n l
  s.commandPacket (· == kind) == some (0, tQueue .active [p], p) && decide (s.args.a < 98304) && s.globals.boot == 7 &&
    pkSemen p.bytes == false && fieldOf p.bytes 19 1 == 0 && p.next != statusHeld && s.args.flag == false
/-- The eight commands for a home on another module, present and absent; before its answer and after each. -/
theorem witness_GateEvents_elsewhere : ∀ e ∈ [(0x28, 0), (0x28, 1), (0x28, 2), (0x28, 3), (0x28, 4), (0x29, 0), (0x29, 1), (0x29, 2)],
    ∀ n ∈ [0, 2], ∀ home ∈ [430, 431], ∀ code ∈ [0, 1, 2, 6, 10],
    let l := tGateFields e.1 e.2 home (if e.1 = 0x28 ∧ e.2 % 3 = 0 then [(24, 96), (28, 1024), (32, 0xA000)] else [])
    let s := { tGates .closed n l with args := { Args.none with peer := ⟨BitVec.ofNat 8 code, 3⟩ } }
    let bs := tBytes l
    tGateOk s e.1 n l = true ∧ fieldOf bs 18 1 = e.2 ∧ (if e.1 = 0x28 then gateFields bs else revokeFields bs) = true ∧ fieldOf bs 22 2 = home ∧
      home ≠ s.globals.modIdx ∧ s.globals.present.contains home = (home == 431) ∧ s.args.peer.status.toNat = code := by decide +kernel
def tGateCreate (n at_ flags : Nat) : List (Nat × Nat) := [(24, 96), (28, n), (32, at_), (42, flags)]
/-- A block of this module, one whose context is on another module, after its answer; SETACL with both. -/
theorem witness_GateEvents_create : ∀ e ∈ [(0, 0xA000, tOwn, ([] : List Nat)), (1, 0xB000, tFar, [431])], ∀ op ∈ [0, 3], ∀ st ∈ [GateState.closed, .opened],
    let l := tGateFields 0x28 op 0 ((20, if op = 3 then 17 else 0) :: tGateCreate 1024 e.2.1 0)
    let s := tGates st e.1 l
    let bs := tBytes l
    let b : AclBlock := { acl := [e.2.2.1], windows := [] }
    tGateOk s 0x28 e.1 l = true ∧ fieldOf bs 22 2 = s.globals.modIdx ∧ gateFields bs = true ∧ fieldOf bs 18 1 = op ∧
      aclBlock (if e.1 = 0 then s.dpaBytes (fieldOf bs 32 8) 192 else (tGatePacket e.1 l).data) (if op = 0 then (fieldOf bs 42 1).testBit 1 else (s.gate (fieldOf bs 20 2)).digest) = some b ∧
      (∀ m ∈ s.aclModules b ++ s.awayShadows.map (·.1), s.globals.present.contains m = true) ∧ s.aclModules b = e.2.2.2 ∧ (e.2.2.2 = [] ∨ (e.1 ≠ 0 ∧ s.args.peer.status = 0)) ∧
      (∀ a ∈ b.acl, (s.partitionOf s.args.parts a).isSome = true) ∧ s.windowsOk s.args.parts b = true ∧ s.freeGate = some 0 ∧
      (op = 3 → (s.gate (fieldOf bs 20 2)).state = st) := by decide +kernel
/-- What GateEvents calls listed, in the state after the block has been read. -/
def tListed (s : State) (p : Packet) (also : List Nat) (digest : Bool) (b : AclBlock) : Bool :=
  let r := s.commandReads (if p.next = 0 then [(fieldOf p.bytes 32 8, 192)] else [])
  let u := r.state s
  let ms := (u.aclModules b ++ also.filter (· != u.globals.modIdx)).eraseDups
  r.ending == 0 && aclBlock (if p.next = 0 then u.dpaBytes (fieldOf p.bytes 32 8) 192 else p.data) digest == some b &&
    ((ms ++ u.awayShadows.map (·.1)).all fun m => u.globals.present.contains m) && (ms == [] || (p.next != 0 && u.args.peer.status == 0)) &&
    (b.acl.all fun e => (u.partitionOf u.args.parts e).isSome) && u.windowsOk u.args.parts b
/-- CREATE and SETACL with a block of this module or of another; SETACL of a gate that listed module 431 takes its right away, before its answer
and after. -/
theorem witness_GateEvents_listed : ∀ e ∈ [(0, 0xA000, tOwn), (1, 0xB000, tFar), (2, 0xA000, tOwn), (3, 0xA000, tOwn)],
    let l := tGateFields 0x28 3 0 ((20, 17) :: tGateCreate 1024 e.2.1 0)
    let g := if e.1 = 0 then tRecord .opened else { tRecord .opened with acl := [tOwn, tFar], away := [(431, 0, true)] }
    let s := { tGates .opened e.1 l with gates := [(17, g)] }
    let b : AclBlock := { acl := [e.2.2], windows := [] }
    tGateOk s 0x28 e.1 l = true ∧ gateFields (tBytes l) = true ∧ s.gate 17 = g ∧
      tListed s (tGatePacket e.1 l) [] g.digest b = true ∧ tListed s (tGatePacket e.1 l) g.modules g.digest b = true ∧
      takesRight g.acl b.acl = (e.1 != 0) ∧ (g.modules = [] ↔ e.1 = 0) := by decide +kernel
/-- A block that cannot be read. -/
theorem witness_GateEvents_unread :
    let l := tGateFields 0x28 0 0 (tGateCreate 1024 0x60000000000 0)
    let s := tGates .closed 0 l
    tGateOk s 0x28 0 l = true ∧ gateFields (tBytes l) = true ∧ (s.commandReads [(fieldOf (tBytes l) 32 8, 192)]).ending = 1 := by decide +kernel
theorem gates_full (g : Gate) (s : State) (hg : g.state ≠ .free) :
    let u : State := { s with gates := (List.range 4096).map fun n => (n, g) }
    u.freeGate = none ∧ ∀ n < 4096, u.gate n = g := by
  have h : ∀ n ∈ List.range 4096, find ((List.range 4096).map fun n => (n, g)) n = some g := fun n hn => find_same g n _ hn
  refine ⟨?_, fun n hn => by simp only [State.gate, h n (List.mem_range.2 hn)]; rfl⟩
  simp only [State.freeGate, List.find?_eq_none]
  intro n hn
  simp only [State.gate, h n hn]
  simpa using hg
/-- No record is free; a block with no entry. -/
theorem witness_GateEvents_full :
    let l := tGateFields 0x28 0 0 (tGateCreate 1024 0xA000 1)
    ({ tGates .closed 0 l with gates := (List.range 4096).map fun n => (n, tRecord .closed) } : State).freeGate = none := by
  exact (gates_full _ _ (by decide)).1
theorem witness_GateEvents_refused :
    let l := tGateFields 0x28 0 0 (tGateCreate 1024 0x9000 2)
    let s := tGates .closed 0 l
    let bs := tBytes l
    tGateOk s 0x28 0 l = true ∧ fieldOf bs 22 2 = s.globals.modIdx ∧ gateFields bs = true ∧ fieldOf bs 18 1 = 0 ∧
      aclBlock (s.dpaBytes (fieldOf bs 32 8) 192) ((fieldOf bs 42 1).testBit 1) = none := by decide +kernel
/-- The other commands on a gate in every state; MOVE to this module, to another, and to one that is not present. -/
theorem witness_GateEvents_moving : ∀ m ∈ [0, 5],
    let l := tGateFields 0x28 4 0 [(20, 17), (40, 431)]
    let y : Mover := { newHome := 431, deadline := 9, module := 0, queue := 0, index := m }
    let s := { tGates .opened 0 l with gates := [(17, { tRecord .migrating with mover := some y })] }
    tGateOk s 0x28 0 l = true ∧ gateFields (tBytes l) = true ∧ fieldOf (tBytes l) 18 1 = 4 ∧ (s.gate (fieldOf (tBytes l) 20 2)).state = .migrating ∧
      ((s.gate 17).mover.map (fun m => (m.module, m.queue, m.index)) == some (s.globals.modIdx, s.args.a, 0)) = (m == 0) := by decide +kernel
theorem witness_GateEvents_operations : ∀ e ∈ [(0x28, 1), (0x28, 2), (0x28, 3), (0x28, 4), (0x29, 0), (0x29, 1), (0x29, 2)], ∀ there ∈ [0, 430, 431],
    ∀ st ∈ [GateState.closed, .opened, .migrating, .revoked, .forward],
    let l := tGateFields e.1 e.2 0 ((20, 17) :: if e = (0x28, 3) then tGateCreate 1024 0xA000 0 else if e = (0x28, 4) then [(40, there)] else [])
    let s := tGates st 0 l
    let bs := tBytes l
    tGateOk s e.1 0 l = true ∧ fieldOf bs 22 2 = s.globals.modIdx ∧ (if e.1 = 0x28 then gateFields bs = true else zeroIn bs 24 63 = true) ∧
      fieldOf bs 18 1 = e.2 ∧ fieldOf bs 20 2 = 17 ∧ (s.gate 17).state = st ∧ (e = (0x28, 4) → fieldOf bs 40 2 = there) ∧
      s.globals.present.contains there = (there != 430) := by decide +kernel

/-- Events at gate 17: its shadow on massif 0, and one post of tile 0. -/
def tPost (digest : List Byte) : Post := { id := 0, gate := 17, module := 0, ctx := 0, tile := 0, digest := digest }
def tArrive (g : Gate) (p : Post) : State :=
  { tGates .opened 0 [] with gates := [(17, g)], posts := [p], shadows := [tShadow .opened true true], args := { Args.none with a := 17 } }
theorem witness_GateEvents_published :
    let s := tArrive (tRecord .opened) (tPost [])
    s.args.b < 96 ∧ s.args.gate = none ∧ s.shadow s.args.a s.args.b = some (tShadow .opened true true) ∧ s.localGate s.args.a = some (17, some (tRecord .opened)) := by
  decide +kernel
theorem witness_GateEvents_tokens :
    (∀ c ∈ [0, 1024], let s := { tArrive (tRecord .opened) (tPost []) with cycle := c }
      s.args.flag = false ∧ (s.gate s.args.a).tokens ≠ 0 ∧ s.cycle % (s.gate s.args.a).win = 0) ∧
    (let s := { tArrive (tRecord .opened) (tPost []) with cycle := 1023 }
     s.args.flag = false ∧ s.cycle % (s.gate s.args.a).win ≠ 0) ∧
    (let s := tArrive { tRecord .opened with tokens := 0 } (tPost [])
     s.args.flag = false ∧ (s.gate s.args.a).tokens = 0) := by decide +kernel
/-- Tokens for shadows here alone, here and on another module, and on other modules alone. -/
theorem witness_GateEvents_shares :
    let g := tRecord .opened
    let a := { g with away := [(431, 0, true)] }
    let b := { g with away := [(430, 7, true), (431, 0, true)] }
    let y := { tShadow .opened true true with post := true }
    let s := { tArrive g (tPost []) with shadows := [y, { y with massif := 5 }] }
    g.tokens ≠ 0 ∧ (∀ y ∈ s.shadows, y.gate = s.gateId 17 ∧ y.post = true ∧ y.massif < 96) ∧ (s.shadows.map (·.massif)).Pairwise (· < ·) ∧ g.away = [] ∧
      (y.massif < 96 ∧ a.away = [(431, 0, true)] ∧ 431 ≠ s.globals.modIdx) ∧
      (b.away.Pairwise (fun a b => a.1 * 128 + a.2.1 < b.1 * 128 + b.2.1) ∧ ∀ a ∈ b.away, a.2.2 = true ∧ a.1 ≠ s.globals.modIdx) := by decide +kernel
/-- A digest gate of two replicas with their pending digests. -/
def tOther : AclEntry := { tOwn with ctx := 1 }
def tDigests (d e kept : List (List Byte)) : Gate :=
  { tRecord .opened with digest := true, acl := [tOwn, tOther], digests := [(tOwn, d), (tOther, e)], kept := kept }
def tArrived (g : Gate) (p : Post) : Bool :=
  let s := tArrive g p
  s.args.gate == none && s.args.flag == false && s.args.post == none && s.posts == [p] && p.tile == s.args.b && p.module == s.args.d &&
    s.homeId p.gate == s.homeId s.args.a && ({ s with posts := [] } : State).localGate p.gate == some (17, some g) && p.module == s.globals.modIdx
theorem witness_GateEvents_posts :
    (∀ st ∈ [GateState.opened, .closed, .migrating, .revoked, .free], tArrived (tRecord st) (tPost []) = true ∧ (tRecord st).digest = false ∧ (tRecord st).state = st) ∧
    (tArrived (tDigests [] [] [[1], [2]]) (tPost [3]) = true ∧ (tDigests [] [] [[1], [2]]).kept ≠ [] ∧ (tDigests [] [] [[1], [2]]).digest = true) ∧
    (∀ e ∈ [([] : List (List Byte)), [[3]], [[4], [5]]],
      let g := tDigests [] e []
      let p := tPost [3]
      tArrived g p = true ∧ g.state = .opened ∧ g.digest = true ∧ g.kept = [] ∧
        g.digests.map (fun e => if e.1.module = p.module ∧ e.1.ctx = p.ctx then (e.1, e.2 ++ [p.digest]) else e) = [(tOwn, [[3]]), (tOther, e)]) ∧
    (([3] : List Byte) ≠ [4]) := by decide +kernel
theorem witness_GateEvents_diverged : ({ tArrive (tRecord .opened) (tPost []) with args := { Args.none with gate := some (tRecord .opened) } } : State).args.gate =
    some (tRecord .opened) := rfl
/-- A waiter record of a tile of this module and of another, where the record stands and where it does not. -/
theorem witness_GateEvents_waiters : ∀ f ∈ [false, true],
    (let s := { tArrive (tRecord .opened) (tPost []) with args := { Args.none with a := 17, flag := f, d := 431, c := 2 } }
     s.args.b < 96 ∧ s.args.flag = f ∧ s.localGate s.args.a = some (17, some (tRecord .opened))) ∧
    (let s := { tArrive (tRecord .opened) (tPost []) with args := { Args.none with a := 431 * 4096, flag := f } }
     s.args.b < 96 ∧ s.args.flag = f ∧ s.localGate s.args.a = none) := by decide +kernel
/-- A gate that moves, to this module and to another, with an answer, a refusal, and none at the last cycle and after it. -/
def tMover (m : Nat) : Mover := { newHome := m, deadline := 5, module := 0, queue := 0, index := 0 }
theorem witness_GateEvents_moves : ∀ m ∈ [0, 431], ∀ f ∈ [false, true], ∀ code ∈ [0, 2], ∀ c ∈ [4, 5],
    let s := { tArrive { tRecord .migrating with mover := some (tMover m) } (tPost []) with
      cycle := c, args := { Args.none with a := 17, flag := f, peer := ⟨BitVec.ofNat 8 code, 3⟩ } }
    s.args.flag = f ∧ s.args.a < 4096 ∧ (s.gate s.args.a).state = .migrating ∧ (s.gate s.args.a).mover = some (tMover m) ∧
      ((tMover m).newHome = s.globals.modIdx ↔ m = 0) ∧ s.freeGate = some 0 ∧ s.args.peer.status.toNat = code ∧ (s.cycle < (tMover m).deadline ↔ c = 4) := by
  decide +kernel
theorem witness_GateEvents_moves_full :
    let g := { tRecord .migrating with mover := some (tMover 0) }
    let s := { tArrive g (tPost []) with gates := (List.range 4096).map fun n => (n, g) }
    s.freeGate = none ∧ ∀ n < 4096, s.gate n = g := gates_full _ _ (by decide)
/-- A gate that another module moves here. -/
theorem witness_GateEvents_installed :
    let s := { tArrive (tRecord .opened) (tPost []) with args := { Args.none with a := 431 * 4096 + 9, d := 431, flag := true, gate := some (tRecord .opened) } }
    s.args.flag = true ∧ s.args.gate = some (tRecord .opened) ∧ s.freeGate = some 0 ∧
      ({ s with gates := (List.range 4096).map fun n => (n, tRecord .opened) } : State).freeGate = none :=
  ⟨rfl, rfl, by decide +kernel, (gates_full _ _ (by decide)).1⟩
/-- A change of partitions at a gate that lists another module, before its answer and after. -/
theorem witness_GateEvents_reports_away : ∀ f ∈ [false, true],
    let g := { tRecord .opened with acl := [tOwn, tFar] }
    let s := { tArrive g (tPost []) with args := { Args.none with a := 17, flag := f } }
    s.args.flag = f ∧ s.localGate s.args.a = some (17, some g) ∧ g.state ≠ .free ∧ g.state ≠ .forward ∧
      ((g.acl.map (·.module)).eraseDups).filter (· != s.globals.modIdx) = [431] ∧ s.args.peer.status = 0 := by decide +kernel
theorem witness_GateEvents_reports :
    let s := tArrive (tRecord .opened) (tPost [])
    s.args.flag = false ∧ s.localGate s.args.a = some (17, some (tRecord .opened)) ∧ (tRecord .opened).state ≠ .free ∧ (tRecord .opened).state ≠ .forward := by
  decide +kernel
/-- A command that waits for another module, at its last cycle and after it. -/
theorem witness_GateEvents_unreachable : ∀ c ∈ [4, 5],
    let p := tGatePacket 2 [(0, 0x29), (22, 431)]
    let q := tQueue .active [p]
    let s := { tGates .opened 2 [(0, 0x29), (22, 431)] with cycle := c }
    s.args.flag = false ∧ s.args.a < 98304 ∧ find s.queues s.args.a = some q ∧
      q.packets.find? (fun p => p.index == s.args.b && !p.complete && decide (2 ≤ p.next) && p.next != statusHeld) = some p ∧ (s.cycle < p.deadline ↔ c = 4) := by decide +kernel
/-- SETACL waits for the modules that lose a right. -/
theorem witness_GateEvents_unreachable_setacl : ∀ n ∈ [2, 3], ∀ c ∈ [4, 5],
    let l := [(0, 0x28), (18, 3)]
    let p := tGatePacket n l
    let q := tQueue .active [p]
    let s := { tGates .opened n l with cycle := c }
    s.args.c = 0 ∧ s.args.flag = false ∧ s.args.a < 98304 ∧ find s.queues s.args.a = some q ∧
      q.packets.find? (fun p => p.index == s.args.b && !p.complete && decide (2 ≤ p.next) && p.next != statusHeld) = some p ∧ pkKind p.bytes = 0x28 ∧
      fieldOf p.bytes 18 1 % 8 = 3 ∧ p.next = n ∧ (s.cycle < p.deadline ↔ c = 4) := by decide +kernel
/-- A command that module 431 has sent here, at its last cycle and after it. -/
theorem witness_GateEvents_carried : ∀ n ∈ [2, 3], ∀ c ∈ [4, 5],
    let k : Carried := { module := 431, queue := 7, index := 9, record := 17, next := n, deadline := 5, data := [] }
    let s := { tArrive (tRecord .opened) (tPost []) with cycle := c, carried := [k], args := { Args.none with a := 7, b := 9, c := 1, d := 431 } }
    s.args.c ≠ 0 ∧ s.carried = [k] ∧ k.module = s.args.d ∧ k.queue = s.args.a ∧ k.index = s.args.b ∧ (s.cycle < k.deadline ↔ c = 4) := by decide +kernel
/-- The waiter records of a gate that has moved here. -/
theorem witness_GateEvents_waiters_moved :
    let s := { tArrive (tRecord .opened) (tPost []) with args := { Args.none with a := 17, gate := some (tRecord .opened) } }
    s.args.b < 96 ∧ s.args.gate = some (tRecord .opened) ∧ s.localGate s.args.a = some (17, some (tRecord .opened)) := by decide +kernel
/-! ### Witnesses: links, power, the host, and a step -/

def tSlots (l dir owner : Nat) : List (Nat × Nat) := [(0, 0x27), (1, 1), (20, l), (22, dir), (24, 2 ^ 63), (32, owner)]
theorem witness_LinksAndPower_slots : ∀ e ∈ [(419, 0, 95), (355, 1, 0xFF), (0, 1, 5)], ∀ n ∈ [0, 1], ∀ other ∈ [4, 95],
    let l := tSlots e.1 e.2.1 e.2.2
    let p := { tPacket l with next := n }
    let s := { tPackets .running l with links := [(419, { Link.zero with slots0 := [(63, other)] })], queues := [(0, tQueue .active [p])] }
    let bs := p.bytes
    s.commandPacket (· == 0x27) = some (0, tQueue .active [p], p) ∧ s.args.a < 98304 ∧ s.globals.boot = 7 ∧ pkSemen bs = false ∧ fieldOf bs 19 1 = 0 ∧
      fieldOf bs 18 1 = 0 ∧ fieldOf bs 20 2 = e.1 ∧ fieldOf bs 20 2 < 420 ∧ fieldOf bs 22 1 < (if fieldOf bs 20 2 < 356 then 2 else 1) ∧ zeroIn bs 23 24 = true ∧
      (fieldOf bs 32 1 < 96 ∨ fieldOf bs 32 1 = 0xFF) ∧ zeroIn bs 33 63 = true ∧ p.next = n ∧
      (s.link_ e.1).taken e.2.1 (2 ^ 63) e.2.2 = (if e.1 = 419 ∧ other = 4 then some 63 else none) := by decide +kernel
def tChange : SlotChange := { dir := 0, mask := 1, owner := 3, queue := 0, index := 0 }
def tLink (l : Nat) (st : LinkState) (n : Nat) (cs : List SlotChange) : State :=
  { tPackets .running [] with
    links := [(l, { Link.zero with state := st, attempts := n, changes := cs })]
    args := { Args.none with a := l, b := 16 }
    globals := { tBase.globals with present := [0, 24] } }
theorem witness_LinksAndPower_boundaries : ∀ l ∈ [0, 419],
    (let s := tLink l .active 0 []
     s.args.a < 420 ∧ (s.link_ s.args.a).changes = [] ∧ s.cycle % frameOf s.args.a = 0) ∧
    (let s := tLink l .active 0 [tChange]
     (s.link_ s.args.a).changes = [tChange] ∧ find s.queues tChange.queue = some (tQueue .active [tPacket []]) ∧
       (tQueue .active [tPacket []]).packets.find? (fun p => p.index == tChange.index) = some (tPacket [])) ∧
    (let s := { tLink l .active 0 [tChange] with cycle := 1 }
     s.args.a < 420 ∧ (s.link_ s.args.a).changes ≠ [] ∧ s.cycle % frameOf s.args.a ≠ 0) := by decide +kernel
/-- With the CXL port up, and down. -/
theorem witness_LinksAndPower_port : ∀ l ∈ [0, 355, 356, 419, 420], ∀ st ∈ [LinkState.active, .down],
    let s := tLink l .active 0 []
    let s := if l = 420 then s else { s with links := (420, { Link.zero with state := st }) :: s.links }
    s.args.a < 421 ∧ (s.link_ l).state = .active ∧ (l ≠ 420 → s.hostPort = (st == .active)) := by decide +kernel
/-- Every state of an edge, a ridge port and the CXL port; the width that a training reaches, after none, one or two that failed. -/
theorem witness_LinksAndPower_links : ∀ l ∈ [0, 355, 356, 419, 420], ∀ st ∈ [LinkState.active, .degraded, .training, .retraining, .failed, .down], ∀ n ∈ [0, 1, 2],
    ∀ width ∈ [16, 8, 4, 5],
    let s := { tLink l st n [] with args := { Args.none with a := l, b := width, c := 2 } }
    s.args.a < 421 ∧ (s.link_ s.args.a).state = st ∧ (s.link_ s.args.a).attempts = n ∧ s.args.b = width := by decide +kernel
theorem witness_LinksAndPower_facing : ∃ p < 64, ((tLink (356 + p) .down 0 []).facing (356 + p)).isSome = true := by decide +kernel
/-- An operation on the link, stalled there, and one that has left it. -/
theorem witness_LinksAndPower_crossing :
    let h : Hop := { link := 0, dir := 0, after := 16 }
    let y := { tTransit with op := { tTransit.op with src := 0 }, last := some (h, 0), stalled := true, hops := [h] }
    let s := { tLink 0 .active 0 [] with transit := [y] }
    y.on s.cycle 0 = true ∧ y.hops ≠ [] ∧ h.link = 0 ∧ isLocal y.op.src = true ∧ (∀ z ∈ [{ y with stalled := false }], z.on 12 0 = false) ∧
      ({ y with stalled := false } : Transit).on 11 0 = true := by decide +kernel
theorem witness_LinksAndPower_sync : ∀ c ∈ [95, 96],
    let s := { tLink 419 .active 0 [] with cycle := c }
    356 ≤ s.args.a ∧ s.args.a < 420 ∧ (s.link_ s.args.a).state = .active ∧ (s.args.c + 96 = s.cycle ↔ c = 96) := by decide +kernel
theorem witness_LinksAndPower_bring_up : tBase.args.a < 432 ∧ tBase.groups = [] ∧ (tGrouped .running true (tTask none []) 0 .issuing).args.a < 432 ∧
    (tGrouped .running true (tTask none []) 0 .issuing).groups ≠ [] := by decide +kernel
def tPower (w : PowerState) (p : Option (PowerState × Nat)) : State :=
  { tBase with
    power := [(95, { state := w, pending := p, lastErr := 0 })], args := { Args.none with a := 95 }
    links := [(420, { Link.zero with state := .active })] }
theorem witness_LinksAndPower_power :
    (∀ w ∈ [PowerState.full, .reduced, .retention, .off], ∀ p ∈ [none, some (.full, 3)], (tPower w p).args.a < 96 ∧ (tPower w p).hostPort = true ∧ { tPower w p with links := [] }.hostPort = false ∧ ((tPower w p).powerOf 95).state = w ∧
      ((tPower w p).powerOf 95).pending = p ∧ (tPower w none).massifIdle 95 = true ∧ (tPower w none).massifLockstep 95 = false) ∧
    (let s := { tGrouped .running true (tTask none []) 0 .issuing with args := Args.none, links := [(420, { Link.zero with state := .active })] }
     s.args.a < 96 ∧ s.hostPort = true ∧ (s.powerOf s.args.a).pending = none ∧ (s.powerOf s.args.a).state = .full ∧ s.massifIdle s.args.a = false ∧ s.massifLockstep s.args.a = true) := by
  decide +kernel
theorem witness_LinksAndPower_transitions :
    (∀ c ∈ [0, 1],
      let s := tPower .full (some (.retention, c))
      s.args.a < 96 ∧ (s.powerOf s.args.a).pending = some (.retention, c) ∧ (s.powerOf s.args.a).state = .full ∧ s.args.parts = [] ∧
        (∀ e ∈ s.tilesAt s.args.a, e.2.ecc = []) ∧ (s.cycle < c ↔ c = 1)) ∧
    (let s := tPower .retention (some (.full, 0))
     (s.powerOf s.args.a).pending = some (.full, 0) ∧ (s.powerOf s.args.a).state = .retention ∧ 0 ≤ s.cycle ∧ s.args.parts = [] ∧ s.parkedAtEdge = [] ∧
       (∀ e ∈ s.tilesAt s.args.a, e.2.ecc = [])) ∧
    (∀ e ∈ [(PowerState.full, PowerState.reduced), (.reduced, .full), (.full, .off), (.retention, .off), (.off, .full), (.off, .reduced)],
      let s := tPower e.1 (some (e.2, 0))
      s.args.a < 96 ∧ (s.powerOf s.args.a).pending = some (e.2, 0) ∧ (s.powerOf s.args.a).state = e.1 ∧ 0 ≤ s.cycle ∧ s.parkedAtEdge = []) ∧
    massifOf 253439 = 95 ∧ (tPower .off none).tileExists 253439 = true := by
  decide +kernel
/-- The stages of bring-up: each outcome at its stage; a massif with three rows mapped out. -/
theorem witness_LinksAndPower_stages : ∀ k ∈ [1, 2, 3, 4, 5, 6], ∀ b ∈ [BootResult.ready, .fwFail, .linkFail 3, .selfTestFail 95, .repairFail 7],
    let s := { tBase with globals := { tBase.globals with boot := k }, args := { Args.none with a := k, boot := b } }
    s.args.a ≠ 0 ∧ s.globals.boot = k ∧ s.args.a = k ∧ s.args.boot = b ∧ (∀ y ∈ s.args.parts, y.1 < 356 → y.2.1 = 16 ∨ y.2.1 = 8 ∨ y.2.1 = 4) ∧
      ∀ m < 96, (s.globals.rowsOut m).length ≤ 2 := by decide +kernel
/-- The training of stage 2 and its two ends: links that come up, and an edge that fails. -/
theorem witness_LinksAndPower_training : ∀ b ∈ [0, 1], ∀ ok ∈ [false, true],
    let s := { tBase with
      globals := { tBase.globals with boot := 2 }, links := [(3, { Link.zero with state := .training })]
      args := { Args.none with a := 2, b := b, boot := if ok then .ready else .linkFail 3 } }
    let v := s.endTraining s.args.parts s.args.boot
    s.globals.boot = 2 ∧ s.args.a = 2 ∧ s.args.b = b ∧ (find s.links 3).map (·.state) = some .training ∧
      (v.links.any fun e => decide (e.1 < 356) && e.2.state == .failed) = !ok := by decide +kernel
theorem witness_LinksAndPower_repairs :
    let g := { tBase.globals with mapped := [(5, 0), (5, 1), (5, 2)] }
    2 < (g.rowsOut 5).length ∧ ∀ j < 5, (g.rowsOut j).length ≤ 2 := by decide +kernel
/-- A command of an interface, which names one or none. -/
theorem witness_LinksAndPower_icmd : ∀ e ∈ [(0, 0), (4095, 0x101), (4095, 3)],
    let s := { tBase with args := { Args.none with a := 0x200000 + 64 * e.1 + 8, bytes := natBytes e.2 8 }, links := [(420, { Link.zero with state := .active })] }
    s.args.a < 2 ^ 25 ∧ s.hostPort = true ∧ e.1 < 4096 ∧ s.args.bytes.length = 8 ∧ (leNat s.args.bytes ∈ [1, 2, 3] ↔ e.2 = 3) := by decide +kernel
/-- The host's accesses: the last register, its own memory on both sides of the range, and the last byte of device memory. -/
theorem witness_LinksAndPower_host :
    let s := fun (a : Nat) (f : Bool) => { tBase with args := { Args.none with a := a, flag := f }, globals := { tBase.globals with hdmBase := 0x1000 }, links := [(420, { Link.zero with state := .active })] }
    (s (2 ^ 25 - 1) false).hostPort = true ∧ (s (2 ^ 25 - 1) false).args.a < 2 ^ 25 ∧
    (∀ f ∈ [false, true],
      (s 0xFFF f).args.a < (s 0xFFF f).globals.hdmBase ∧ 0x140000000000 ≤ (s 0x140000001000 f).args.a - (s 0x140000001000 f).globals.hdmBase ∧
      (s 0x1000 f).args.flag = f ∧ (s 0x1000 f).hostPort = true ∧ (s 0x1000 f).globals.hdmBase ≤ (s 0x1000 f).args.a ∧
      (s 0x1000 f).args.a - (s 0x1000 f).globals.hdmBase < 0x140000000000 ∧ ownDpa ((s 0x1000 f).args.a - (s 0x1000 f).globals.hdmBase) ≠ .bad ∧
      (s 0x140000000FFF f).args.a - (s 0x140000000FFF f).globals.hdmBase < 0x140000000000 ∧
      ownDpa ((s 0x140000000FFF f).args.a - (s 0x140000000FFF f).globals.hdmBase) ≠ .bad) := by decide +kernel

/-- A bundle of one ADD, in slot 1, issues. -/
def tIssue : State :=
  { tBase with
    todo := [(0, .issue)]
    tile := { tBase.tile with imem := Memory.empty.writeNat 4 4 (Instr.add (tRG 5 6 7 0)).encode.toNat } }
theorem witness_StepRunsDecoded :
    let s := tIssue
    s.nextEvent = none ∧ s.todo = (s.cur, .issue) :: [] ∧ s.tile.place.status = .issuing ∧ s.tile.place.members.length ≤ 1 ∧ s.tile.place.stop = none ∧
      s.tile.ctl.nextIssue ≤ s.cycle ∧ s.tile.ctl.leaving = false ∧ s.tile.place.gated = false ∧ s.tile.ctl.haltPoint = false ∧ s.tile.ctl.entry = none ∧
      s.tile.ctl.landing = none ∧ s.tile.ctl.pc % 32 = 0 ∧ s.tile.ctl.pc < 0x10000 ∧ (find s.tile.iecc (s.tile.ctl.pc / 32)).isNone = true ∧
      s.tile.stale = [] ∧ s.tile.ctl.levels = [] ∧ s.tile.place.feed = [] ∧ isMemory ((s.tile.bundleAt 0).syllable 3) = false ∧
      (checkBundle s.tile.mx.mode (s.tile.bundleAt s.tile.ctl.pc)).toOption.map (fun l => l.filter fun e => match e.2 with
        | .nop _ => false
        | _ => true) = some [(1, .add (tRG 5 6 7 0))] := by decide +kernel
/-- The two other forms of a step: a due event, and the end of a cycle. -/
theorem witness_StepRunsDecoded_others : (∃ e u, ({ tIssue with timers := [(0, .slotFrameBoundary, Args.none)] } : State).nextEvent = some (e, u)) ∧
    ({ tIssue with todo := [] } : State).nextEvent = none := ⟨⟨_, _, rfl⟩, by decide +kernel⟩
theorem witness_SyllableFrame : (Instr.add (tRG 5 6 0x5F 0)).home ≠ none ∧ ∃ t, exec (.add (tRG 5 6 0x5F 0)) tBase = .next t := ⟨by decide, _, rfl⟩
/-! ### Examples of the spec -/

/-- R76: the six FP32 leaves 2^24, 1, 1, 1, 1 and -2^24 give 3, with NX of one addition. -/
theorem test_ctree : ctree fp32 6 (fun i => [0x4B800000, 0x3F800000, 0x3F800000, 0x3F800000, 0x3F800000, 0xCB800000][i]?) = (0x40400000, Flag.NX) := by decide +kernel
/-- R148, R146, R145: a condition in a handler is DOUBLE_TRAP with its own code as SCAUSE, its own EPC and no TVAL. -/
theorem test_double_trap :
    let x := { (tBase.enterTrap { tInfo with tval := 7 }) with cycle := 3 }
    let f := (x.fatalAt causeDoubleTrap causeSemOvf 0x60).tile
    x.tile.frame.map (·.tval) = some 7 ∧ f.frame.map (fun f => (f.cause, f.scause, f.epc, f.tval)) = some (0x18, 0x0C, 0x60, 0) ∧
      f.csr.tcause = 0x18 ∧ f.csr.epc = 0x60 := by decide +kernel
/-- R145: level 0 stands at 0x020 and the innermost after it; a result for s0 is of class 6. -/
theorem test_frame_layout :
    let f := { (tHandler.enterTrap tInfo).tile.frame.getD ⟨0, 0, false, [], false, none, [], 0, 0, 0, 0, 0, Tile.reset.lat, [], none, false⟩ with
      levels := [{ tLevel with pass := 2 }, { tLevel with pass := 1 }] }
    f.bytes[0x20]? = some 1 ∧ f.bytes[0x40]? = some 2 ∧ f.bytes.length = 1024 ∧ (tFlight (.s 0 true) false none).classOf = (6, 0) ∧
      (tFlight (.s 63 false) false none).classOf = (1, 63) := by decide +kernel
/-- R137: a tile halts at its halt point only while a request is held, and after no trap. -/
theorem test_halts :
    let s := fun (h r : Bool) (e : Option TrapInfo) => tBase.onCtl fun c => { c with haltPoint := h, preempt := if r then some 0 else none, entry := e }
    (s true true none).haltsNow = true ∧ (s true false none).haltsNow = false ∧ (s false true none).haltsNow = false ∧ (s true true (some tInfo)).haltsNow = false := by
  decide +kernel

/-! ### Witnesses: exact values, waits and launches -/

theorem witness_QuireValues : ((32 : Nat) ∈ [32, 256, 512, 1024] ∧ 5 < 2 ^ 32 ∧ -2 ^ 31 < (-5 : ℤ) ∧ (-5 : ℤ) < 2 ^ 31) ∧ Val.zero.isInf = false ∧
    (∃ c, Fmt.ofCode c = some fp32) ∧ (∃ c, Fmt.ofCode c = some (.tap 32 0)) := by
  exact ⟨by decide, by decide, ⟨0x10, by decide⟩, ⟨12, by decide⟩⟩
/-- The largest and the least product of two FP32 values, and one of two tapered ones. -/
theorem witness_QuireValues_products : ∀ e ∈ [(fp32, 0x7F7FFFFF), (fp32, 1), (Fmt.tap 32 0, 0x40000000)],
    max e.1.view e.1.view ≤ 2 ∧ (e.1.xval e.2).1.isNan = false ∧ (e.1.xval e.2).1.isInf = false := by decide +kernel
theorem witness_QuireValues_sums :
    let q := fun (v : Val) => v.toQuire 1024
    (∀ e < 2, true = true → q (Val.fin true 1 1) ≠ none) ∧ ∃ e < 2, true = true ∧ (fun i => if i = 1 then q Val.nan else q (.fin true 1 1)) e = none :=
  ⟨fun _ _ _ => by decide +kernel, 1, by decide, rfl, rfl⟩
theorem witness_QuireValues_scaled : quireInt 1024 (BitVec.ofNat 1024 (2 ^ 1023)).toNat = none ∧ quireInt 1024 (BitVec.ofNat 1024 5).toNat = some 5 ∧ 0 < 1 := by
  decide +kernel
theorem witness_QuireValues_blocks : (1 < 2 ∧ 0x1F < 0x20) ∧ (0xDF < 0xE0 ∧ 0xE0 ≠ 0xFF) ∧ (0x20 ≤ 0xDF ∧ 0x18 % 16 = 8 ∧ 0x17 % 16 ≠ 8) ∧
    2 ^ 31 < 2 ^ 32 ∧ quireInt 32 5 = some 5 ∧ ¬ (0x20 < 0x20 ∨ 0xDF < 0x20) ∧ ¬ (0xDF < 0x20 ∨ 0xDF < 0xDF) := by decide

/-- A square root that is rational and one that is not. -/
theorem witness_FunctionValues : (0 < 1 ∧ 0 < 4 ∧ ∃ a b : Nat, 0 < b ∧ Real.sqrt ((4 : Nat) / (1 : Nat)) = (a : ℝ) / b) ∧
    ¬ ∃ a b : Nat, 0 < b ∧ Real.sqrt ((2 : Nat) / (1 : Nat)) = (a : ℝ) / b := by
  refine ⟨⟨by decide, by decide, 2, 1, by decide, ?_⟩, ?_⟩
  · rw [show ((4 : Nat) / (1 : Nat) : ℝ) = 2 ^ 2 by norm_num, Real.sqrt_sq (by norm_num)]
    norm_num
  · rintro ⟨a, b, -, h⟩
    refine irrational_sqrt_two ⟨(a : ℚ) / b, ?_⟩
    rw [show (2 : ℝ) = (2 : Nat) / (1 : Nat) by norm_num, h]
    norm_num
/-- Below, above and neither; the two zeros. -/
theorem witness_FunctionValues_order : 0 < 2 ∧ ((-1 : ℚ) / 2 < 1 / 2) ∧ (0 = 0 ∧ true = true ∧ false = false) ∧
    ¬ ((1 : ℚ) / 2 < 1 / 2 ∨ ((1 : Nat) = 0 ∧ (1 : Nat) = 0 ∧ false = true ∧ false = false)) ∧
    (Val.fin true 1 1).isNan = false ∧ (Val.fin true 1 1).isInf = false ∧ Val.inf true = .inf (!false) := by norm_num [Val.isNan, Val.isInf]
/-- VEXP2 at 8192, past it and below -8192, and VLOG2 at 2^-1. -/
theorem witness_FunctionValues_functions : 0 < 1 ∧ |(8192 : ℤ)| ≤ 8192 ∧ (8192 : ℚ) / 1 = (8192 : ℤ) ∧ 8193 ≤ (8193 : ℚ) / 1 ∧ (-8193 : ℚ) / 1 < -8192 ∧
    (1 : ℚ) / 2 = 2 ^ (-1 : ℤ) := by norm_num
theorem witness_TranscendentalValues : 0 < 1 ∧ |(1 : ℝ) * ((8192 : Nat) / (1 : Nat))| ≤ 8192 ∧ 0 < (1 : ℝ) * ((8192 : Nat) / (1 : Nat)) := by norm_num

/-- Values that are equal, and in order. -/
theorem witness_SelectionAndDigests :
    (∀ c ∈ [(⟨.fin true 0 1, 8, 1⟩ : Candidate), ⟨.fin false 0 1, 0, 0⟩, ⟨.nan, 0, 2⟩], 0 < c.val.den) ∧ (Val.fin true 0 1).isNan = false ∧ (Val.inf true).isNan = false := by
  decide
/-- The registers of the rounds over a block of zeros. -/
def tRounds : Nat → Nat → BitVec 32
  | 0, _ => 0
  | t + 1, k =>
    let v := tRounds t
    let rot := fun (x : BitVec 32) (i j k : Nat) => x.rotateRight i ^^^ x.rotateRight j ^^^ x.rotateRight k
    let t1 := v 7 + rot (v 4) 6 11 25 + ((v 4 &&& v 5) ^^^ (~~~(v 4) &&& v 6)) + .ofNat 32 (Sha.kTable.getD t 0) + 0
    let t2 := rot (v 0) 2 13 22 + ((v 0 &&& v 1) ^^^ (v 0 &&& v 2) ^^^ (v 1 &&& v 2))
    if k = 0 then t1 + t2 else if k = 4 then v 3 + t1 else v (k - 1)
theorem witness_SelectionAndDigests_rounds :
    let h : List (BitVec 32) := List.replicate 8 0
    let b : List (BitVec 32) := List.replicate 16 0
    let w := fun (_ : Nat) => (0 : BitVec 32)
    let v := tRounds
    let rot := fun (x : BitVec 32) (i j k : Nat) => x.rotateRight i ^^^ x.rotateRight j ^^^ x.rotateRight k
    let shr := fun (x : BitVec 32) (i j k : Nat) => x.rotateRight i ^^^ x.rotateRight j ^^^ x >>> k
    h.length = 8 ∧ b.length = 16 ∧ (∀ t < 16, w t = b.getD t 0) ∧
    (∀ t, w (t + 16) = shr (w (t + 14)) 17 19 10 + w (t + 9) + shr (w (t + 1)) 7 18 3 + w t) ∧ (∀ k < 8, v 0 k = h.getD k 0) ∧
    ∀ t,
      let t1 := v t 7 + rot (v t 4) 6 11 25 + ((v t 4 &&& v t 5) ^^^ (~~~(v t 4) &&& v t 6)) + .ofNat 32 (Sha.kTable.getD t 0) + w t
      let t2 := rot (v t 0) 2 13 22 + ((v t 0 &&& v t 1) ^^^ (v t 0 &&& v t 2) ^^^ (v t 1 &&& v t 2))
      v (t + 1) 0 = t1 + t2 ∧ v (t + 1) 4 = v t 3 + t1 ∧ ∀ k ∈ ([0, 1, 2, 4, 5, 6] : List Nat), v (t + 1) (k + 1) = v t k := by
  refine ⟨rfl, rfl, by decide, fun _ => by beta_reduce; decide, by decide, fun t => ⟨rfl, rfl, fun k hk => ?_⟩⟩
  simp only [List.mem_cons, List.not_mem_nil, or_false] at hk
  rcases hk with rfl | rfl | rfl | rfl | rfl | rfl <;> rfl

/-- Semaphore 255 with count 3 and expect 3, and a phase of barrier 31 that its release has reached, or has not. -/
def tCounted (l : W32) : State :=
  { tPending (some 5) with
    tile := { (tPending (some 5)).tile with
      sems := wr tBase.tile.sems 255 ⟨3, 3⟩
      io := { (tPending (some 5)).tile.io with lphase := wr tBase.tile.io.lphase 31 l } } }
theorem witness_WaitTests :
    let x := rd (tCounted 5).tile.sems 255
    (∃ u, tBase.testWait (.cycle 0) = .satisfied u) ∧ tBase.testWait (.sem 255 1) = .waiting ∧
    (tWaiting (tGate (tShadow .revoked true true) 0) (.gate 17)).testWait (.gate 17) = .denied ∧
    (255 < 256 ∧ x.count.toNat < 4 ∧ 3 ≤ x.count.toNat ∧ x.expect.toNat ≤ x.count.toNat) ∧
    (31 < 32 ∧ rd tBase.tile.io.pending 31 = none ∧ rd (tCounted 5).tile.io.pending 31 = some 5 ∧ rd (tCounted 5).tile.io.lphase 31 = 5 ∧
      rd (tCounted 6).tile.io.lphase 31 ≠ 5) := ⟨⟨_, rfl⟩, rfl, rfl, by decide +kernel, by decide +kernel⟩
/-- The sequence value 5 with the targets 5 and 6; a semaphore whose expect is not reached; a binding with DONESH 2 and ids 2 and 3. -/
theorem witness_WaitTests_gates :
    let y := tShadow .opened false true
    let s := tGate y 0
    let b := tBound 1 1 1
    let e := rd (tBase.onTile fun t => { t with sems := wr t.sems 0 ⟨0, 1⟩ }).tile.sems 0
    s.shadow (0x500000011 % 2 ^ 21) (massifOf s.cur) = some y ∧ (y.rightsOf s.tile.place.ctx).2 = true ∧ y.state ≠ .revoked ∧
    ((y.seq.toNat : ℤ) - 5) % 2 ^ 32 < 2 ^ 31 ∧ 2 ^ 31 ≤ ((y.seq.toNat : ℤ) - 6) % 2 ^ 32 ∧ tBase.shadow 17 0 = none ∧
    ((tShadow .opened true false).rightsOf 0).2 = false ∧ e.count.toNat < e.expect.toNat ∧ tBase.binding tBase.tile 4 = none ∧
    b.binding b.tile 4 = some (tBinding 1) ∧ (((tBinding 1).donesh.toNat : ℤ) - 2) % 2 ^ 64 < 2 ^ 63 ∧ 2 ^ 63 ≤ (((tBinding 1).donesh.toNat : ℤ) - 3) % 2 ^ 64 ∧
    tBase.cycle + tBase.unit < 4000 := by decide +kernel

theorem witness_LaunchChecks : firstBad [(true, 3), (false, 4), (false, 5)] = some 4 ∧ firstBad [(true, 3)] = none := by decide
/-- Memory that holds an image, its fields given as (offset, width, value) over those of `tImage`. -/
def tFile (m : Memory) (a : Nat) (l : List (Nat × Nat × Nat)) : Memory :=
  ((tImage.map fun (e : Nat × Nat) => (e.1, (if e.1 = 8 ∨ e.1 = 24 then 2 else if e.1 = 0 then 8 else 4), e.2)) ++ l).foldl
    (fun m (e : Nat × Nat × Nat) => m.writeNat (a + e.1) e.2.1 e.2.2) m
/-- Page 0 is mapped to 0x10000; page 1 is with the source of a migration and page 2 is nowhere. The image stands at the offset given. -/
def tPaged (o : Nat) (l : List (Nat × Nat × Nat)) : State := { tTables [] 0x1000F with dev := tFile ((tTables [] 0x1000F).dev.writeNat 0x8008 8 0x1001E) (0x10000 + o) l }
/-- An image that is read or whose reading is held or faults, in its header, in the rest and in its arguments. -/
theorem witness_LaunchChecks_reads :
    let header := fun (s : State) (a : Nat) => s.readGva 0 0 a 4 128 []
    let s := tPaged 0 []
    let far := fun (n : Nat) => { tTables [] 0x1000F with dev := tFile ((tTables [] 0x1000F).dev.writeNat 0x8008 8 n) 0x10F80 [] }
    let rest := fun (s : State) (a : Nat) (h : List Byte) => s.readGva 0 0 (a + 128) (fieldOf h 0x68 4 / 64 + 2) (fieldOf h 0x68 4 - 128) h
    let read := fun (s : State) (a : Nat) => ((header s a).value.map fun h => ((header s a).ending, firstBad (headerChecks h), (rest ((header s a).state s) a h).ending))
    0x20 % 64 ≠ 0 ∧ (header s 0x1000).ending = 2 ∧ (header s 0x2000).ending = 1 ∧ read s 0 = some (0, none, 0) ∧
      read (far 0x1001E) 0xF80 = some (0, none, 2) ∧ read (far 0) 0xF80 = some (0, none, 1) ∧ read s 64 = some (0, some 0, 0) ∧
      ∀ e ∈ [(0, 0), (0x1000, 2), (0x2000, 1)], (((rest s 0 (s.dev.bytes 0x10000 128)).state s).readGva 0 0 (e.1 % 2 ^ 57) (8 / 64 + 2) 8 []).ending = e.2 := by
  decide +kernel
/-- What the checks of an image come to: the first check that fails, 9 for none. -/
def tStage (s : State) (n : Nat) (l : Launch) (bs h img args : List Byte) : Nat :=
  let f := fun (o k : Nat) => fieldOf h o k
  let code := (img.drop (f 0x20 4)).take (f 0x24 4)
  let bound := (List.range (f 0x1E 1)).map fun i => fieldOf args (8 * (f 0x1A 2 + i)) 8 % 256
  let relocs := (List.range (f 0x1C 2)).map fun i => f 0x60 4 + 16 * i
  let out := fun (o : Nat) => decide (relocValue args (relocAt img o) < (relocRange (relocAt img o).kind).1 ∨ (relocRange (relocAt img o).kind).2 < relocValue args (relocAt img o))
  if (firstBad ((relocs.flatMap fun o => relocChecks img code (f 0x34 4) (f 0x1A 2) o) ++
      (List.range (f 0x18 2)).flatMap fun i => taskChecks img (f 0x24 4) bound (f 0x50 4 + 80 * i))).isSome then 0
  else if (firstBad ((List.range (f 0x1E 1)).flatMap fun i => s.bindChecks l.ctx args (f 0x1A 2) (f 0x1E 1) i)).isSome then 1
  else if s.launchDup l n then 2
  else if (firstBad (launchPacketChecks bs)).isSome then 3
  else if (f 0x0A 2).testBit 0 ∧ s.ctxHvpriv l.ctx = false then 4
  else if (f 0x0C 4 = 0 ∨ 12000 < f 0x0C 4) ∧ s.effNopre (s.ctxPath l.ctx) = false then 5
  else if relocs.any out then 6
  else 9
/-- A task at 4, a binding of kind 0, a sequence number that is taken, a packet of zeros, PRIV, ITERMAX 0, and a relocation of 2^32 in KMASK. -/
theorem witness_LaunchChecks_image :
    let l := { tLaunch with state := .check, image := 0x40000, preds := [], kernel := none, group := none }
    let reloc := [(0x1A, 2, 1), (0x1C, 2, 1), (0x68, 4, 0x120), (0x60, 4, 0xF0), (0x64, 4, 0x100), (0xF4, 1, 2), (0xF5, 1, 6)]
    let args := fun (v : Nat) => natBytes v 8
    ∀ e ∈ [(([] : List (Nat × Nat × Nat)), 1, [], 9), ([(0xA0, 4, 4)], 1, [], 0), ([(0x1E, 1, 1)], 1, args 0, 1), ([], 0, [], 2), ([(10, 2, 1)], 1, [], 4), ([(12, 4, 0)], 1, [], 5),
        (reloc, 1, args (2 ^ 33), 6), (reloc, 1, args 5, 9)],
      let s := { tLaunched .check [] [] with launches := [(0, { l with kseq := 1 + e.2.1 }), (1, l)] }
      let img := (tFile .empty 0 e.1).bytes 0 0x120
      tStage s 1 l (tPacket (tLaunchPacket 0)).bytes (img.take 128) img e.2.2.1 = e.2.2.2 ∧ tStage s 1 l [] (img.take 128) img e.2.2.1 = min e.2.2.2 3 := by
  decide +kernel
/-- One candidate: it is placed, or passed over for want of a partition; no candidate. -/
theorem witness_LaunchChecks_placement :
    let c : Cand := { isGroup := false, num := 1, level := 0, ctx := 0, part := 0, seq := 0, passes := 0 }
    let elig := fun (s : State) (level : Nat) => s.candidates.filter fun c => c.level == level && !([] : List (Bool × Nat)).contains (c.isGroup, c.num) && !heldBack s.candidates c
    let place := fun (s : State) => ((s.addCredit c.ctx (s.effTiles (s.ctxPath c.ctx))).placeCand c []).isSome
    elig tCand 0 = [c] ∧ elig tCand 1 = [] ∧ elig (tPackets .running []) 0 = [] ∧ tCand.candidates = [c] ∧ c.level ≤ 7 ∧ place tCand = true ∧
      place { tCand with partitions := [] } = false ∧ (tPackets .running []).candidates = [] ∧ (find tCand.partitions 0).isSome = true ∧
      (tCand.findPlace 0 [] (tKernel (tTask none [])) 1 1).isSome = true ∧ tCand.findPlace 0 [] (tKernel (tTask none [])) 1000000 1000 = none := by decide +kernel
end Sys2Proof.Machine
end

section
/-! Proofs about byte memories: what a canonical list lists, what a written value reads back as, and the statement they settle
(spec/00_scope.md R3). -/

namespace Sys2Proof.Machine

/-- The addresses of a canonical list rise strictly. -/
theorem cellsWf_pairwise {d : Nat → Byte} {l : List Host.Cell} (h : cellsWf d l = true) :
    l.Pairwise fun x y => x.1 < y.1 := by
  induction l with
  | nil => exact .nil
  | cons x r ih =>
    obtain ⟨-, hlt, hr⟩ := cellsWf_cons.mp h
    exact .cons hlt (ih hr)

/-- A canonical list lists exactly the bytes that read other than an unlisted address does. -/
theorem mem_iff_read_of_cellsWf {d : Nat → Byte} {l : List Host.Cell} (h : cellsWf d l = true) {a : Nat} {b : Byte} :
    (a, b) ∈ l ↔ b ≠ d a ∧ (find l a).getD (d a) = b := by
  induction l with
  | nil => simpa [find] using fun hb : b ≠ d a => hb.symm
  | cons x r ih =>
    obtain ⟨k, c⟩ := x
    obtain ⟨hc, hlt, hr⟩ := cellsWf_cons.mp h
    by_cases hk : k = a
    · subst hk
      have hnot : (k, b) ∉ r := fun hb => Nat.lt_irrefl k (hlt _ hb)
      simp only [find, List.mem_cons, Prod.mk.injEq, true_and, hnot, or_false, if_true, Option.getD_some]
      exact ⟨fun hb => ⟨hb ▸ hc, hb.symm⟩, fun hb => hb.2.symm⟩
    · simpa [find, hk, Ne.symm hk] using ih hr

/-- Canonical lists with the same default that read alike are equal: both are strictly sorted and list the same cells. -/
theorem eq_of_cellsWf_of_read_eq {d : Nat → Byte} {l r : List Host.Cell} (hl : cellsWf d l = true) (hr : cellsWf d r = true)
    (h : ∀ a, (find l a).getD (d a) = (find r a).getD (d a)) : l = r := by
  have : Std.Asymm fun x y : Host.Cell => x.1 < y.1 := ⟨fun _ _ => Nat.lt_asymm⟩
  refine (cellsWf_pairwise hl).eq_of_mem_iff (cellsWf_pairwise hr) fun ⟨a, b⟩ => ?_
  rw [mem_iff_read_of_cellsWf hl, mem_iff_read_of_cellsWf hr, h]

/-- Canonical memories with the same unlisted bytes that read alike are the same data. -/
theorem Memory.eq_of_read_eq {m k : Memory} (hm : m.wf = true) (hk : k.wf = true) (he : m.epoch = k.epoch)
    (h : ∀ a, m.read a = k.read a) : m = k := by
  obtain ⟨e, l⟩ := m
  obtain ⟨f, r⟩ := k
  obtain rfl : e = f := he
  exact congrArg (Memory.mk e) (eq_of_cellsWf_of_read_eq hm hk h)

/-- Writing a value writes its low byte, then the rest of it one address higher. -/
theorem Memory.writeNat_succ (m : Memory) (a n w : Nat) :
    m.writeNat a (n + 1) w = (m.write a (BitVec.ofNat 8 w)).writeNat (a + 1) n (w / 256) := rfl

/-- A value is its low byte and 256 times the value one address higher. -/
theorem Memory.nat_succ (m : Memory) (a n : Nat) : m.nat a (n + 1) = (m.read a).toNat + 256 * m.nat (a + 1) n := rfl

/-- The lowest byte of a written value stands at the lowest address. -/
theorem Memory.read_writeNat_low {m : Memory} (h : m.wf = true) (a n w : Nat) :
    (m.writeNat a (n + 1) w).read a = BitVec.ofNat 8 w := by
  rw [writeNat_succ, read_writeNat_other _ _ _ _ (.inl (Nat.lt_succ_self a)), read_write_same h]

/-- A written value reads back, modulo what its bytes hold. -/
theorem Memory.nat_writeNat {m : Memory} (h : m.wf = true) (a n w : Nat) : (m.writeNat a n w).nat a n = w % 256 ^ n := by
  induction n generalizing m a w with
  | zero => rw [Nat.pow_zero, Nat.mod_one]; rfl
  | succ n ih =>
    calc (m.writeNat a (n + 1) w).nat a (n + 1)
        = w % 256 + 256 * (m.writeNat a (n + 1) w).nat (a + 1) n := by
          rw [nat_succ, read_writeNat_low h, BitVec.toNat_ofNat]
      _ = w % 256 + 256 * (w / 256 % 256 ^ n) := by rw [writeNat_succ, ih (write_wf h _ _)]
      _ = w % 256 ^ (n + 1) := by rw [pow_succ', Nat.mod_mul]

/-- Settles O5: reading back by induction on the number of bytes, and equal memories because a canonical list is the sorted list of
the bytes that read other than unlisted ones do. -/
theorem littleEndian : Obligations.LittleEndian := by
  refine ⟨fun m a n w hm => ⟨Memory.nat_writeNat hm a n w, fun hn => ?_, fun k hk => m.read_writeNat_other a n w hk⟩,
    fun m k => Memory.eq_of_read_eq⟩
  obtain ⟨n, rfl⟩ := Nat.exists_eq_succ_of_ne_zero hn.ne'
  rw [Memory.read_writeNat_low hm, BitVec.toNat_ofNat]

end Sys2Proof.Machine
end

section
/-! Association lists, and what an event comes to once the object that it names is one of the module's. -/

namespace Sys2Proof.Machine

variable {α β : Type}

/-- What is set is found. -/
@[simp] theorem find_put_same (l : List (Nat × α)) (k : Nat) (x : α) : find (put l k x) k = some x := by
  induction l with
  | nil => simp [put, find]
  | cons e r ih =>
    obtain ⟨a, y⟩ := e
    rw [put]
    split
    · next h => rw [find, if_neg (by omega), ih]
    · split <;> simp [find]

/-- Setting a key leaves every other. -/
theorem find_put_other {j k : Nat} (h : j ≠ k) (l : List (Nat × α)) (x : α) : find (put l k x) j = find l j := by
  induction l with
  | nil => simp [put, find, h.symm]
  | cons e r ih =>
    obtain ⟨a, y⟩ := e
    rw [put]
    split
    · rw [find, find, ih]
    · split
      · next ha => simp [find, ha, h.symm]
      · rw [find, if_neg h.symm]

theorem find_put (l : List (Nat × α)) (j k : Nat) (x : α) : find (put l k x) j = if j = k then some x else find l j := by
  split
  · next h => rw [h, find_put_same]
  · next h => exact find_put_other h l x

/-- The later of two values of a key stays. -/
@[simp] theorem put_put (l : List (Nat × α)) (k : Nat) (x y : α) : put (put l k x) k y = put l k y := by
  induction l with
  | nil => simp [put]
  | cons e r ih =>
    obtain ⟨a, z⟩ := e
    by_cases h : a < k
    · simp [put, h, ih]
    · by_cases ha : a = k <;> simp [put, h, ha]

/-- A map that keeps every key changes the value that is found. -/
theorem find_map {f : Nat × α → Nat × β} (h : ∀ e, (f e).1 = e.1) (l : List (Nat × α)) (k : Nat) :
    find (l.map f) k = (find l k).map fun x => (f (k, x)).2 := by
  induction l with
  | nil => rfl
  | cons e r ih =>
    obtain ⟨a, x⟩ := e
    rw [List.map_cons, find, find, ih, h]
    split
    · next h => subst h; rfl
    · rfl

/-- One value set under every key of a list. -/
theorem find_foldl_put (ks : List Nat) (l : List (Nat × α)) (j : Nat) (x : α) :
    find (ks.foldl (fun k i => put k i x) l) j = if j ∈ ks then some x else find l j := by
  induction ks generalizing l with
  | nil => simp
  | cons k r ih =>
    rw [List.foldl_cons, ih, find_put]
    by_cases hr : j ∈ r <;> by_cases hk : j = k <;> simp [hr, hk]

/-- A number in range names an object. -/
theorem State.need_of_lt (s : State) {n bound : Nat} (h : n < bound) (k : State) : s.need n bound k = .next k := if_pos h

/-- What the host sends comes in while the CXL port carries accesses. -/
theorem State.needHost_of_lt (s : State) {n bound : Nat} (h : n < bound) (k : State) :
    s.needHost n bound k = .next (if s.hostPort then k else s) := if_pos h

theorem next_ite (p : Prop) [Decidable p] (s t : State) : (Host.Outcome.next (if p then s else t) : Out) = if p then .next s else .next t :=
  apply_ite _ p s t

/-- A command that may execute and is still at work leaves what it has done. -/
theorem State.command_later {s u : State} {k qn : Nat} {q : Queue} {p : Packet} {sel : List Byte → Bool} {run : State → Packet → Cmd}
    (h : s.accepts k qn q p) (hs : sel p.bytes = true) (hr : run s p = .later u) : s.command k sel run = .next u := by
  obtain ⟨ha, hb, hc, hm, hz, hn⟩ := h
  simp [State.command, State.need_of_lt _ ha, hb, hc, hs, hm, hz, hn, hr]

/-- A command that may execute and is done completes with its status. -/
theorem State.command_done {s u : State} {k qn code detail : Nat} {q : Queue} {p : Packet} {sel : List Byte → Bool} {run : State → Packet → Cmd}
    (h : s.accepts k qn q p) (hs : sel p.bytes = true) (hr : run s p = .done u code detail) :
    s.command k sel run = .next (u.finishCommand qn p code detail) := by
  obtain ⟨ha, hb, hc, hm, hz, hn⟩ := h
  simp [State.command, State.need_of_lt _ ha, hb, hc, hs, hm, hz, hn, hr]

end Sys2Proof.Machine
end

section
/-! Links: their records, SLOT_SET and the frame boundary, commands and training, what is on a link, replays and the cycle count
(spec/16_link.md R362-R371; spec/01_stoub_module.md R24). -/

namespace Sys2Proof.Machine

/-! ### The record of a link -/

@[simp] theorem State.onLink_link (s : State) (l : Nat) (f : Link → Link) : (s.onLink l f).link_ l = f (s.link_ l) := by
  simp [State.onLink, State.link_]
@[simp] theorem State.onLink_onLink (s : State) (l : Nat) (f g : Link → Link) : (s.onLink l f).onLink l g = s.onLink l fun x => g (f x) := by
  rw [State.onLink, State.onLink_link]; simp [State.onLink]
@[simp] theorem State.onLink_args (s : State) (l : Nat) (f : Link → Link) : (s.onLink l f).args = s.args := rfl
@[simp] theorem State.onLink_cycle (s : State) (l : Nat) (f : Link → Link) : (s.onLink l f).cycle = s.cycle := rfl
@[simp] theorem State.onLink_globals (s : State) (l : Nat) (f : Link → Link) : (s.onLink l f).globals = s.globals := rfl
@[simp] theorem State.onLink_queues (s : State) (l : Nat) (f : Link → Link) : (s.onLink l f).queues = s.queues := rfl

theorem Link.up_iff (l : Link) : l.up = true ↔ l.state = .active ∨ l.state = .degraded := by simp [Link.up]

theorem Link.trains_iff (l : Link) : ¬ (l.state ≠ .training ∧ l.state ≠ .retraining) ↔ l.state = .training ∨ l.state = .retraining := by
  rw [not_and_or, not_not, not_not]

theorem isEdge_iff (l : Nat) : isEdge l = true ↔ l < 356 := decide_eq_true_iff
theorem isRidge_iff (l : Nat) : isRidge l = true ↔ 356 ≤ l ∧ l < 420 := by simp [isRidge]

theorem State.onPacket_cycle (s : State) (qn i : Nat) (f : Packet → Packet) : (s.onPacket qn i f).cycle = s.cycle := by
  unfold State.onPacket State.onQueue; split <;> rfl

/-! ### SLOT_SET and the frame boundary (R369) -/

/-- The fields of a SLOT_SET packet that are in range. -/
structure SlotSetLegal (bs : List Byte) : Prop where
  flags : fieldOf bs 18 1 = 0
  link : fieldOf bs 20 2 < 420
  dir : fieldOf bs 22 1 < (if fieldOf bs 20 2 < 356 then 2 else 1)
  low : zeroIn bs 23 24 = true
  owner : fieldOf bs 32 1 < 96 ∨ fieldOf bs 32 1 = 0xFF
  high : zeroIn bs 33 63 = true

/-- The change that a SLOT_SET packet of queue `qn` asks for. -/
def SlotChange.ofPacket (qn : Nat) (p : Packet) : SlotChange :=
  { dir := fieldOf p.bytes 22 1, mask := fieldOf p.bytes 24 8, owner := fieldOf p.bytes 32 1, queue := qn, index := p.index }

section
variable {s : State} {qn : Nat} {q : Queue} {p : Packet}

theorem execSlotSet_accepted (h : s.accepts 0x27 qn q p) (hn : p.next = 1) : execSlotSet s = .next s :=
  State.command_later h rfl (if_pos hn)

theorem execSlotSet_taken (h : s.accepts 0x27 qn q p) (hl : SlotSetLegal p.bytes) (hn : p.next ≠ 1) (ho : fieldOf p.bytes 32 1 ≠ 0xFF) {i : Nat}
    (ht : (s.link_ (fieldOf p.bytes 20 2)).taken (fieldOf p.bytes 22 1) (fieldOf p.bytes 24 8) (fieldOf p.bytes 32 1) = some i) :
    execSlotSet s = .next (s.finishCommand qn p 1 i) := by
  obtain ⟨hf, hk, hd, hlo, hw, hhi⟩ := hl
  have hw := hw.resolve_right ho
  exact State.command_done h rfl (by simp [hn, cmdFlags, hf, hk, cxlPort, hd, isEdge, hlo, hw, hhi, ho, ht, stBadstate])

theorem execSlotSet_waits (h : s.accepts 0x27 qn q p) (hl : SlotSetLegal p.bytes) (hn : p.next ≠ 1)
    (ht : fieldOf p.bytes 32 1 = 0xFF ∨
      (s.link_ (fieldOf p.bytes 20 2)).taken (fieldOf p.bytes 22 1) (fieldOf p.bytes 24 8) (fieldOf p.bytes 32 1) = none) :
    let n := fieldOf p.bytes 20 2
    execSlotSet s = .next (((s.onLink n fun y => { y with changes := y.changes ++ [SlotChange.ofPacket s.args.a p] }).onPacket s.args.a p.index
      fun p => { p with next := 1 }).at_ ((s.cycle / frameOf n + 1) * frameOf n) .slotFrameBoundary { Args.none with a := n }) := by
  obtain ⟨hf, hk, hd, hlo, hw, hhi⟩ := hl
  have free : (if fieldOf p.bytes 32 1 = 0xFF then none else
      (s.link_ (fieldOf p.bytes 20 2)).taken (fieldOf p.bytes 22 1) (fieldOf p.bytes 24 8) (fieldOf p.bytes 32 1)) = none := by
    obtain ho | ht := ht
    · exact if_pos ho
    · rw [ht, ite_self]
  have hw : 96 ≤ fieldOf p.bytes 32 1 → fieldOf p.bytes 32 1 = 0xFF := fun h => hw.resolve_left (Nat.not_lt.2 h)
  exact State.command_later h rfl
    (by simpa [hn, cmdFlags, hf, hk, cxlPort, hd, isEdge, hlo, hhi, free, State.onPacket_cycle, SlotChange.ofPacket] using hw)

end

section
variable {s : State} (hl : s.args.a < 420)
include hl

theorem execSlotFrameBoundary_idle (h : (s.link_ s.args.a).changes = []) : execSlotFrameBoundary s = .next s := by
  simp [execSlotFrameBoundary, State.need, cxlPort, hl, h]

theorem execSlotFrameBoundary_early (h : (s.link_ s.args.a).changes ≠ []) (hc : s.cycle % frameOf s.args.a ≠ 0) :
    execSlotFrameBoundary s = .next (s.at_ ((s.cycle / frameOf s.args.a + 1) * frameOf s.args.a) .slotFrameBoundary
      { Args.none with a := s.args.a }) := by
  simp [execSlotFrameBoundary, State.need, cxlPort, hl, h, hc]

/-- The slots of the link after a change of one direction. -/
def Link.changed (y : Link) (c : SlotChange) : Link :=
  { y with
    changes := []
    slots0 := if c.dir = 0 then c.slots y.slots0 else y.slots0
    slots1 := if c.dir = 0 then y.slots1 else c.slots y.slots1 }

theorem execSlotFrameBoundary_due {c : SlotChange} {q : Queue} {p : Packet} (h : (s.link_ s.args.a).changes = [c])
    (hc : s.cycle % frameOf s.args.a = 0) (hq : find s.queues c.queue = some q) (hp : q.packets.find? (fun p => p.index == c.index) = some p) :
    execSlotFrameBoundary s = .next ((s.onLink s.args.a fun y => y.changed c).finishCommand c.queue p 0 0) := by
  by_cases hd : c.dir = 0 <;> simp [execSlotFrameBoundary, State.need, cxlPort, hl, h, hc, hq, hp, Link.changed, hd, stOk]

end

/-! ### Link states (R363) -/

theorem State.needLstat_shut {s : State} {l : Nat} (hl : l < linkCount) (h : l ≠ 420) (hp : s.hostPort = false) (k : State) :
    s.needLstat l k = .next s := by
  simp [State.needLstat, State.need, cxlPort, hl, h, hp]
theorem State.needLstat_open {s : State} {l : Nat} (hl : l < linkCount) (h : l = 420 ∨ s.hostPort = true) (k : State) :
    s.needLstat l k = .next k := by
  simp [State.needLstat, State.need, cxlPort, hl, h]

section
variable {s : State} (hl : s.args.a < linkCount)
include hl

theorem execLinkCmdRetrain_eq (h : s.args.a = 420 ∨ s.hostPort = true) : execLinkCmdRetrain s =
    if (s.link_ s.args.a).state = .active ∨ (s.link_ s.args.a).state = .degraded then .next (s.train s.args.a .retraining) else .next s := by
  rw [execLinkCmdRetrain, State.needLstat_open hl h]; simp only [Link.up_iff, next_ite]

theorem execLinkCmdDown_eq (h : s.args.a = 420 ∨ s.hostPort = true) :
    let k := s.link_ s.args.a
    execLinkCmdDown s = if 356 ≤ s.args.a ∧ (k.state = .active ∨ k.state = .degraded ∨ k.state = .retraining) then
      .next ((s.onLink s.args.a fun y => { y with state := .down }).loseOn s.args.a) else .next s := by
  rw [execLinkCmdDown, State.needLstat_open hl h]
  simp only [isEdge, Link.up_iff, Bool.not_eq_true', decide_eq_false_iff_not, not_lt, or_assoc, next_ite]

theorem execLinkCmdTrain_eq (h : s.args.a = 420 ∨ s.hostPort = true) :
    let k := s.link_ s.args.a
    execLinkCmdTrain s =
      if 356 ≤ s.args.a ∧ (420 ≤ s.args.a ∨ (s.facing s.args.a).isSome = true) ∧ (k.state = .down ∨ k.state = .failed) then
      .next (s.train s.args.a .training) else .next s := by
  rw [execLinkCmdTrain, State.needLstat_open hl h, next_ite]
  refine if_congr ?_ rfl rfl
  by_cases hr : 356 ≤ s.args.a <;> simp [isEdge, isRidge, hr]

theorem execPeerTraining_eq : execPeerTraining s =
    if 356 ≤ s.args.a ∧ s.args.a < 420 ∧ (s.facing s.args.a).isSome = true ∧ (s.link_ s.args.a).state = .down then
      .next (s.train s.args.a .training) else .next s := by
  rw [execPeerTraining, State.need_of_lt _ hl]; simp only [isRidge_iff, and_assoc, next_ite]

/-- A link that trains or retrains reaches a width that it has: it is up, and what waited for it goes on. -/
theorem execTrainingResult_up (h : (s.link_ s.args.a).state = .training ∨ (s.link_ s.args.a).state = .retraining)
    (hw : s.args.b = 16 ∨ s.args.b = 8 ∨ s.args.b = 4) : execTrainingResult s = .next ((s.onLink s.args.a fun y =>
      { y with state := if s.args.b = 16 then .active else .degraded
               width := s.args.b, rate := if s.args.a = 420 then (if s.args.c = 2 then 2 else 1) else 0
               attempts := 0, again := 0 }).unstall s.args.a) := by
  rw [execTrainingResult, State.need_of_lt _ hl, if_neg ((Link.trains_iff _).2 h), if_pos hw]; rfl

/-- The first and the second attempt that fail are counted. -/
theorem execTrainingResult_retry (h : (s.link_ s.args.a).state = .training ∨ (s.link_ s.args.a).state = .retraining)
    (hw : s.args.b ∉ [16, 8, 4]) (ha : (s.link_ s.args.a).attempts < 2) :
    execTrainingResult s = .next (s.onLink s.args.a fun y => { y with attempts := y.attempts + 1 }) := by
  rw [execTrainingResult, State.need_of_lt _ hl, if_neg ((Link.trains_iff _).2 h), if_neg (by simpa using hw), if_pos (by omega)]

/-- The third fails the link. -/
theorem execTrainingResult_fails (h : (s.link_ s.args.a).state = .training ∨ (s.link_ s.args.a).state = .retraining)
    (hw : s.args.b ∉ [16, 8, 4]) (ha : 2 ≤ (s.link_ s.args.a).attempts) :
    let u := s.onLink s.args.a fun y => { y with state := .failed, attempts := 0 }
    execTrainingResult s = .next (if s.args.a < 356 then u.edgeFails s.args.a else u.loseOn s.args.a) := by
  intro u
  rw [execTrainingResult, State.need_of_lt _ hl, if_neg ((Link.trains_iff _).2 h), if_neg (by simpa using hw), if_neg (by omega)]
  simp only [isEdge_iff, u]

end

/-! ### What is on a link (R364, R365, R368) -/

theorem Transit.on_iff (y : Transit) (now l : Nat) : y.on now l = true ↔
    ∃ h c, y.last = some (h, c) ∧ h.link = l ∧ (y.stalled = true ∨ now < c + y.late + (if l < 356 then 12 else 96)) := by
  unfold Transit.on
  cases y.last with
  | none => simp
  | some e =>
    obtain ⟨h, c⟩ := e
    simp [crossing, isEdge, and_assoc]

/-- A link that carries nothing loses nothing and holds nothing up. -/
theorem State.loseOn_idle {s : State} {l : Nat} (h : ∀ y ∈ s.transit, y.on s.cycle l = false) : s.loseOn l = s := by
  have : s.transit.filter (·.on s.cycle l) = [] := List.filter_eq_nil_iff.2 fun y hy => by simp [h y hy]
  rw [State.loseOn, this]; rfl
theorem State.unstall_idle {s : State} {l : Nat} (h : ∀ y ∈ s.transit, y.on s.cycle l = false) : s.unstall l = s := by
  have none_due : (s.transit.filter fun x => (x.stalled && x.on s.cycle l) && x.hops.isEmpty) = [] :=
    List.filter_eq_nil_iff.2 fun y hy => by simp [h y hy]
  simp only [State.unstall, none_due, List.map_nil, List.foldl_nil]
  rw [List.map_congr_left (g := id) fun y hy => by simp [h y hy], List.map_id]

theorem State.unstall_one {s : State} {l c : Nat} {y : Transit} {h : Hop} (ht : s.transit = [y]) (hy : y.last = some (h, c)) (hl : h.link = l)
    (hs : y.stalled = true) (hh : y.hops ≠ []) :
    s.unstall l = { s with transit := [{ y with stalled := false, ready := s.cycle + h.after, last := some (h, s.cycle), late := 0 }] } := by
  have on : y.on s.cycle l = true := (y.on_iff _ _).2 ⟨h, c, hy, hl, .inl hs⟩
  simp [State.unstall, ht, on, hs, hh, hy]

theorem State.loseOn_edge {s : State} {l : Nat} {y : Transit} (ht : s.transit = [y]) (hy : y.on s.cycle l = true) (hl : l < 356)
    (hs : isLocal y.op.src = true) : s.loseOn l = ({ s with transit := [] } : State).remoteDone y.op.src y.op.id := by
  simp [State.loseOn, ht, hy, isEdge, hl, hs, State.dropTransit]

/-! ### Replays (R364) and the cycle count (R24, R370) -/

theorem execCrcRetry_eq {s : State} (hl : s.args.a < linkCount) (h : (s.link_ s.args.a).state = .active ∨ (s.link_ s.args.a).state = .degraded) :
    let x := s.args
    let n := if x.flag then (s.link_ x.a).again + 1 else 1
    execCrcRetry s = .next { (s.onLink x.a fun y => { y with
      retries := satInc y.retries 1
      again := if n < 8 then n else 0
      busy0 := if x.b = 0 then max y.busy0 s.cycle + x.c else y.busy0
      busy1 := if x.b = 0 then y.busy1 else max y.busy1 s.cycle + x.c
      state := if n < 8 then y.state else .retraining }) with
      transit := s.transit.map fun y => y.replayed s.cycle x.a x.b x.d x.c (decide (8 ≤ n)) } := by
  intro x n
  rw [execCrcRetry, State.need_of_lt _ hl, (Link.up_iff _).2 h]; rfl

theorem Transit.replayed_eq (y : Transit) (now l dir start c : Nat) (stall : Bool) : y.replayed now l dir start c stall =
    if y.on now l = true ∧ (y.last.any fun e => e.1.dir == dir && decide (start ≤ e.2)) = true then
      { y with ready := y.ready + c, late := y.late + c, stalled := y.stalled || stall } else y := by
  unfold Transit.replayed
  cases y.last <;> simp

section
variable {s : State} (h1 : s.args.a < 420)
include h1

theorem execSyncFlit_match (hc : s.args.c + 96 = s.cycle) : execSyncFlit s = .next s := by
  have hl : s.args.a < linkCount := Nat.lt_succ_of_lt h1
  simp [execSyncFlit, State.need_of_lt _ hl, hc]

theorem execSyncFlit_mismatch (h0 : 356 ≤ s.args.a) (h : (s.link_ s.args.a).state = .active ∨ (s.link_ s.args.a).state = .degraded)
    (hc : s.args.c + 96 ≠ s.cycle) :
    let u := s.train s.args.a .retraining
    execSyncFlit s = .next { u with globals := { s.globals with
      missync := true, clkfree := s.globals.clkfree || (List.range 64).all fun p => !(u.link_ (356 + p)).up } } := by
  have hr : isRidge s.args.a = true := (isRidge_iff _).2 ⟨h0, h1⟩
  have hl : s.args.a < linkCount := Nat.lt_succ_of_lt h1
  simp [execSyncFlit, State.need_of_lt _ hl, hc, hr, (Link.up_iff _).2 h, State.train]

end

theorem execDomainBringUp_late {s : State} (h : s.args.a < 432) (hg : s.groups ≠ []) : execDomainBringUp s = .next s := by
  simp [execDomainBringUp, State.need_of_lt _ h, hg]

theorem execDomainBringUp_joins {s : State} (h : s.args.a < 432) (hg : s.groups = []) :
    let present := (s.args.a :: (s.args.parts.map (·.1)).filter (· < 432)).eraseDups
    let u := { s with globals := { s.globals with modIdx := s.args.a, present := present, missync := false, clkfree := false } }
    execDomainBringUp s = .next (if present.all fun m => decide (s.args.a ≤ m) then u.downUnfaced else (u.loadCount s.args.c).downUnfaced) := by
  simp only [execDomainBringUp, State.need_of_lt _ h, hg, Globals.source, List.isEmpty_nil, Bool.not_true, Bool.false_eq_true, if_false,
    apply_ite State.downUnfaced]

/-- A frame boundary moves to the first one after the count; a timed release keeps its cycle. -/
theorem State.loadCount_boundary {s : State} {e : Nat × Instr × Args} (c : Nat) (he : e ∈ s.timers) (hi : e.2.1 = .slotFrameBoundary) :
    ((c / frameOf e.2.2.a + 1) * frameOf e.2.2.a, e.2) ∈ (s.loadCount c).timers :=
  List.mem_map.2 ⟨e, he, by simp [hi]⟩
theorem State.loadCount_release {s : State} {e : Nat × Instr × Args} (c : Nat) (he : e ∈ s.timers) (hi : e.2.1 = .timedRelease) :
    e ∈ (s.loadCount c).timers :=
  List.mem_map.2 ⟨e, he, by simp [hi]⟩

theorem State.downUnfaced_link (s : State) (l : Nat) : s.downUnfaced.link_ l =
    if 356 ≤ l ∧ l < 420 ∧ s.facing l = none then { s.link_ l with state := .down, width := 0, rate := 0 } else s.link_ l := by
  have idle : (isRidge l && (s.facing l).isNone) = true ↔ 356 ≤ l ∧ l < 420 ∧ s.facing l = none := by simp [isRidge, and_assoc]
  have found : find s.downUnfaced.links l = (find s.links l).map fun y =>
      if (isRidge l && (s.facing l).isNone) = true then { y with state := .down, width := 0, rate := 0 } else y := by
    refine find_map ?_ s.links l
    exact fun _ => rfl
  simp only [State.link_, found, idle]
  cases find s.links l with
  | none => by_cases h : 356 ≤ l ∧ l < 420 ∧ s.facing l = none <;> simp [h, Link.zero]
  | some y => rfl

end Sys2Proof.Machine
end

section
/-! Power: requests, the end of each transition, and the counts of a tile in a new clock (spec/17_faults_determinism_power.md R379, R380). -/

namespace Sys2Proof.Machine

/-! ### Requests -/

/-- A transition of massif `m` to `p` that ends at cycle `c` has begun. -/
def State.changing (s : State) (m : Nat) (p : PowerState) (c : Nat) : State :=
  (s.setPower m { s.powerOf m with pending := some (p, c), lastErr := 0 }).at_ c .powerTransitionDone { Args.none with a := m }

/-- The error code of a massif. -/
def State.powerErr (s : State) (m e : Nat) : State := s.setPower m { s.powerOf m with lastErr := e }

section
variable {s : State} (hm : s.args.a < 96)
include hm

theorem State.powerRequest_shut (hp : s.hostPort = false) (k : Nat → Power → State) : s.powerRequest k = .next s := by
  simp [State.powerRequest, State.needHost_of_lt _ hm, hp]

theorem State.powerRequest_busy (hp : s.hostPort = true) (hb : (s.powerOf s.args.a).pending.isSome = true) (k : Nat → Power → State) :
    s.powerRequest k = .next (s.powerErr s.args.a 1) := by
  simp [State.powerRequest, State.needHost_of_lt _ hm, hp, hb, State.powerErr, pwrBusy]

theorem State.powerRequest_free (hp : s.hostPort = true) (hb : (s.powerOf s.args.a).pending = none) (k : Nat → Power → State) :
    s.powerRequest k = .next (k s.args.a (s.powerOf s.args.a)) := by
  simp [State.powerRequest, State.needHost_of_lt _ hm, hp, hb]

theorem State.clockRequest_shut (hp : s.hostPort = false) (new : PowerState) : s.clockRequest new = .next s := by
  rw [State.clockRequest, State.powerRequest_shut hm hp]
theorem State.clockRequest_busy (hp : s.hostPort = true) (hb : (s.powerOf s.args.a).pending.isSome = true) (new : PowerState) :
    s.clockRequest new = .next (s.powerErr s.args.a 1) := by
  rw [State.clockRequest, State.powerRequest_busy hm hp hb]

/-- No request comes in while the CXL port carries nothing, and each is ignored while a transition is in progress. -/
theorem powerRequests_shut (hp : s.hostPort = false) : execPowerReqFull s = .next s ∧ execPowerReqReduced s = .next s ∧
    execPowerReqRetention s = .next s ∧ execPowerReqOff s = .next s :=
  ⟨State.clockRequest_shut hm hp _, State.clockRequest_shut hm hp _, State.powerRequest_shut hm hp _, State.powerRequest_shut hm hp _⟩
theorem powerRequests_busy (hp : s.hostPort = true) (hb : (s.powerOf s.args.a).pending.isSome = true) :
    execPowerReqFull s = .next (s.powerErr s.args.a 1) ∧ execPowerReqReduced s = .next (s.powerErr s.args.a 1) ∧
    execPowerReqRetention s = .next (s.powerErr s.args.a 1) ∧ execPowerReqOff s = .next (s.powerErr s.args.a 1) :=
  ⟨State.clockRequest_busy hm hp hb _, State.clockRequest_busy hm hp hb _, State.powerRequest_busy hm hp hb _, State.powerRequest_busy hm hp hb _⟩

section
variable (hp : s.hostPort = true) (hb : (s.powerOf s.args.a).pending = none)
include hp hb

theorem State.clockRequest_of_retention (h : (s.powerOf s.args.a).state = .retention) (new : PowerState) :
    s.clockRequest new = .next (s.changing s.args.a new (s.cycle + 1536)) := by
  rw [State.clockRequest, State.powerRequest_free hm hp hb, h]; rfl

theorem State.clockRequest_of_off (h : (s.powerOf s.args.a).state = .off) (new : PowerState) :
    s.clockRequest new = .next (s.changing s.args.a new (s.cycle + 16384)) := by
  rw [State.clockRequest, State.powerRequest_free hm hp hb, h]; rfl

/-- A request for the clock that the massif has. -/
theorem State.clockRequest_same {new : PowerState} (h : new = .full ∨ new = .reduced) (hn : (s.powerOf s.args.a).state = new) :
    s.clockRequest new = .next (s.powerErr s.args.a 2) := by
  rw [State.clockRequest, State.powerRequest_free hm hp hb]
  obtain rfl | rfl := h <;> simp [hn, State.powerErr, pwrBadstate]

/-- A request for the other clock, which no lockstep group may be on. -/
theorem State.clockRequest_other {new : PowerState} (h : (s.powerOf s.args.a).state = .full ∨ (s.powerOf s.args.a).state = .reduced)
    (hn : (s.powerOf s.args.a).state ≠ new) : s.clockRequest new =
      if s.massifLockstep s.args.a then .next (s.powerErr s.args.a 3) else .next (s.changing s.args.a new ((s.cycle / 4096 + 1) * 4096)) := by
  rw [State.clockRequest, State.powerRequest_free hm hp hb, ← next_ite]
  obtain h | h := h <;> simp [h, h ▸ hn, State.powerErr, pwrLockstep] <;> rfl

theorem execPowerReqRetention_refused (h : (s.powerOf s.args.a).state = .retention ∨ (s.powerOf s.args.a).state = .off) :
    execPowerReqRetention s = .next (s.powerErr s.args.a 2) := by
  rw [execPowerReqRetention, State.powerRequest_free hm hp hb, if_pos h]; rfl

theorem execPowerReqRetention_on (h : (s.powerOf s.args.a).state = .full ∨ (s.powerOf s.args.a).state = .reduced) : execPowerReqRetention s =
    if s.massifIdle s.args.a then .next (s.changing s.args.a .retention (s.cycle + 1536)) else .next (s.powerErr s.args.a 1) := by
  rw [execPowerReqRetention, State.powerRequest_free hm hp hb, if_neg (by obtain h | h := h <;> simp [h]), next_ite]; rfl

theorem execPowerReqOff_refused (h : (s.powerOf s.args.a).state = .off) : execPowerReqOff s = .next (s.powerErr s.args.a 2) := by
  rw [execPowerReqOff, State.powerRequest_free hm hp hb, if_pos h]; rfl

theorem execPowerReqOff_busy (h : (s.powerOf s.args.a).state ≠ .off) (hi : s.massifIdle s.args.a = false) :
    execPowerReqOff s = .next (s.powerErr s.args.a 1) := by
  rw [execPowerReqOff, State.powerRequest_free hm hp hb, if_neg h, if_neg (by simp [hi])]; rfl

/-- The cycle of OFF is a free value within 1,536 cycles. -/
theorem execPowerReqOff_idle (h : (s.powerOf s.args.a).state ≠ .off) (hi : s.massifIdle s.args.a = true) :
    ∃ c, s.cycle ≤ c ∧ c ≤ s.cycle + 1536 ∧
      execPowerReqOff s = .next (({ s with freeCtr := s.freeCtr + 1 } : State).changing s.args.a .off c) := by
  refine ⟨s.cycle + Config.freeWord s.freeCtr % 1537, by omega, by omega, ?_⟩
  rw [execPowerReqOff, State.powerRequest_free hm hp hb, if_neg h, if_pos hi]; rfl

end
end

/-! ### Tiles of a massif -/

theorem State.getTile_setTile (s : State) (t k : Nat) (x : Tile) : (s.setTile t x).getTile k = if k = t then x else s.getTile k := by
  unfold State.setTile State.getTile
  by_cases ht : t = s.cur <;> by_cases hk : k = t
  · simp [ht, hk]
  · have : k ≠ s.cur := fun e => hk (e.trans ht.symm)
    simp [ht, this]
  · simp [ht, hk]
  · simp [ht, hk, find_put]

/-- A change at each tile of a list. -/
def State.onTiles (s : State) (ts : List Nat) (f : Tile → Tile) : State := ts.foldl (fun s t => s.setTile t (f (s.getTile t))) s

theorem State.onMassif_eq (s : State) (m : Nat) (f : Tile → Tile) :
    s.onMassif m f = s.onTiles ((List.range (384 * 660)).filter fun t => massifOf t == m && s.tileExists t) f := rfl

/-- A list without repetitions changes each of its tiles once, and no other. -/
theorem State.getTile_onTiles (f : Tile → Tile) (k : Nat) {ts : List Nat} (h : ts.Nodup) (s : State) :
    (s.onTiles ts f).getTile k = if k ∈ ts then f (s.getTile k) else s.getTile k := by
  induction ts generalizing s with
  | nil => rfl
  | cons t r ih =>
    obtain ⟨ht, hr⟩ := List.nodup_cons.1 h
    refine (ih hr _).trans ?_
    rw [State.getTile_setTile]
    by_cases hk : k = t
    · subst hk; simp [ht]
    · simp [hk]

/-- What a change of one tile keeps, a change of several keeps. -/
theorem State.onTiles_keeps {γ : Type} {g : State → γ} (h : ∀ s t x, g (State.setTile s t x) = g s) (ts : List Nat) (f : Tile → Tile)
    (s : State) : g (s.onTiles ts f) = g s := by
  induction ts generalizing s with
  | nil => rfl
  | cons t r ih => exact (ih _).trans (h s t _)

theorem State.setTile_power (s : State) (t : Nat) (x : Tile) : (s.setTile t x).power = s.power := by unfold State.setTile; split <;> rfl
theorem State.setTile_parkedAtEdge (s : State) (t : Nat) (x : Tile) : (s.setTile t x).parkedAtEdge = s.parkedAtEdge := by
  unfold State.setTile; split <;> rfl
theorem State.onMassif_power (s : State) (m : Nat) (f : Tile → Tile) : (s.onMassif m f).power = s.power := by
  rw [State.onMassif_eq, State.onTiles_keeps State.setTile_power]
theorem State.onMassif_parkedAtEdge (s : State) (m : Nat) (f : Tile → Tile) : (s.onMassif m f).parkedAtEdge = s.parkedAtEdge := by
  rw [State.onMassif_eq, State.onTiles_keeps State.setTile_parkedAtEdge]

theorem State.getTile_onMassif {s : State} {m t : Nat} (hm : massifOf t = m) (ht : s.tileExists t = true) (f : Tile → Tile) :
    (s.onMassif m f).getTile t = f (s.getTile t) := by
  have lt : t < 384 * 660 := by
    have : t / 384 < 660 := by simpa using (Bool.and_eq_true_iff.1 ht).1
    omega
  rw [State.onMassif_eq, State.getTile_onTiles f t (List.nodup_range.filter _),
    if_pos (List.mem_filter.2 ⟨List.mem_range.2 lt, by simp [hm, ht]⟩)]

/-! ### The end of a transition -/

theorem State.releaseEdge_idle {s : State} (h : s.parkedAtEdge = []) (m : Nat) : s.releaseEdge m = s := by
  rw [State.releaseEdge, h]
  exact congrArg (fun l => { s with parkedAtEdge := l }) h.symm

/-- A massif without marked words has nothing to recode or to correct. -/
theorem State.hurt_nil {s : State} {m : Nat} (h : ∀ e ∈ s.tilesAt m, e.2.ecc = []) : ((s.tilesAt m).filter fun e => !e.2.ecc.isEmpty) = [] :=
  List.filter_eq_nil_iff.2 fun e he => by simp [h e he]
theorem State.recode_clean {s : State} {m : Nat} (h : ∀ e ∈ s.tilesAt m, e.2.ecc = []) : s.recode m [] = s := by
  simp only [State.recode, State.hurt_nil h]; rfl
theorem State.uncode_clean {s : State} {m : Nat} (h : ∀ e ∈ s.tilesAt m, e.2.ecc = []) (n : Nat) :
    s.uncode m n [] = s.onMerr m fun e => { e with retce := satInc e.retce n } := by
  simp only [State.uncode, State.hurt_nil h, List.map_nil, List.sum_nil, Nat.zero_add]; rfl

/-- A massif in a new clock, `a` and `b` cycles to a tile cycle before and after. -/
def State.reclock (s : State) (m a b : Nat) : State :=
  { s with
    tile := if massifOf s.cur = m then s.tile.rescale s.cycle a b else s.tile
    tiles := s.tiles.map fun e => if massifOf e.1 = m then (e.1, e.2.rescale s.cycle a b) else e
    timers := s.timers.map fun e => if e.2.1 == .gangStopSignal && massifOf e.2.2.a == m then (rescaled s.cycle a b e.1, e.2) else e }

/-- A tile without power: its memories are undefined, each by a number of its own (R379). -/
def Tile.unpowered (n : Nat) (t : Tile) : Tile :=
  { t with spad := { epoch := some n, cells := [] }, imem := { epoch := some (n + 1), cells := [] }, ecc := [], iecc := [] }
def State.unpower (s : State) (m : Nat) : State := { s.onMassif m (Tile.unpowered s.nextNum) with nextNum := s.nextNum + 2 }

/-- A tile whose power has come back: zeros with valid check bits. -/
def Tile.cleared (t : Tile) : Tile := { t with spad := .empty, imem := .empty, ecc := [], iecc := [], stale := [], loopBuf := [], bufFor := none }

/-- Massif `m` in state `p`, with no transition in progress. -/
def State.settled (s : State) (m : Nat) (p : PowerState) : State := s.setPower m { s.powerOf m with state := p, pending := none }

/-- What the tiles of massif `m` undergo between two power states, before an OFF takes their memories. -/
def State.passing (s : State) (m : Nat) : PowerState → PowerState → State
  | .retention, .off => s
  | .retention, _ => s.uncode m s.args.c s.args.parts
  | .off, _ => s.onMassif m Tile.cleared
  | _, .retention => s.recode m s.args.parts
  | .full, .reduced => s.reclock m 1 2
  | .full, _ => s
  | .reduced, .reduced => s
  | .reduced, _ => s.reclock m 2 1

section
variable {s : State} {p : PowerState} {d : Nat} (hm : s.args.a < 96) (hp : (s.powerOf s.args.a).pending = some (p, d))
include hm hp

theorem execPowerTransitionDone_early (hd : s.cycle < d) : execPowerTransitionDone s = .next s := by
  simp [execPowerTransitionDone, State.need_of_lt _ hm, hp, hd]

variable (hd : d ≤ s.cycle)
include hd

/-- A transition that is due: the massif is in its new state, its tiles go with it, and what waited at its edges goes in unless it retains. -/
theorem execPowerTransitionDone_due :
    let m := s.args.a
    let u := (s.settled m p).passing m (s.powerOf m).state p
    let v := if p = .off then u.unpower m else u
    execPowerTransitionDone s = .next (if p = .retention then v else v.releaseEdge m).summit := by
  have now : ¬ s.cycle < d := Nat.not_lt.2 hd
  simp only [execPowerTransitionDone, State.need_of_lt _ hm, hp, now, if_false]
  generalize (s.powerOf s.args.a).state = old
  cases old with
  | full => cases p <;> rfl
  | reduced => cases p <;> rfl
  | retention => cases p <;> rfl
  | off => cases p <;> rfl

end

/-! ### What each transition leaves -/

theorem State.settled_powerOf (s : State) (m : Nat) (p : PowerState) :
    (s.settled m p).powerOf m = { s.powerOf m with state := p, pending := none } := by
  rw [State.settled, State.setPower, State.powerOf, find_put_same]; rfl

theorem State.powerOf_congr {s u : State} (h : u.power = s.power) (m : Nat) : u.powerOf m = s.powerOf m := by rw [State.powerOf, h, State.powerOf]
theorem State.tileExists_congr {s u : State} (h : u.globals = s.globals) (t : Nat) : u.tileExists t = s.tileExists t := by
  rw [State.tileExists, h, State.tileExists]
theorem State.settled_args (s : State) (m : Nat) (p : PowerState) : (s.settled m p).args = s.args := rfl
theorem State.summit_powerOf (s : State) (m : Nat) : s.summit.powerOf m = s.powerOf m := rfl
theorem State.summit_getTile (s : State) (t : Nat) : s.summit.getTile t = s.getTile t := rfl

theorem State.unpower_powerOf (s : State) (m k : Nat) : (s.unpower m).powerOf k = s.powerOf k :=
  State.powerOf_congr (by simp only [State.unpower, State.onMassif_power]) k
theorem State.unpower_parkedAtEdge (s : State) (m : Nat) : (s.unpower m).parkedAtEdge = s.parkedAtEdge := by
  simp only [State.unpower, State.onMassif_parkedAtEdge]

theorem State.getTile_numbered (s : State) (n t : Nat) : ({ s with nextNum := n } : State).getTile t = s.getTile t := rfl
theorem State.getTile_unpower {s : State} {m t : Nat} (hm : massifOf t = m) (ht : s.tileExists t = true) :
    (s.unpower m).getTile t = (s.getTile t).unpowered s.nextNum := by
  rw [State.unpower, State.getTile_numbered, State.getTile_onMassif hm ht]

/-- On the way to OFF the tiles' counts may return to the full clock; nothing else changes. -/
theorem State.passing_off (s : State) (m : Nat) {old : PowerState} (h : old ≠ .off) :
    s.passing m old .off = s ∨ s.passing m old .off = s.reclock m 2 1 := by
  cases old with
  | full => exact .inl rfl
  | reduced => exact .inr rfl
  | retention => exact .inl rfl
  | off => exact absurd rfl h

section
variable {s : State} {p : PowerState} {d : Nat} (hm : s.args.a < 96) (hp : (s.powerOf s.args.a).pending = some (p, d)) (hd : d ≤ s.cycle)
include hm hp hd

theorem execPowerTransitionDone_retains (hw : (s.powerOf s.args.a).state = .full) (he : p = .retention) (hx : s.args.parts = [])
    (hc : ∀ e ∈ s.tilesAt s.args.a, e.2.ecc = []) : execPowerTransitionDone s = .next (s.settled s.args.a .retention).summit := by
  subst he
  have clean : (s.settled s.args.a .retention).recode s.args.a [] = s.settled s.args.a .retention := State.recode_clean hc
  simp only [execPowerTransitionDone_due hm hp hd, hw, State.passing, State.settled_args, hx, clean, reduceCtorEq, if_true, if_false]

theorem execPowerTransitionDone_wakes (hw : (s.powerOf s.args.a).state = .retention) (he : p = .full) (hx : s.args.parts = [])
    (hk : s.parkedAtEdge = []) (hc : ∀ e ∈ s.tilesAt s.args.a, e.2.ecc = []) :
    execPowerTransitionDone s = .next ((s.settled s.args.a .full).onMerr s.args.a fun e => { e with retce := satInc e.retce s.args.c }).summit := by
  subst he
  have clean := State.uncode_clean (s := s.settled s.args.a .full) hc s.args.c
  have idle := State.releaseEdge_idle (s := (s.settled s.args.a .full).onMerr s.args.a fun e => { e with retce := satInc e.retce s.args.c }) hk
  simp only [execPowerTransitionDone_due hm hp hd, hw, State.passing, State.settled_args, hx, clean, idle, reduceCtorEq, if_false]

theorem execPowerTransitionDone_reclocks (hk : s.parkedAtEdge = []) {a b : Nat}
    (h : ((s.powerOf s.args.a).state = .full ∧ p = .reduced ∧ a = 1 ∧ b = 2) ∨
      ((s.powerOf s.args.a).state = .reduced ∧ p = .full ∧ a = 2 ∧ b = 1)) :
    execPowerTransitionDone s = .next ((s.settled s.args.a p).reclock s.args.a a b).summit := by
  have idle := fun u : PowerState => State.releaseEdge_idle (s := (s.settled s.args.a u).reclock s.args.a a b) hk
  obtain ⟨hw, rfl, rfl, rfl⟩ | ⟨hw, rfl, rfl, rfl⟩ := h
  · simp only [execPowerTransitionDone_due hm hp hd, hw, State.passing, idle, reduceCtorEq, if_false]
  · simp only [execPowerTransitionDone_due hm hp hd, hw, State.passing, idle, reduceCtorEq, if_false]

/-- OFF takes the memories of every tile of the massif. -/
theorem execPowerTransitionDone_off (hw : (s.powerOf s.args.a).state ≠ .off) (he : p = .off) (hk : s.parkedAtEdge = []) :
    ∃ u, execPowerTransitionDone s = .next u ∧ u.powerOf s.args.a = { s.powerOf s.args.a with state := .off, pending := none } ∧
      ∀ t, massifOf t = s.args.a → s.tileExists t = true → ∃ x : Tile, u.getTile t = x.unpowered s.nextNum := by
  subst he
  obtain ⟨v, hv, hedge, hpower, hnum, hglob⟩ : ∃ v, (s.settled s.args.a .off).passing s.args.a (s.powerOf s.args.a).state .off = v ∧
      v.parkedAtEdge = s.parkedAtEdge ∧ v.power = (s.settled s.args.a .off).power ∧ v.nextNum = s.nextNum ∧ v.globals = s.globals := by
    obtain e | e := (s.settled s.args.a .off).passing_off s.args.a hw <;> exact ⟨_, e, rfl, rfl, rfl, rfl⟩
  have idle : (v.unpower s.args.a).releaseEdge s.args.a = v.unpower s.args.a :=
    State.releaseEdge_idle (by rw [State.unpower_parkedAtEdge, hedge, hk]) _
  have done : execPowerTransitionDone s = .next (v.unpower s.args.a).summit := by
    simp only [execPowerTransitionDone_due hm hp hd, hv, idle, reduceCtorEq, if_true, if_false]
  refine ⟨_, done, ?_, fun t ht hx => ⟨v.getTile t, ?_⟩⟩
  · rw [State.summit_powerOf, State.unpower_powerOf, State.powerOf_congr hpower, State.settled_powerOf]
  · rw [State.summit_getTile, State.getTile_unpower ht (by rw [State.tileExists_congr hglob]; exact hx), hnum]

/-- Power that comes back finds the memories of every tile zero; its registers stay. -/
theorem execPowerTransitionDone_on (hw : (s.powerOf s.args.a).state = .off) (he : p = .full ∨ p = .reduced) (hk : s.parkedAtEdge = []) :
    ∃ u, execPowerTransitionDone s = .next u ∧ u.powerOf s.args.a = { s.powerOf s.args.a with state := p, pending := none } ∧
      ∀ t, massifOf t = s.args.a → s.tileExists t = true → u.getTile t = (s.getTile t).cleared := by
  have idle : ((s.settled s.args.a p).onMassif s.args.a Tile.cleared).releaseEdge s.args.a = (s.settled s.args.a p).onMassif s.args.a Tile.cleared :=
    State.releaseEdge_idle (by rw [State.onMassif_parkedAtEdge]; exact hk) _
  have done : execPowerTransitionDone s = .next ((s.settled s.args.a p).onMassif s.args.a Tile.cleared).summit := by
    obtain rfl | rfl := he <;> simp only [execPowerTransitionDone_due hm hp hd, hw, State.passing, idle, reduceCtorEq, if_false]
  refine ⟨_, done, ?_, fun t ht hx => ?_⟩
  · rw [State.summit_powerOf, State.powerOf_congr (State.onMassif_power _ _ _), State.settled_powerOf]
  · rw [State.summit_getTile, State.getTile_onMassif (s := s.settled s.args.a p) ht hx]; rfl

end

/-! ### Cycles in a new clock -/

theorem rescaled_slower (now c : Nat) : rescaled now 1 2 (now + c) = now + 2 * c := by unfold rescaled; split <;> omega
theorem rescaled_faster (now c : Nat) : rescaled now 2 1 (now + 2 * c) = now + c := by unfold rescaled; split <;> omega
theorem rescaled_past {now c : Nat} (h : c ≤ now) (a b : Nat) : rescaled now a b c = c := if_pos h
theorem rescaledPast_slower {now c : Nat} (h : 2 * c ≤ now) : rescaledPast now 1 2 (now - c) = now - 2 * c := by unfold rescaledPast; omega
theorem rescaledPast_faster {now c : Nat} (h : 2 * c ≤ now) : rescaledPast now 2 1 (now - 2 * c) = now - c := by unfold rescaledPast; omega

end Sys2Proof.Machine
end

section
/-! Bring-up: the reset of the module and what each stage comes to (spec/17_faults_determinism_power.md R384; spec/16_link.md R370). -/

namespace Sys2Proof.Machine

/-! ### Entering a stage -/

@[simp] theorem State.bootStage_globals (s : State) (n : Nat) : (s.bootStage n).globals = { s.globals with boot := n } := by
  unfold State.bootStage; dsimp only; split <;> rfl
@[simp] theorem State.bootStage_link (s : State) (n l : Nat) : (s.bootStage n).link_ l = s.link_ l := by
  unfold State.bootStage; dsimp only; split <;> rfl

/-- A stage before READY ends in a later cycle. -/
theorem State.bootStage_timers (s : State) {n : Nat} (h : n < 7) :
    ∃ c, s.cycle < c ∧ (s.bootStage n).timers = s.timers ++ [(c, .moduleReset, { s.args with a := n })] := by
  refine ⟨s.cycle + 1 + Config.freeWord s.freeCtr % 2 ^ 32, by omega, ?_⟩
  rw [State.bootStage, if_pos h]; rfl

/-- The reset keeps the module's place, its repairs and its lineage counters, and bring-up enters its first stage. -/
theorem execModuleReset_starts {s : State} (h : s.args.a = 0) :
    execModuleReset s = .next ({ s.moduleReset with args := { s.args with b := 0 } }.bootStage 1) := congrArg _ (if_pos h)

theorem State.moduleReset_bootstat (s : State) (x : Args) : ({ s.moduleReset with args := x }.bootStage 1).globals.bootstat = 1 := by
  simp [Globals.bootstat, State.moduleReset, Globals.reset]

theorem execModuleReset_stray {s : State} (h : s.args.a ≠ 0) (hb : 7 ≤ s.args.a ∨ s.globals.boot ≠ s.args.a) :
    execModuleReset s = .next s := by
  rw [execModuleReset, if_neg h, if_neg (by omega)]

theorem execModuleReset_stage {s : State} {k : Nat} (hk : k ≠ 0 ∧ k < 7) (hb : s.globals.boot = k) (ha : s.args.a = k) :
    execModuleReset s = .next (s.bootWork k) := by
  subst ha; rw [execModuleReset, if_neg hk.1, if_pos ⟨hk.2, hb⟩]

/-- A stage whose work touches neither the contexts nor the tiles ends with its outcome in the global registers. -/
theorem execModuleReset_ends {s u : State} {k : Nat} {P : Globals → Prop} (hw : s.bootWork k = u) (hk : k ≠ 0 ∧ k < 7)
    (hc : u.contexts = s.contexts) (ht : u.tiles = s.tiles) (hP : P u.globals) (hb : s.globals.boot = k) (ha : s.args.a = k) :
    ∃ u, execModuleReset s = .next u ∧ P u.globals ∧ u.contexts = s.contexts ∧ u.tiles = s.tiles :=
  ⟨u, hw ▸ execModuleReset_stage hk hb ha, hP, hc, ht⟩

/-! ### Training (R363) -/

theorem State.startTraining_link (s : State) (which : Nat → Bool) {l : Nat} (hl : l < 421) : (s.startTraining which).link_ l =
    if which l = true ∧ (s.link_ l).state = .down then { Link.zero with state := .training } else s.link_ l := by
  have mem : l ∈ (List.range linkCount).filter (fun l => which l && (s.link_ l).state == .down) ↔
      which l = true ∧ (s.link_ l).state = .down := by
    simp [show l < linkCount from hl]
  have found : find (s.startTraining which).links l =
      if which l = true ∧ (s.link_ l).state = .down then some { Link.zero with state := .training } else find s.links l := by
    rw [State.startTraining, find_foldl_put, if_congr mem rfl rfl]
  rw [State.link_, found, apply_ite (Option.getD · Link.zero)]; rfl

theorem State.endTraining_links (s : State) (outcome : List (Nat × Nat × Nat)) (boot : BootResult) {l : Nat} {y : Link}
    (h : find s.links l = some y) :
    find (s.endTraining outcome boot).links l = some (
      if y.state ≠ .training then y
      else if boot = .linkFail l then trained l 0 0
      else ((outcome.find? fun e => e.1 == l).map fun e => trained l e.2.1 e.2.2).getD (trained l 16 1)) := by
  rw [State.endTraining, find_map (by intro e; dsimp only; split <;> rfl), h]
  by_cases hy : y.state = .training
  · simp only [hy, Option.map_some, ne_eq, not_true_eq_false, if_true, if_false]
    cases outcome.find? fun e => e.1 == l <;> rfl
  · simp [hy]

/-- An edge has failed to train. -/
def State.edgeFailed (s : State) (l : Nat) : Prop := l < 356 ∧ ∃ y, (l, y) ∈ s.links ∧ y.state = .failed

theorem State.edgeFailed_of_badEdge {s : State} {l : Nat} (h : s.badEdge = some l) : s.edgeFailed l := by
  obtain ⟨⟨k, y⟩, he, rfl⟩ := Option.map_eq_some_iff.1 h
  have failed := List.find?_some he
  obtain ⟨hl, hs⟩ := Bool.and_eq_true_iff.1 failed
  exact ⟨(isEdge_iff k).1 hl, y, List.mem_of_find?_eq_some he, beq_iff_eq.1 hs⟩

theorem State.badEdge_eq_none {s : State} : s.badEdge = none ↔ ∀ l, ¬ s.edgeFailed l := by
  simp only [State.badEdge, Option.map_eq_none_iff, List.find?_eq_none, State.edgeFailed, Prod.forall, Bool.and_eq_true, isEdge_iff, beq_iff_eq]
  exact ⟨fun h l ⟨hl, y, hy, hs⟩ => h l y hy ⟨hl, hs⟩, fun h l y hy ⟨hl, hs⟩ => h l ⟨hl, y, hy, hs⟩⟩

/-! ### The ends of the stages -/

section
variable {s : State}

theorem State.bootWork_one_fails (h : s.args.boot = .fwFail) : s.bootWork 1 = s.bootFails 0x80 0 := if_pos h
theorem State.bootWork_one (h : s.args.boot ≠ .fwFail) : s.bootWork 1 =
    ({ s with globals := { s.globals with measured := firmwareOf s.globals.modIdx } }.startTraining fun l => !isRidge l).bootStage 2 := if_neg h

/-- Stage 2 trains the CXL port and the edges from its start. -/
theorem State.bootWork_one_link (h : s.args.boot ≠ .fwFail) {l : Nat} (hl : l < 421) : (s.bootWork 1).link_ l =
    if (l < 356 ∨ l = 420) ∧ (s.link_ l).state = .down then { Link.zero with state := .training } else s.link_ l := by
  have side : (!isRidge l) = true ↔ l < 356 ∨ l = 420 := by simp [isRidge]; omega
  rw [State.bootWork_one h, State.bootStage_link, State.startTraining_link _ _ hl]
  exact if_congr (and_congr_left' side) rfl rfl

theorem State.bootWork_two_ridges (h : s.args.b = 1) : s.bootWork 2 = (s.endTraining s.args.parts s.args.boot).bootStage 3 := if_pos h
theorem State.bootWork_two_fails (h : s.args.b ≠ 1) {l : Nat} (hl : (s.endTraining s.args.parts s.args.boot).badEdge = some l) :
    s.bootWork 2 = (s.endTraining s.args.parts s.args.boot).bootFails 0x81 l := by
  simp only [State.bootWork, if_neg h, hl]
/-- The second part of stage 2 begins in state `v`. -/
def State.bootTraining (s v : State) : State :=
  { v.startTraining (fun l => isRidge l && (v.facing l).isSome) with args := { s.args with b := 1 } }
theorem State.bootWork_two (h : s.args.b ≠ 1) (hl : (s.endTraining s.args.parts s.args.boot).badEdge = none) :
    let v := s.endTraining s.args.parts s.args.boot
    s.bootWork 2 = (s.bootTraining v).bootStage 2 := by
  simp only [State.bootWork, if_neg h, hl, State.bootTraining]

/-- Its second part trains the ridge ports that face a module. -/
theorem State.bootWork_two_link (h : s.args.b ≠ 1) (hn : (s.endTraining s.args.parts s.args.boot).badEdge = none) {l : Nat} (hl : l < 421) :
    let v := s.endTraining s.args.parts s.args.boot
    (s.bootWork 2).link_ l = if 356 ≤ l ∧ l < 420 ∧ (s.facing l).isSome = true ∧ (v.link_ l).state = .down then
      { Link.zero with state := .training } else v.link_ l := by
  intro v
  have side : (isRidge l && (v.facing l).isSome) = true ∧ (v.link_ l).state = .down ↔
      356 ≤ l ∧ l < 420 ∧ (s.facing l).isSome = true ∧ (v.link_ l).state = .down := by
    rw [show v.facing l = s.facing l from rfl]; simp [isRidge, and_assoc]
  rw [State.bootWork_two h hn, State.bootStage_link]
  exact (v.startTraining_link _ hl).trans (if_congr side rfl rfl)

theorem State.bootWork_two_timers (h : s.args.b ≠ 1) (hn : (s.endTraining s.args.parts s.args.boot).badEdge = none) :
    ∃ c, s.cycle < c ∧ (s.bootWork 2).timers = s.timers ++ [(c, .moduleReset, { s.args with a := 2, b := 1 })] := by
  obtain ⟨c, hc, ht⟩ := (s.bootTraining (s.endTraining s.args.parts s.args.boot)).bootStage_timers (n := 2) (by decide)
  exact ⟨c, hc, by rw [State.bootWork_two h hn, ht]; rfl⟩

theorem State.bootWork_three_fails {m : Nat} (h : s.globals.badMassif s.args.boot = some m) : s.bootWork 3 = s.bootFails 0x83 m := by
  simp only [State.bootWork, h]
theorem State.bootWork_three (h : s.globals.badMassif s.args.boot = none) : s.bootWork 3 = s.bootStage 4 := by
  simp only [State.bootWork, h]

theorem State.bootWork_four_fails {m : Nat} (h : s.args.boot = .selfTestFail m) : s.bootWork 4 = s.bootFails 0x82 m := by
  simp only [State.bootWork, h]
theorem State.bootWork_four (h : ∀ m, s.args.boot ≠ .selfTestFail m) : s.bootWork 4 = s.bootStage 5 := by
  simp only [State.bootWork]

end

theorem Globals.badMassif_repairFail (g : Globals) (m : Nat) : g.badMassif (.repairFail m) = some m := rfl

theorem Globals.badMassif_scan (g : Globals) {r : BootResult} (h : ∀ m, r ≠ .repairFail m) :
    g.badMassif r = (List.range 96).find? fun m => decide (2 < (g.rowsOut m).length) := by
  cases r with
  | repairFail m => exact absurd rfl (h m)
  | ready => rfl
  | fwFail => rfl
  | linkFail l => rfl
  | selfTestFail m => rfl

/-- The first massif with more than two rows mapped out. -/
theorem Globals.badMassif_first (g : Globals) {r : BootResult} (h : ∀ m, r ≠ .repairFail m) {k : Nat} (hk : k < 96)
    (hb : 2 < (g.rowsOut k).length) (hj : ∀ j < k, (g.rowsOut j).length ≤ 2) : g.badMassif r = some k := by
  rw [g.badMassif_scan h, List.find?_range_eq_some]
  exact ⟨decide_eq_true hb, List.mem_range.2 hk, fun j hlt => by simpa using hj j hlt⟩

theorem Globals.badMassif_none (g : Globals) {r : BootResult} (h : ∀ m, r ≠ .repairFail m) (hk : ∀ k < 96, (g.rowsOut k).length ≤ 2) :
    g.badMassif r = none := by
  rw [g.badMassif_scan h, List.find?_eq_none]
  exact fun k hm => by simpa using hk k (List.mem_range.1 hm)

/-! ### The join (R370, R384) -/

/-- Every massif FULL, and the memories of every tile zero. -/
def State.zeroed (s : State) : State :=
  { s with
    tile := s.tile.cleared
    tiles := s.tiles.map fun e => (e.1, e.2.cleared)
    power := s.power.map fun e => (e.1, { e.2 with state := .full, pending := none }) }

theorem State.joined_eq (s : State) (n : Nat) : s.joined n = if s.globals.source then s.zeroed else s.zeroed.loadCount (s.cycle + n) := rfl

theorem State.zeroed_getTile (s : State) (t : Nat) : s.zeroed.getTile t = (s.getTile t).cleared := by
  have found : (find (s.tiles.map fun e => (e.1, e.2.cleared)) t).getD .reset = ((find s.tiles t).getD .reset).cleared := by
    rw [find_map]
    · cases find s.tiles t <;> rfl
    · exact fun _ => rfl
  by_cases h : t = s.cur
  · simp [State.getTile, State.zeroed, h]
  · simpa [State.getTile, State.zeroed, h] using found

theorem State.zeroed_powerOf (s : State) (m : Nat) : (s.zeroed.powerOf m).state = .full ∧ (s.zeroed.powerOf m).pending = none := by
  have found : find s.zeroed.power m = (find s.power m).map fun p => { p with state := .full, pending := none } := by
    refine find_map ?_ s.power m
    exact fun _ => rfl
  rw [State.powerOf, found]
  cases find s.power m <;> exact ⟨rfl, rfl⟩

/-- A count leaves a massif without a transition as it is. -/
theorem State.loadCount_powerOf {s : State} {m : Nat} (c : Nat) (h : (s.powerOf m).pending = none) : (s.loadCount c).powerOf m = s.powerOf m := by
  unfold State.powerOf at h ⊢
  have found : find (s.loadCount c).power m = (find s.power m).map fun p => { p with pending := p.pending.map fun x =>
      (x.1, if p.clockChange then (c / 4096 + 1) * 4096 else x.2 + c - s.cycle) } := by
    refine find_map ?_ s.power m
    exact fun _ => rfl
  rw [found]
  cases hp : find s.power m with
  | none => rfl
  | some p => 
    rw [hp] at h
    obtain ⟨st, pd, er⟩ := p
    obtain rfl : pd = none := h
    rfl

section
variable (s : State) (n : Nat)

theorem State.joined_contexts : (s.joined n).contexts = s.contexts := by rw [State.joined_eq]; split <;> rfl
theorem State.joined_cycle : (s.joined n).cycle = if s.globals.source then s.cycle else s.cycle + n := by
  rw [State.joined_eq, apply_ite State.cycle]; rfl
theorem State.joined_getTile (t : Nat) : (s.joined n).getTile t = (s.getTile t).cleared := by
  rw [← State.zeroed_getTile, State.joined_eq]; split <;> rfl
theorem State.joined_powerOf (m : Nat) : ((s.joined n).powerOf m).state = .full ∧ ((s.joined n).powerOf m).pending = none := by
  rw [State.joined_eq]
  split
  · exact s.zeroed_powerOf m
  · rw [State.loadCount_powerOf _ (s.zeroed_powerOf m).2]; exact s.zeroed_powerOf m

end

/-- The last stage joins the domain's count and leaves the module READY. -/
theorem State.bootWork_six (s : State) : s.bootWork 6 = (s.joined s.args.c).bootStage 7 := rfl

end Sys2Proof.Machine
end

section
/-! The host: writes of registers and accesses to memory through the CXL port (spec/16_link.md R371, R372; spec/11_queue.md R289, R290). -/

namespace Sys2Proof.Machine

/-! ### Register writes -/

/-- The registers after the bytes of a write, without the commands of ICMD. -/
def State.bar0Writes (s : State) : State := (s.args.bytes.zipIdx).foldl (fun u e => u.bar0Write (s.args.a + e.2) e.1) s

theorem execRegisterWrite_shut {s : State} (h : s.args.a < 2 ^ 25) (hp : s.hostPort = false) : execRegisterWrite s = .next s := by
  rw [execRegisterWrite, State.need_of_lt _ h, hp]; rfl
theorem execRegisterWrite_open {s : State} (h : s.args.a < 2 ^ 25) (hp : s.hostPort = true) :
    execRegisterWrite s = .next (s.bar0Writes.refuseIcmd s.args.a s.args.bytes) := by
  rw [execRegisterWrite, State.need_of_lt _ h, hp]; rfl

/-- Bytes with their addresses from `a` on. -/
def bytesFrom (a : Nat) (bs : List Byte) : List (Nat × Byte) := bs.zipIdx.map fun e => (a + e.2, e.1)

/-- The bytes of a write that go to the ICMD of an interface. -/
def toIcmd (e : Nat × Byte) : Bool := decide (0x200000 ≤ e.1) && decide (e.1 < 0x240000) && decide (e.1 % 64 / 8 = 1)

theorem icmdValues_eq (a : Nat) (bs : List Byte) :
    let cells := (bytesFrom a bs).filter toIcmd
    icmdValues a bs = ((cells.map fun e => (e.1 - 0x200000) / 64).eraseDups).map fun n =>
      (n, (cells.filter fun e => (e.1 - 0x200000) / 64 == n).foldl (fun v e => v + e.2.toNat * 2 ^ (8 * (e.1 % 8))) 0) := rfl

theorem toIcmd_iff (e : Nat × Byte) : toIcmd e = true ↔ 0x200000 ≤ e.1 ∧ e.1 < 0x240000 ∧ e.1 % 64 / 8 = 1 := by simp [toIcmd, and_assoc]

theorem mem_bytesFrom {a : Nat} {bs : List Byte} {e : Nat × Byte} (h : e ∈ bytesFrom a bs) : a ≤ e.1 ∧ e.1 < a + bs.length := by
  obtain ⟨⟨b, i⟩, hi, rfl⟩ := List.mem_map.1 h
  have := List.snd_lt_of_mem_zipIdx hi
  dsimp only
  omega

theorem icmdValues_outside {a : Nat} {bs : List Byte} (h : a + bs.length ≤ 0x200000 ∨ 0x240000 ≤ a) : icmdValues a bs = [] := by
  have none_in : (bytesFrom a bs).filter toIcmd = [] := List.filter_eq_nil_iff.2 fun e he => by
    have := mem_bytesFrom he
    rw [toIcmd_iff]
    omega
  rw [icmdValues_eq, none_in]; rfl

/-- The value of bytes that are summed one by one from an aligned address on. -/
theorem foldl_bytes {a : Nat} (ha : a % 8 = 0) : ∀ (bs : List Byte) (i v : Nat), i + bs.length ≤ 8 →
    ((bs.zipIdx i).map fun e => (a + e.2, e.1)).foldl (fun v e => v + e.2.toNat * 2 ^ (8 * (e.1 % 8))) v = v + leNat bs * 2 ^ (8 * i)
  | [], i, v, _ => by simp [leNat]
  | b :: r, i, v, h => by
    rw [List.length_cons] at h
    have place : (a + i) % 8 = i := by omega
    rw [List.zipIdx_cons, List.map_cons, List.foldl_cons, foldl_bytes ha r (i + 1) _ (by omega), place, leNat, Nat.mul_succ, Nat.pow_add]
    ring

/-- A write of the whole ICMD of interface `k` is its one command. -/
theorem icmdValues_whole {k : Nat} {bs : List Byte} (hk : k < 4096) (hl : bs.length = 8) :
    icmdValues (0x200000 + 64 * k + 8) bs = [(k, leNat bs)] := by
  have icmd : ∀ e ∈ bytesFrom (0x200000 + 64 * k + 8) bs, toIcmd e = true ∧ (e.1 - 0x200000) / 64 = k := fun e he => by
    have := mem_bytesFrom he
    rw [toIcmd_iff]
    omega
  have all_in : (bytesFrom (0x200000 + 64 * k + 8) bs).filter toIcmd = bytesFrom (0x200000 + 64 * k + 8) bs :=
    List.filter_eq_self.2 fun e he => (icmd e he).1
  have numbers : ((bytesFrom (0x200000 + 64 * k + 8) bs).map fun e => (e.1 - 0x200000) / 64) = List.replicate 8 k :=
    List.eq_replicate_iff.2 ⟨by simp [bytesFrom, hl], fun n hn => by
      obtain ⟨e, he, rfl⟩ := List.mem_map.1 hn
      exact (icmd e he).2⟩
  have one_number : (List.replicate 8 k).eraseDups = [k] := by simp [List.replicate, List.eraseDups_cons]
  have all_of_k : ((bytesFrom (0x200000 + 64 * k + 8) bs).filter fun e => (e.1 - 0x200000) / 64 == k) = bytesFrom (0x200000 + 64 * k + 8) bs :=
    List.filter_eq_self.2 fun e he => beq_iff_eq.2 (icmd e he).2
  have value := foldl_bytes (a := 0x200000 + 64 * k + 8) (by omega) bs 0 0 (by omega)
  rw [icmdValues_eq, all_in, numbers, one_number, List.map_singleton, all_of_k]
  simpa [bytesFrom] using value

theorem State.refuseIcmd_outside (s : State) {a : Nat} {bs : List Byte} (h : a + bs.length ≤ 0x200000 ∨ 0x240000 ≤ a) :
    s.refuseIcmd a bs = s := by
  rw [State.refuseIcmd, icmdValues_outside h]; rfl
theorem State.refuseIcmd_unknown (s : State) {k : Nat} {bs : List Byte} (hk : k < 4096) (hl : bs.length = 8) (h : leNat bs ∉ [1, 2, 3]) :
    s.refuseIcmd (0x200000 + 64 * k + 8) bs = s.setInterface k { s.interface k with ires := 1 } := by
  have h : leNat bs ≠ 1 ∧ leNat bs ≠ 2 ∧ leNat bs ≠ 3 := by simpa using h
  simp [State.refuseIcmd, icmdValues_whole hk hl, h, resBadstate]
theorem State.refuseIcmd_command (s : State) {k : Nat} {bs : List Byte} (hk : k < 4096) (hl : bs.length = 8) (h : leNat bs ∈ [1, 2, 3]) :
    s.refuseIcmd (0x200000 + 64 * k + 8) bs = s := by
  have : ((leNat bs != 1 && leNat bs != 2) && leNat bs != 3) = false := by
    simp only [List.mem_cons, List.not_mem_nil, or_false] at h
    obtain h | h | h := h <;> simp [h]
  simp [State.refuseIcmd, icmdValues_whole hk hl, this]

/-! ### Memory accesses -/

section
variable {s : State}

/-- Outside the HDM range an address names the host's own memory. -/
theorem execHostCxlMemAccess_outside (h : s.args.a < s.globals.hdmBase ∨ 0x140000000000 ≤ s.args.a - s.globals.hdmBase) :
    execHostCxlMemAccess s = .next (if s.args.flag then { s with host := s.host.writeCells (cellsAt s.args.a s.args.bytes) }
      else { s with sent := s.sent ++ [.readData (s.host.bytes s.args.a s.args.c)] }) := by
  have : (decide (s.globals.hdmBase ≤ s.args.a) && decide (s.args.a - s.globals.hdmBase < 0x140000000000)) = false := by
    rw [Bool.and_eq_false_iff, decide_eq_false_iff_not, decide_eq_false_iff_not]; omega
  simp only [execHostCxlMemAccess, this, Bool.not_false, if_true]

variable (hp : s.hostPort = true) (ha : s.globals.hdmBase ≤ s.args.a) (hb : s.args.a - s.globals.hdmBase < 0x140000000000)
  (ho : ownDpa (s.args.a - s.globals.hdmBase) ≠ .bad)
include hp ha hb ho

theorem execHostCxlMemAccess_write (hf : s.args.flag = true) :
    execHostCxlMemAccess s = .next (s.dpaWrite (s.args.a - s.globals.hdmBase) s.args.bytes) := by
  simp only [execHostCxlMemAccess, ha, hb, hp, hf, decide_true, Bool.and_true, Bool.not_true, if_true, Bool.false_eq_true, if_false]

theorem execHostCxlMemAccess_read (hf : s.args.flag = false) :
    let r := s.hostEcc (s.args.a - s.globals.hdmBase) s.args.c
    execHostCxlMemAccess s = .next { r.1 with
      sent := r.1.sent ++ [if r.2 then .poison else .readData (r.1.dpaBytes (s.args.a - s.globals.hdmBase) s.args.c)] } := by
  simp only [execHostCxlMemAccess, ha, hb, hp, hf, decide_true, Bool.and_true, Bool.not_true, if_true, Bool.false_eq_true, if_false]

end

end Sys2Proof.Machine
end

section
/-! Links, power, bring-up and the host's accesses: the statement that they settle. -/

namespace Sys2Proof.Machine

/-- Settles O51: each event by the lemmas about its cases; what bring-up does at a stage is the work of that stage, and its outcome is read from
the global registers. -/
theorem linksAndPower : Obligations.LinksAndPower := by
  intro s
  refine ⟨?slotSet, ?idle, ?early, ?due, ?links, ?on, ?lost, ?unstall, ?edge, ?crc, ?sync, ?domain, ?count, ?unfaced, ?requests, ?transitions,
    ?clock, ?reset, ?stray, ?stages, ?shut, ?writes, ?outside, ?write, ?read⟩
  case slotSet =>
    intro qn q p h bs n dir mask owner hf hn hd hz ho hzz
    have legal : SlotSetLegal p.bytes := ⟨hf, hn, hd, hz, ho, hzz⟩
    exact ⟨execSlotSet_accepted h, fun i h1 hw ht => execSlotSet_taken h legal h1 hw ht, fun h1 ht => execSlotSet_waits h legal h1 ht⟩
  case idle => exact execSlotFrameBoundary_idle
  case early => exact execSlotFrameBoundary_early
  case due => exact fun c q p hl => execSlotFrameBoundary_due hl
  case links =>
    intro hl goes
    refine ⟨fun h hp => ?_, fun h => ⟨execLinkCmdRetrain_eq hl h, execLinkCmdDown_eq hl h, execLinkCmdTrain_eq hl h⟩, execPeerTraining_eq hl,
      fun h => ⟨execTrainingResult_up hl h, execTrainingResult_retry hl h, execTrainingResult_fails hl h⟩⟩
    exact ⟨State.needLstat_shut hl h hp _, State.needLstat_shut hl h hp _, State.needLstat_shut hl h hp _⟩
  case on => exact fun y => y.on_iff _ _
  case lost => exact fun h => ⟨State.loseOn_idle h, State.unstall_idle h⟩
  case unstall => exact fun y h c => State.unstall_one
  case edge => exact fun y => State.loseOn_edge
  case crc =>
    intro hl h
    have e := execCrcRetry_eq hl h
    simp only [Transit.replayed_eq] at e
    exact e
  case sync => exact fun h0 h1 h => ⟨execSyncFlit_match h1, execSyncFlit_mismatch h1 h0 h⟩
  case domain => exact fun h => ⟨execDomainBringUp_late h, execDomainBringUp_joins h⟩
  case count => exact fun c => ⟨rfl, fun e he => ⟨State.loadCount_boundary c he, State.loadCount_release c he⟩⟩
  case unfaced => exact s.downUnfaced_link _
  case requests =>
    intro hm err starts
    refine ⟨powerRequests_shut hm, powerRequests_busy hm, fun hp hb => ⟨fun h => ?_, fun h => ?_, fun h => ?_, fun h => ?_,
      execPowerReqRetention_on hm hp hb, execPowerReqOff_busy hm hp hb, execPowerReqOff_idle hm hp hb⟩⟩
    · exact ⟨State.clockRequest_of_off hm hp hb h _, State.clockRequest_of_off hm hp hb h _, execPowerReqOff_refused hm hp hb h,
        execPowerReqRetention_refused hm hp hb (.inr h)⟩
    · exact ⟨State.clockRequest_of_retention hm hp hb h _, State.clockRequest_of_retention hm hp hb h _,
        execPowerReqRetention_refused hm hp hb (.inl h)⟩
    · exact ⟨State.clockRequest_same hm hp hb (.inl rfl) h, State.clockRequest_other hm hp hb (.inl h) (h ▸ PowerState.noConfusion)⟩
    · exact ⟨State.clockRequest_same hm hp hb (.inr rfl) h, State.clockRequest_other hm hp hb (.inr h) (h ▸ PowerState.noConfusion)⟩
  case transitions =>
    intro p d hm hp
    refine ⟨execPowerTransitionDone_early hm hp, execPowerTransitionDone_retains hm hp, execPowerTransitionDone_wakes hm hp,
      fun hd hk a b => execPowerTransitionDone_reclocks hm hp hd hk, fun hd hw he hk => ?_, fun hd hw he hk => ?_⟩
    · obtain ⟨u, hu, hs, ht⟩ := execPowerTransitionDone_off hm hp hd hw he hk
      refine ⟨u, hu, hs, fun t h1 h2 => ?_⟩
      obtain ⟨x, hx⟩ := ht t h1 h2
      rw [hx]
      exact ⟨rfl, rfl, rfl, rfl⟩
    · obtain ⟨u, hu, hs, ht⟩ := execPowerTransitionDone_on hm hp hd hw he hk
      refine ⟨u, hu, hs, fun t h1 h2 => ?_⟩
      rw [ht t h1 h2]
      exact ⟨rfl, rfl, rfl⟩
  case clock =>
    exact fun now c => ⟨rescaled_slower now c, rescaled_faster now c, fun h => rescaled_past h 1 2,
      fun h => ⟨rescaledPast_slower h, rescaledPast_faster h⟩⟩
  case reset =>
    intro h
    obtain ⟨c, hc, ht⟩ := { s.moduleReset with args := { s.args with b := 0 } }.bootStage_timers (n := 1) (by decide)
    exact ⟨_, execModuleReset_starts h, rfl, rfl, rfl, rfl, rfl, rfl, rfl, rfl, rfl, rfl, rfl, rfl, rfl, rfl, rfl, s.moduleReset_bootstat _,
      c, hc, ht⟩
  case stray => exact execModuleReset_stray
  case stages =>
    intro ends
    have ends_of : ∀ {k : Nat} {u : State} {P : Globals → Prop}, s.bootWork k = u → k ≠ 0 ∧ k < 7 → u.contexts = s.contexts →
        u.tiles = s.tiles → P u.globals → ends k P := execModuleReset_ends
    clear_value ends
    refine ⟨?noFirmware, ?firmware, ?edges, ?trained, ⟨?edgeFails, ?ridges⟩, ?ridgesDone, ?rowsOut, ?repairFails, ?repaired, ?testFails, ?tested,
      ?graded, ?joined⟩
    case noFirmware => exact fun h => ends_of (State.bootWork_one_fails h) (by decide) rfl rfl ⟨rfl, rfl⟩
    case firmware => exact fun h => ends_of (State.bootWork_one h) (by decide) rfl rfl ⟨rfl, rfl⟩
    case edges => exact fun h hb ha => ⟨_, execModuleReset_stage (by decide) hb ha, fun l hl => State.bootWork_one_link h hl⟩
    case trained =>
      intro l y hy
      rw [State.endTraining_links s _ _ hy]
      cases s.args.parts.find? fun e => e.1 == l <;> rfl
    case edgeFails =>
      intro h hf hb ha
      obtain ⟨l, hl⟩ := Option.ne_none_iff_exists'.1 (mt State.badEdge_eq_none.1 (not_forall_not.2 hf))
      refine ⟨_, l, execModuleReset_stage (by decide) hb ha, State.edgeFailed_of_badEdge hl, ?_⟩
      rw [State.bootWork_two_fails h hl]; exact ⟨rfl, rfl⟩
    case ridges =>
      intro h hf hb ha
      have hn := State.badEdge_eq_none.2 hf
      obtain ⟨c, hc, ht⟩ := State.bootWork_two_timers h hn
      refine ⟨_, c, execModuleReset_stage (by decide) hb ha, ?_, hc, ht, fun l hl => State.bootWork_two_link h hn hl⟩
      rw [State.bootWork_two h hn]; rfl
    case ridgesDone => exact fun h => ends_of (State.bootWork_two_ridges h) (by decide) rfl rfl rfl
    case rowsOut =>
      exact fun k h hk hb hj => ends_of (State.bootWork_three_fails (Globals.badMassif_first _ h hk hb hj)) (by decide) rfl rfl ⟨rfl, rfl⟩
    case repairFails =>
      exact fun k h => ends_of (State.bootWork_three_fails (by rw [h, Globals.badMassif_repairFail])) (by decide) rfl rfl ⟨rfl, rfl⟩
    case repaired => exact fun h hk => ends_of (State.bootWork_three (Globals.badMassif_none _ h hk)) (by decide) rfl rfl rfl
    case testFails => exact fun k h => ends_of (State.bootWork_four_fails h) (by decide) rfl rfl ⟨rfl, rfl⟩
    case tested => exact fun h => ends_of (State.bootWork_four h) (by decide) rfl rfl rfl
    case graded => exact ends_of (u := s.bootStage 6) (k := 5) rfl (by decide) rfl rfl rfl
    case joined =>
      intro hb ha
      refine ⟨_, execModuleReset_stage (by decide) hb ha, rfl, s.joined_contexts _, s.joined_cycle _, s.joined_powerOf _, fun t => ?_⟩
      have zero : (s.bootWork 6).getTile t = (s.getTile t).cleared := s.bootWork_six ▸ s.joined_getTile _ t
      rw [zero]; exact ⟨rfl, rfl, rfl, rfl⟩
  case shut => exact execRegisterWrite_shut
  case writes =>
    intro h hp
    have e := execRegisterWrite_open h hp
    refine ⟨fun ho => ?_, fun k ha hk hl hv => ?_, fun k ha hk hl hv => ?_⟩
    · rw [State.refuseIcmd_outside _ ho] at e; exact e
    · rw [ha, State.refuseIcmd_unknown _ hk hl hv] at e; exact e
    · rw [ha, State.refuseIcmd_command _ hk hl hv] at e; exact e
  case outside => exact execHostCxlMemAccess_outside
  case write => exact fun hf hp ha hb ho => execHostCxlMemAccess_write hp ha hb ho hf
  case read => exact fun hf hp ha hb ho => execHostCxlMemAccess_read hp ha hb ho hf

end Sys2Proof.Machine
end

section
/-! Exact fractions: the rational that a value denotes, scaling by a power of two, the binary logarithm, and the one step by which a
remainder rounds its quotient (spec/03_numbers.md R56, R58, R64). -/

namespace Sys2Proof

/-! ### The rational of a value -/

/-- The rational that a finite value denotes. -/
def Val.rat (v : Val) : ℚ := (v.num : ℚ) / v.den

@[simp] theorem Val.rat_false (n d : Nat) : (Val.fin false n d).rat = (n : ℚ) / d := by simp [Val.rat, Val.num, Val.den]
@[simp] theorem Val.rat_true (n d : Nat) : (Val.fin true n d).rat = -((n : ℚ) / d) := by simp [Val.rat, Val.num, Val.den, neg_div]

/-- A value is its magnitude under its sign. -/
theorem Val.rat_fin (s : Bool) (n d : Nat) : (Val.fin s n d).rat = (if s then -1 else 1) * ((n : ℚ) / d) := by cases s <;> simp

theorem Val.abs_rat (s : Bool) (n d : Nat) : |(Val.fin s n d).rat| = (n : ℚ) / d := by
  have : (0 : ℚ) ≤ (n : ℚ) / d := by positivity
  cases s <;> simp [abs_of_nonneg this]

theorem sign_xor (s t : Bool) : (if (s != t) = true then (-1 : ℚ) else 1) = (if s then -1 else 1) * (if t then -1 else 1) := by
  cases s <;> cases t <;> norm_num

/-! ### Scaling by a power of two -/

theorem scale2_den_pos {d : Nat} (hd : 0 < d) (n : Nat) (e : ℤ) : 0 < (scale2 n d e).2 := by
  unfold scale2
  split
  · exact hd
  · exact Nat.mul_pos hd (Nat.two_pow_pos _)

/-- `scale2` multiplies by 2^e exactly. -/
theorem scale2_rat (n d : Nat) (e : ℤ) : ((scale2 n d e).1 : ℚ) / (scale2 n d e).2 = (n : ℚ) / d * 2 ^ e := by
  unfold scale2
  split
  case isTrue h =>
    obtain ⟨k, rfl⟩ := Int.eq_ofNat_of_zero_le h
    simp [mul_div_right_comm]
  case isFalse h =>
    obtain ⟨k, hk⟩ := Int.eq_ofNat_of_zero_le (by omega : 0 ≤ -e)
    obtain rfl : e = -k := by omega
    simp [← div_eq_mul_inv, div_mul_eq_div_div]

/-- A scaled fraction reaches its denominator exactly when its value reaches one. -/
theorem scale2_den_le_iff {n d : Nat} (hd : 0 < d) (e : ℤ) : (scale2 n d e).2 ≤ (scale2 n d e).1 ↔ 1 ≤ (n : ℚ) / d * 2 ^ e := by
  rw [← scale2_rat, one_le_div (by exact_mod_cast scale2_den_pos hd n e), Nat.cast_le]

/-- The fraction part of a scaled value of at least one. -/
theorem scale2_tail {n d : Nat} (hd : 0 < d) {e : ℤ} (h : 1 ≤ (n : ℚ) / d * 2 ^ e) :
    (((scale2 n d e).1 - (scale2 n d e).2 : Nat) : ℚ) / (scale2 n d e).2 = (n : ℚ) / d * 2 ^ e - 1 := by
  have hq : ((scale2 n d e).2 : ℚ) ≠ 0 := by exact_mod_cast (scale2_den_pos hd n e).ne'
  rw [Nat.cast_sub ((scale2_den_le_iff hd e).2 h), sub_div, div_self hq, scale2_rat]

theorem scale2_den_dvd {n p q : Nat} {e : ℤ} (hp : p ≤ q) (he : p - e ≤ q) : (scale2 n (2 ^ p) e).2 ∣ 2 ^ q := by
  unfold scale2
  split
  · exact pow_dvd_pow 2 hp
  · rw [← pow_add]; exact pow_dvd_pow 2 (by omega)

/-! ### The binary logarithm -/

/-- A positive natural number lies between two neighbouring powers of two. -/
theorem log2_bounds {n : Nat} (hn : 0 < n) : (2 : ℚ) ^ (n.log2 : ℤ) ≤ n ∧ (n : ℚ) < 2 ^ (n.log2 + 1 : ℤ) := by
  exact_mod_cast And.intro (Nat.log2_self_le hn.ne') (Nat.lt_log2_self (n := n))

/-- `floorLog2` is the exponent of the binade that holds a positive fraction. -/
theorem floorLog2_spec {n d : Nat} (hn : 0 < n) (hd : 0 < d) :
    (2 : ℚ) ^ floorLog2 n d ≤ (n : ℚ) / d ∧ (n : ℚ) / d < 2 ^ (floorLog2 n d + 1) := by
  have two : (2 : ℚ) ≠ 0 := two_ne_zero
  have hd' : (0 : ℚ) < d := by exact_mod_cast hd
  obtain ⟨hn1, hn2⟩ := log2_bounds hn
  obtain ⟨hd1, hd2⟩ := log2_bounds hd
  have above : (n : ℚ) / d < 2 ^ ((n.log2 : ℤ) - d.log2 + 1) := by
    rw [div_lt_iff₀ hd']
    calc (n : ℚ) < 2 ^ (n.log2 + 1 : ℤ) := hn2
      _ = 2 ^ ((n.log2 : ℤ) - d.log2 + 1) * 2 ^ (d.log2 : ℤ) := by rw [← zpow_add₀ two]; congr 1; ring
      _ ≤ _ := by gcongr
  have below : (2 : ℚ) ^ ((n.log2 : ℤ) - d.log2 - 1) ≤ (n : ℚ) / d := by
    rw [le_div_iff₀ hd']
    calc (2 : ℚ) ^ ((n.log2 : ℤ) - d.log2 - 1) * d ≤ 2 ^ ((n.log2 : ℤ) - d.log2 - 1) * 2 ^ (d.log2 + 1 : ℤ) := by gcongr
      _ = 2 ^ (n.log2 : ℤ) := by rw [← zpow_add₀ two]; congr 1; ring
      _ ≤ n := hn1
  have reach : (1 : ℚ) ≤ (n : ℚ) / d * 2 ^ (-((n.log2 : ℤ) - d.log2)) ↔ (2 : ℚ) ^ ((n.log2 : ℤ) - d.log2) ≤ (n : ℚ) / d := by
    rw [zpow_neg, ← div_eq_mul_inv, one_le_div (by positivity)]
  simp only [floorLog2, scale2_den_le_iff hd, reach]
  split
  case isTrue h => exact ⟨h, above⟩
  case isFalse h => exact ⟨below, by rw [sub_add_cancel]; exact not_le.1 h⟩

/-! ### One rounding step (R58, R64) -/

/-- A tail `t` rounds its integer `m` up: nearest even, or stochastic with the word `z`. -/
def RoundsUp (m : Nat) (t : ℚ) : Option Nat → Prop
  | none => 1 / 2 < t ∨ (t = 1 / 2 ∧ m % 2 = 1)
  | some z => (2 : ℤ) ^ 32 ≤ ⌊t * 2 ^ 32⌋ + z

/-- `r` is `m` with a tail `t` below one rounded away: `m`, or `m + 1` where the tail rounds up. -/
def RoundsTo (m r : Nat) (t : ℚ) (z : Option Nat) : Prop :=
  0 ≤ t ∧ t < 1 ∧ ((RoundsUp m t z ∧ r = m + 1) ∨ (¬ RoundsUp m t z ∧ r = m))

theorem RoundsTo.bounds {m r : Nat} {t : ℚ} {z : Option Nat} (h : RoundsTo m r t z) : m ≤ r ∧ r ≤ m + 1 := by
  obtain ⟨-, -, ⟨-, rfl⟩ | ⟨-, rfl⟩⟩ := h <;> omega

/-- The test of the model on a remainder is that of the rules on its fraction. -/
theorem roundUp_iff (m t : Nat) {y : Nat} (hy : 0 < y) (z : Option Nat) : roundUp m t y z = true ↔ RoundsUp m ((t : ℚ) / y) z := by
  have hy' : (0 : ℚ) < y := by exact_mod_cast hy
  cases z with
  | none =>
    have more : (1 : ℚ) / 2 < t / y ↔ y < 2 * t := by
      rw [div_lt_div_iff₀ two_pos hy', one_mul, mul_comm]; exact_mod_cast Iff.rfl
    have half : (t : ℚ) / y = 1 / 2 ↔ 2 * t = y := by
      rw [div_eq_div_iff hy'.ne' two_ne_zero, one_mul, mul_comm]; exact_mod_cast Iff.rfl
    rw [RoundsUp, more, half]; simp [roundUp]
  | some z =>
    have tail : ⌊(t : ℚ) / y * 2 ^ 32⌋ = ((t * 2 ^ 32 / y : Nat) : ℤ) := by
      rw [div_mul_eq_mul_div, Int.natCast_div, ← Rat.floor_natCast_div_natCast]; push_cast; rfl
    rw [RoundsUp, tail, roundUp, decide_eq_true_iff]
    exact_mod_cast Iff.rfl

/-- The quotient of two naturals, rounded by its remainder. -/
def roundDiv (x y : Nat) (z : Option Nat) : Nat := if roundUp (x / y) (x % y) y z then x / y + 1 else x / y

/-- A fraction is its quotient and a tail, and `roundDiv` rounds that tail away. -/
theorem roundDiv_spec (x : Nat) {y : Nat} (hy : 0 < y) (z : Option Nat) :
    (x : ℚ) / y = (x / y : Nat) + ((x % y : Nat) : ℚ) / y ∧ RoundsTo (x / y) (roundDiv x y z) (((x % y : Nat) : ℚ) / y) z := by
  have hy' : (0 : ℚ) < y := by exact_mod_cast hy
  refine ⟨?_, by positivity, by rw [div_lt_one hy']; exact_mod_cast Nat.mod_lt x hy, ?_⟩
  · rw [div_eq_iff hy'.ne', add_mul, div_mul_cancel₀ _ hy'.ne']
    exact_mod_cast (Nat.div_add_mod' x y).symm
  · rw [← roundUp_iff _ _ hy, roundDiv]
    cases roundUp (x / y) (x % y) y z <;> simp

end Sys2Proof
end

section
/-! Tapered words: a word is the bit string of its value's regime, exponent and fraction, and rounding a magnitude rounds that string
(spec/03_numbers.md R56, R57, R58). -/

namespace Sys2Proof

/-! ### The bit string of a value -/

/-- The length of the regime of k, with its terminator. -/
def regimeLen (k : ℤ) : ℤ := if 0 ≤ k then k + 2 else 1 - k

/-- The unbounded bit string of regime, exponent and fraction, as a number whose unit is the last of `n` bits. -/
def tapString (n es : Nat) (k : ℤ) (e : Nat) (f : ℚ) : ℚ :=
  ((if 0 ≤ k then (2 : ℚ) ^ (k + 2) - 2 else 1) * 2 ^ es + e + f) * 2 ^ ((n : ℤ) - 1 - regimeLen k - es)

/-- The magnitude of regime, exponent and fraction. -/
def tapReal (es : Nat) (k : ℤ) (e : Nat) (f : ℚ) : ℚ := (2 : ℚ) ^ (k * 2 ^ es + e) * (1 + f)

/-! ### Runs of equal bits -/

theorem testBit_top {w i : Nat} (h : w < 2 ^ (i + 1)) : w.testBit i = decide (2 ^ i ≤ w) := by
  rw [Nat.testBit_eq_decide_div_mod_eq, Nat.mod_eq_of_lt (Nat.div_lt_of_lt_mul (by rwa [← pow_succ]))]
  have lt : w / 2 ^ i < 2 := Nat.div_lt_of_lt_mul (by rwa [← pow_succ])
  have ge : 1 ≤ w / 2 ^ i ↔ 2 ^ i ≤ w := by rw [Nat.le_div_iff_mul_le (Nat.two_pow_pos i), one_mul]
  exact decide_eq_decide.2 (by omega)

/-- The low i + 1 bits are bit i above the low i bits. -/
theorem mod_two_pow_succ (w i : Nat) : w % 2 ^ (i + 1) = w % 2 ^ i + if w.testBit i then 2 ^ i else 0 := by
  have := Nat.mod_two_eq_zero_or_one (w / 2 ^ i)
  rw [Nat.mod_pow_succ, Nat.testBit_eq_decide_div_mod_eq]
  obtain h | h := this <;> simp [h]

/-- A run of ones from the top: the low `i` bits are all ones, or ones, a zero and `r` further bits `u`. -/
theorem runLen_ones (w i : Nat) : (runLen w true i = i ∧ w % 2 ^ i + 1 = 2 ^ i) ∨
    ∃ r u, i = runLen w true i + 1 + r ∧ u < 2 ^ r ∧ w % 2 ^ i + 2 ^ (r + 1) = 2 ^ i + u := by
  induction i with
  | zero => exact .inl ⟨rfl, by simp [Nat.mod_one]⟩
  | succ i ih =>
    rw [mod_two_pow_succ, runLen]
    split
    case isTrue h =>
      obtain ⟨hm, hw⟩ | ⟨r, u, hi, hu, hw⟩ := ih
      · exact .inl ⟨by omega, by rw [pow_succ]; omega⟩
      · exact .inr ⟨r, u, by omega, hu, by rw [pow_succ 2 i]; omega⟩
    case isFalse h => exact .inr ⟨i, w % 2 ^ i, by omega, Nat.mod_lt _ (Nat.two_pow_pos i), by rw [Nat.add_zero, Nat.add_comm]⟩

/-- A run of zeros from the top of a word that is not zero: zeros, a one and `r` further bits `u`. -/
theorem runLen_zeros {w i : Nat} (h0 : 0 < w % 2 ^ i) :
    ∃ r u, i = runLen w false i + 1 + r ∧ u < 2 ^ r ∧ w % 2 ^ i = 2 ^ r + u := by
  induction i with
  | zero => simp [Nat.mod_one] at h0
  | succ i ih =>
    rw [mod_two_pow_succ] at h0 ⊢
    rw [runLen]
    cases hb : w.testBit i
    case false =>
      obtain ⟨r, u, hi, hu, hw⟩ := ih (by simpa [hb] using h0)
      exact ⟨r, u, by simp only [if_true]; omega, hu, by simpa using hw⟩
    case true => exact ⟨i, w % 2 ^ i, by simp [Nat.add_comm], Nat.mod_lt _ (Nat.two_pow_pos i), by simp [Nat.add_comm]⟩

/-! ### Decoding -/

/-- The exponent bits among the `r` bits `rest` after the regime; missing ones are zero. -/
def tapExp (es r rest : Nat) : Nat := if es ≤ r then rest / 2 ^ (r - es) else rest * 2 ^ (es - r)

theorem tapExp_lt {r rest : Nat} (es : Nat) (h : rest < 2 ^ r) : tapExp es r rest < 2 ^ es := by
  unfold tapExp
  split
  case isTrue hr => exact Nat.div_lt_of_lt_mul (by rwa [← pow_add, Nat.sub_add_cancel hr])
  case isFalse hr =>
    calc rest * 2 ^ (es - r) < 2 ^ r * 2 ^ (es - r) := by gcongr
      _ = 2 ^ es := by rw [← pow_add]; congr 1; omega

/-- The bits after the regime are exponent and fraction. -/
theorem tapExp_fraction (es r rest : Nat) :
    (rest : ℚ) = (tapExp es r rest + ((rest % 2 ^ (r - es) : Nat) : ℚ) / 2 ^ (r - es)) * 2 ^ ((r : ℤ) - es) := by
  unfold tapExp
  split
  case isTrue h =>
    obtain ⟨g, rfl⟩ := Nat.exists_eq_add_of_le h
    rw [Nat.add_sub_cancel_left, show ((es + g : Nat) : ℤ) - es = (g : Nat) by push_cast; ring, zpow_natCast, add_mul,
      div_mul_cancel₀ _ (by positivity)]
    exact_mod_cast (Nat.div_add_mod' rest (2 ^ g)).symm
  case isFalse h =>
    obtain ⟨g, rfl⟩ := Nat.exists_eq_add_of_le (Nat.le_of_not_le h)
    rw [Nat.sub_eq_zero_of_le (Nat.le_add_right r g), Nat.add_sub_cancel_left, show (r : ℤ) - (r + g : Nat) = -(g : Nat) by push_cast; ring,
      zpow_neg, zpow_natCast]
    simp [Nat.mod_one]

/-- The magnitude of a run length, and of the bits after the regime, as tdecode of R56 builds it. -/
def tapFraction (es : Nat) (k : ℤ) (r rest : Nat) : Nat × Nat :=
  scale2 (2 ^ (r - es) + rest % 2 ^ (r - es)) (2 ^ (r - es)) (k * (2 ^ es : Nat) + tapExp es r rest)

/-- The magnitude that tdecode gives to a magnitude word. -/
def tapMag (w n es : Nat) : Nat × Nat :=
  let m := runLen w (w.testBit (n - 2)) (n - 1)
  tapFraction es (if w.testBit (n - 2) then (m : ℤ) - 1 else -(m : ℤ)) (n - 2 - m) (w % 2 ^ (n - 2 - m))

section
variable {w n : Nat} (h0 : 0 < w) (hw : w < 2 ^ (n - 1))
include h0 hw

/-- A word below 2^(n-1) is the magnitude word of itself. -/
theorem tdecode_of_lt (es : Nat) : tdecode w n es = .fin false (tapMag w n es).1 (tapMag w n es).2 := by
  have top : w.testBit (n - 1) = false := Nat.testBit_lt_two_pow hw
  simp only [tdecode, top, if_neg h0.ne', if_neg hw.ne, Bool.false_eq_true, if_false]
  rfl

/-- A word above 2^(n-1) is the negative of the value of its two's complement. -/
theorem tdecode_two_pow_sub (hn : 2 ≤ n) (es : Nat) : tdecode (2 ^ n - w) n es = (tdecode w n es).neg := by
  have pow := Nat.two_pow_pred_add_two_pow_pred (by omega : 0 < n)
  have top : (2 ^ n - w).testBit (n - 1) = true := by
    rw [testBit_top (by rw [Nat.sub_add_cancel (by omega)]; omega)]; exact decide_eq_true (by omega)
  have back : 2 ^ n - (2 ^ n - w) = w := by omega
  rw [tdecode_of_lt h0 hw]
  simp only [tdecode, top, back, if_neg (show 2 ^ n - w ≠ 0 by omega), if_neg (show 2 ^ n - w ≠ 2 ^ (n - 1) by omega), if_true]
  rfl

end

/-- The magnitude word `w` of n bits is the regime of `k` before the `r` bits `u`; only the greatest word has a regime that takes all its bits. -/
structure HasRegime (w n es : Nat) (k : ℤ) (r u : Nat) : Prop where
  lt : u < 2 ^ r
  mag : tapMag w n es = tapFraction es k r u
  word : (w : ℚ) = (if 0 ≤ k then (2 : ℚ) ^ (k + 2) - 2 else 1) * 2 ^ ((n : ℤ) - 1 - regimeLen k) + u
  len : regimeLen k + r = (n : ℤ) - 1 ∨ (k = (n : ℤ) - 2 ∧ r = 0)

/-- A terminated run of `m` equal bits is a regime of m + 1 bits, whose number is `x`. -/
theorem HasRegime.of_run {w n es m r u : Nat} {k : ℤ} (x : Nat) (hi : n - 1 = m + 1 + r) (hu : u < 2 ^ r) (hw : w = 2 ^ r * x + u)
    (hm : tapMag w n es = tapFraction es k (n - 2 - m) (w % 2 ^ (n - 2 - m))) (hk : regimeLen k = m + 1)
    (hx : (x : ℚ) = if 0 ≤ k then (2 : ℚ) ^ (k + 2) - 2 else 1) : HasRegime w n es k r u where
  lt := hu
  mag := by rw [hm, show n - 2 - m = r by omega, hw, Nat.mul_add_mod, Nat.mod_eq_of_lt hu]
  word := by rw [← hx, hk, show (n : ℤ) - 1 - (m + 1) = (r : Nat) by omega, zpow_natCast, hw]; push_cast; ring
  len := .inl (by omega)

/-- The greatest word is a run of ones to its end. -/
theorem HasRegime.greatest {w n : Nat} (es : Nat) (hn : 2 ≤ n) (hw : w + 1 = 2 ^ (n - 1)) (hb : w.testBit (n - 2) = true)
    (hm : runLen w true (n - 1) = n - 1) : HasRegime w n es (n - 2) 0 0 where
  lt := one_pos
  mag := by
    simp only [tapMag, hb, if_true, hm, show n - 2 - (n - 1) = 0 by omega, pow_zero, Nat.mod_one]
    congr 1; omega
  word := by
    obtain ⟨g, rfl⟩ := Nat.exists_eq_add_of_le hn
    have : (w : ℚ) + 1 = 2 ^ (g + 1) := by rw [show 2 + g - 1 = g + 1 by omega] at hw; exact_mod_cast hw
    rw [if_pos (by omega), regimeLen, if_pos (by omega), eq_sub_of_add_eq this,
      show ((2 + g : Nat) : ℤ) - 2 + 2 = (g + 2 : Nat) by push_cast; ring, show ((2 + g : Nat) : ℤ) - 1 - (g + 2 : Nat) = -1 by push_cast; ring,
      zpow_natCast, zpow_neg_one]
    push_cast; ring
  len := .inr ⟨rfl, rfl⟩

/-- Every magnitude word has a regime. -/
theorem exists_hasRegime {w n : Nat} (es : Nat) (hn : 2 ≤ n) (h0 : 0 < w) (hw : w < 2 ^ (n - 1)) : ∃ k r u, HasRegime w n es k r u := by
  have mod : w % 2 ^ (n - 1) = w := Nat.mod_eq_of_lt hw
  have bit : w.testBit (n - 2) = decide (2 ^ (n - 2) ≤ w) := testBit_top (by rwa [show n - 2 + 1 = n - 1 by omega])
  have pow : 2 ^ (n - 1) = 2 ^ (n - 2) * 2 := by rw [← pow_succ]; congr 1; omega
  cases hb : w.testBit (n - 2)
  case true =>
    have ge : 2 ^ (n - 2) ≤ w := by simpa [bit] using hb
    obtain ⟨hm, hw1⟩ | ⟨r, u, hi, hu, hw1⟩ := runLen_ones w (n - 1)
    · exact ⟨_, _, _, .greatest es hn (by rwa [mod] at hw1) hb hm⟩
    · have m1 : 1 ≤ runLen w true (n - 1) := by
        by_contra h
        rw [show r = n - 2 by omega] at hu
        rw [mod, show r + 1 = n - 1 by omega] at hw1
        omega
      generalize hm : runLen w true (n - 1) = m at *
      refine ⟨m - 1, r, u, .of_run (2 ^ (m + 1) - 2) hi hu ?_ (by simp [tapMag, hb, hm]) (by rw [regimeLen, if_pos (by omega)]; ring) ?_⟩
      · rw [Nat.mul_sub, ← pow_add, show r + (m + 1) = n - 1 by omega, ← pow_succ]; omega
      · rw [if_pos (by omega), Nat.cast_sub (Nat.le_self_pow (by omega) 2), show (m : ℤ) - 1 + 2 = (m + 1 : Nat) by push_cast; ring, zpow_natCast]
        norm_num
  case false =>
    have lt : w < 2 ^ (n - 2) := by simpa [bit] using hb
    obtain ⟨r, u, hi, hu, hw1⟩ := runLen_zeros (i := n - 1) (by rwa [mod])
    have m1 : 1 ≤ runLen w false (n - 1) := by
      by_contra h
      rw [mod, show r = n - 2 by omega] at hw1
      omega
    generalize hm : runLen w false (n - 1) = m at *
    refine ⟨-m, r, u, .of_run 1 hi hu (by rw [mul_one, ← hw1, mod]) (by simp [tapMag, hb, hm]) (by rw [regimeLen, if_neg (by omega)]; ring) ?_⟩
    rw [if_neg (by omega)]; norm_num

section
variable {w n es r u : Nat} {k : ℤ}

/-- The fraction after the exponent among the `r` bits `u`. -/
def tapTail (es r u : Nat) : ℚ := ((u % 2 ^ (r - es) : Nat) : ℚ) / 2 ^ (r - es)

theorem tapTail_nonneg (es r u : Nat) : 0 ≤ tapTail es r u := by unfold tapTail; positivity
theorem tapTail_lt_one (es r u : Nat) : tapTail es r u < 1 := by
  rw [tapTail, div_lt_one (by positivity)]; exact_mod_cast Nat.mod_lt u (Nat.two_pow_pos _)

theorem tapFraction_den_pos (es : Nat) (k : ℤ) (r u : Nat) : 0 < (tapFraction es k r u).2 := scale2_den_pos (Nat.two_pow_pos _) _ _

theorem tapFraction_rat (es : Nat) (k : ℤ) (r u : Nat) :
    ((tapFraction es k r u).1 : ℚ) / (tapFraction es k r u).2 = tapReal es k (tapExp es r u) (tapTail es r u) := by
  have pow : (2 : ℚ) ^ (r - es) ≠ 0 := by positivity
  rw [tapFraction, scale2_rat, tapReal, tapTail]
  push_cast
  rw [add_div, div_self pow, mul_comm]

/-- A magnitude word is the bit string of its fields. -/
theorem HasRegime.string (h : HasRegime w n es k r u) : (w : ℚ) = tapString n es k (tapExp es r u) (tapTail es r u) := by
  have two : (2 : ℚ) ≠ 0 := two_ne_zero
  have split : ∀ x : ℚ, x * 2 ^ ((n : ℤ) - 1 - regimeLen k) = x * 2 ^ es * 2 ^ ((n : ℤ) - 1 - regimeLen k - es) := fun x => by
    rw [mul_assoc, ← zpow_natCast 2 es, ← zpow_add₀ two]; congr 2; ring
  rw [h.word, tapString, split, add_assoc, add_mul _ (_ + _)]
  congr 1
  obtain hl | ⟨-, rfl⟩ := h.len
  · rw [show (n : ℤ) - 1 - regimeLen k = r by omega]; exact tapExp_fraction es r u
  · obtain rfl : u = 0 := by have := h.lt; omega
    simp [tapExp, tapTail]

/-- The value of a magnitude word is a multiple of 2^-top and at most 2^top (R57). -/
theorem HasRegime.range (h : HasRegime w n es k r u) (hn : 2 ≤ n) : (tapMag w n es).2 ∣ 2 ^ (2 ^ es * (n - 2)) ∧
    (tapMag w n es).1 ≤ (tapMag w n es).2 * 2 ^ (2 ^ es * (n - 2)) := by
  have two : (1 : ℚ) ≤ 2 := one_le_two
  have pos : (1 : ℤ) ≤ 2 ^ es := one_le_pow₀ one_le_two
  have top : ((2 ^ es * (n - 2) : Nat) : ℤ) = 2 ^ es * (n - 2) := by push_cast [Nat.cast_sub hn]; rfl
  have top_nonneg : (0 : ℤ) ≤ 2 ^ es * (n - 2) := by rw [← top]; exact Int.natCast_nonneg _
  have exp : (tapExp es r u : ℤ) + 1 ≤ 2 ^ es := by exact_mod_cast tapExp_lt es h.lt
  have len : (r - k ≤ (n : ℤ) - 2 ∧ r + k + 1 ≤ (n : ℤ) - 2) ∨ (k = (n : ℤ) - 2 ∧ r = 0) := by
    have hl := h.len
    unfold regimeLen at hl
    split at hl <;> omega
  rw [h.mag]
  constructor
  · have below : (r : ℤ) - (k * 2 ^ es + tapExp es r u) ≤ 2 ^ es * (n - 2) := by
      obtain ⟨hk, -⟩ | ⟨rfl, rfl⟩ := len
      · nlinarith
      · push_cast; linarith
    have frac : (r : ℤ) ≤ 2 ^ es * (n - 2) := by
      obtain ⟨hk, hk'⟩ | ⟨rfl, rfl⟩ := len
      · nlinarith
      · exact top_nonneg
    exact scale2_den_dvd (by omega) (by rw [top]; push_cast; omega)
  · have pos : (0 : ℚ) < (tapFraction es k r u).2 := by exact_mod_cast tapFraction_den_pos es k r u
    suffices (tapReal es k (tapExp es r u) (tapTail es r u)) ≤ 2 ^ ((2 ^ es * (n - 2) : Nat) : ℤ) by
      rw [← tapFraction_rat, div_le_iff₀ pos, mul_comm, zpow_natCast] at this; exact_mod_cast this
    rw [tapReal, top]
    obtain ⟨-, hk⟩ | ⟨rfl, rfl⟩ := len
    · calc (2 : ℚ) ^ (k * 2 ^ es + tapExp es r u) * (1 + tapTail es r u) ≤ 2 ^ (k * 2 ^ es + tapExp es r u) * 2 := by
            have := tapTail_lt_one es r u; gcongr; linarith
        _ = 2 ^ (k * 2 ^ es + tapExp es r u + 1) := (zpow_add_one₀ two_ne_zero _).symm
        _ ≤ _ := zpow_le_zpow_right₀ two (by nlinarith)
    · obtain rfl : u = 0 := by have := h.lt; omega
      simp [tapExp, tapTail, mul_comm]

end

/-- A tapered word below 2^(n-1) that is not zero: its fields, its value and its place in the bit string. -/
theorem tdecode_fields {w n : Nat} (es : Nat) (hn : 2 ≤ n) (h0 : 0 < w) (hw : w < 2 ^ (n - 1)) : ∃ (k : ℤ) (e : Nat) (f : ℚ),
    e < 2 ^ es ∧ 0 ≤ f ∧ f < 1 ∧ (tdecode w n es).rat = tapReal es k e f ∧ (w : ℚ) = tapString n es k e f := by
  obtain ⟨k, r, u, h⟩ := exists_hasRegime es hn h0 hw
  refine ⟨k, tapExp es r u, tapTail es r u, tapExp_lt es h.lt, tapTail_nonneg es r u, tapTail_lt_one es r u, ?_, h.string⟩
  rw [tdecode_of_lt h0 hw, Val.rat_false, h.mag, tapFraction_rat]

/-! ### Rounding -/

/-- The k of a fraction's regime. -/
def tapRegime (a b es : Nat) : ℤ := (floorLog2 a b).fdiv (2 ^ es : Nat)

/-- The exponent of a fraction within its regime. -/
def tapExponent (a b es : Nat) : Nat := (floorLog2 a b - tapRegime a b es * (2 ^ es : Nat)).toNat

/-- The regime and the exponent of R58 as one number of bits: what `troundMag` writes before the fraction. -/
def troundHead (k : ℤ) (es e : Nat) : Nat := (if 0 ≤ k then 2 ^ (k.toNat + 2) - 2 else 1) * 2 ^ es + e

/-- The sign bit, the regime and the exponent have this length. -/
def troundLen (k : ℤ) (es : Nat) : Nat := 1 + (if 0 ≤ k then k.toNat + 2 else (-k).toNat + 1) + es

/-- The bit string that `troundMag` cuts, as a fraction. -/
def troundBits (a b n es : Nat) : Nat × Nat :=
  let x := scale2 a b (-floorLog2 a b)
  scale2 (troundHead (tapRegime a b es) es (tapExponent a b es) * x.2 + (x.1 - x.2)) x.2 ((n : ℤ) - troundLen (tapRegime a b es) es)

theorem troundMag_eq (a b n es : Nat) (z : Option Nat) :
    troundMag a b n es z = roundDiv (troundBits a b n es).1 (troundBits a b n es).2 z := rfl

theorem tapExponent_lt (a b es : Nat) : tapExponent a b es < 2 ^ es ∧ tapRegime a b es * 2 ^ es + tapExponent a b es = floorLog2 a b := by
  have pos : (0 : ℤ) < (2 ^ es : Nat) := by exact_mod_cast Nat.two_pow_pos es
  have split := Int.mul_ediv_add_emod (floorLog2 a b) (2 ^ es : Nat)
  have exp : (tapExponent a b es : ℤ) = floorLog2 a b % (2 ^ es : Nat) := by
    have := Int.emod_nonneg (floorLog2 a b) pos.ne'
    rw [tapExponent, tapRegime, Int.fdiv_eq_ediv_of_nonneg _ pos.le, mul_comm]; omega
  constructor
  · have := Int.emod_lt_of_pos (floorLog2 a b) pos; omega
  · rw [exp, tapRegime, Int.fdiv_eq_ediv_of_nonneg _ pos.le, mul_comm]; exact_mod_cast split

theorem troundHead_cast (k : ℤ) (es e : Nat) : (troundHead k es e : ℚ) = (if 0 ≤ k then (2 : ℚ) ^ (k + 2) - 2 else 1) * 2 ^ es + e := by
  unfold troundHead
  split
  case isTrue h =>
    obtain ⟨m, rfl⟩ := Int.eq_ofNat_of_zero_le h
    rw [Int.toNat_natCast, show (m : ℤ) + 2 = (m + 2 : Nat) by push_cast; rfl, zpow_natCast]
    push_cast [Nat.cast_sub (Nat.le_self_pow (by omega : m + 2 ≠ 0) 2)]; rfl
  case isFalse => push_cast; rfl

theorem troundLen_cast (k : ℤ) (es : Nat) : (troundLen k es : ℤ) = 1 + regimeLen k + es := by
  unfold troundLen regimeLen; split <;> omega

section
variable {a b : Nat} (ha : 0 < a) (hb : 0 < b)
include ha hb

/-- The significand of a positive fraction lies between one and two. -/
theorem significand_bounds : 1 ≤ (a : ℚ) / b * 2 ^ (-floorLog2 a b) ∧ (a : ℚ) / b * 2 ^ (-floorLog2 a b) < 2 := by
  obtain ⟨ge, lt⟩ := floorLog2_spec ha hb
  rw [zpow_neg, ← div_eq_mul_inv, one_le_div (by positivity), div_lt_iff₀ (by positivity), ← zpow_one_add₀ two_ne_zero, add_comm]
  exact ⟨ge, lt⟩

theorem troundBits_rat (n es : Nat) : 0 < (troundBits a b n es).2 ∧ ((troundBits a b n es).1 : ℚ) / (troundBits a b n es).2 =
    tapString n es (tapRegime a b es) (tapExponent a b es) ((a : ℚ) / b * 2 ^ (-floorLog2 a b) - 1) := by
  have hq := scale2_den_pos hb a (-floorLog2 a b)
  have hq' : ((scale2 a b (-floorLog2 a b)).2 : ℚ) ≠ 0 := by exact_mod_cast hq.ne'
  refine ⟨scale2_den_pos hq _ _, ?_⟩
  rw [troundBits, scale2_rat, troundLen_cast, tapString, ← troundHead_cast, ← scale2_tail hb (significand_bounds ha hb).1,
    Nat.cast_add, Nat.cast_mul, add_div, mul_div_cancel_right₀ _ hq', sub_sub, sub_sub, ← add_assoc]

/-- A positive fraction is the magnitude of a regime, an exponent and a fraction, and `troundMag` rounds their bit string. -/
theorem troundMag_spec (n es : Nat) (z : Option Nat) : ∃ (k : ℤ) (e : Nat) (f : ℚ) (m : Nat) (t : ℚ),
    e < 2 ^ es ∧ 0 ≤ f ∧ f < 1 ∧ (a : ℚ) / b = tapReal es k e f ∧ tapString n es k e f = m + t ∧ RoundsTo m (troundMag a b n es z) t z := by
  rw [troundMag_eq]
  obtain ⟨one, two⟩ := significand_bounds ha hb
  obtain ⟨lt, exp⟩ := tapExponent_lt a b es
  obtain ⟨pos, bits⟩ := troundBits_rat ha hb n es
  obtain ⟨cut, rounds⟩ := roundDiv_spec (troundBits a b n es).1 pos z
  refine ⟨_, _, _, _, _, lt, by linarith, by linarith, ?_, bits ▸ cut, rounds⟩
  rw [tapReal, exp, add_sub_cancel, mul_left_comm, ← zpow_add₀ two_ne_zero, add_neg_cancel, zpow_zero, mul_one]

end

section
variable {a b : Nat} (n es : Nat) (z : Option Nat)

theorem tround_zero (s : Bool) (b : Nat) : tround (.fin s 0 b) n es z = (0, 0) := by simp [tround]

variable (ha : 0 < a) (hb : 0 < b)
include ha

/-- A negative value rounds to the two's complement of what its magnitude rounds to. -/
theorem tround_neg : tround (.fin true a b) n es z =
    ((2 ^ n - (tround (.fin false a b) n es z).1) % 2 ^ n, (tround (.fin false a b) n es z).2) := by
  simp only [tround, if_neg ha.ne', if_true, Bool.false_eq_true, if_false]

include hb

/-- A magnitude above the greatest, 2^top, saturates. -/
theorem tround_above (h : (2 : ℚ) ^ (2 ^ es * (n - 2)) < (a : ℚ) / b) : tround (.fin false a b) n es z = (2 ^ (n - 1) - 1, Flag.RANGE) := by
  have : b * 2 ^ (2 ^ es * (n - 2)) < a := by
    rw [lt_div_iff₀ (by exact_mod_cast hb), mul_comm] at h; exact_mod_cast h
  simp only [tround, if_neg ha.ne', if_pos this, Bool.false_eq_true, if_false]

/-- A magnitude below the least, 2^-top, saturates. -/
theorem tround_below (h : (a : ℚ) / b < 1 / (2 : ℚ) ^ (2 ^ es * (n - 2))) : tround (.fin false a b) n es z = (1, Flag.RANGE) := by
  have lt : a * 2 ^ (2 ^ es * (n - 2)) < b := by
    rw [div_lt_div_iff₀ (by exact_mod_cast hb) (by positivity), one_mul] at h; exact_mod_cast h
  have le : a ≤ b * 2 ^ (2 ^ es * (n - 2)) :=
    calc a ≤ a * 2 ^ (2 ^ es * (n - 2)) := Nat.le_mul_of_pos_right a (Nat.two_pow_pos _)
      _ ≤ b := lt.le
      _ ≤ _ := Nat.le_mul_of_pos_right b (Nat.two_pow_pos _)
  simp only [tround, if_neg ha.ne', if_neg le.not_gt, if_pos lt, Bool.false_eq_true, if_false]

/-- A magnitude within the range rounds on its bit string, without a flag. -/
theorem tround_within (hl : 1 / (2 : ℚ) ^ (2 ^ es * (n - 2)) ≤ (a : ℚ) / b) (hh : (a : ℚ) / b ≤ (2 : ℚ) ^ (2 ^ es * (n - 2))) :
    tround (.fin false a b) n es z = (troundMag a b n es z, 0) := by
  have low : b ≤ a * 2 ^ (2 ^ es * (n - 2)) := by
    rw [div_le_div_iff₀ (by positivity) (by exact_mod_cast hb), one_mul] at hl; exact_mod_cast hl
  have high : a ≤ b * 2 ^ (2 ^ es * (n - 2)) := by
    rw [div_le_iff₀ (by exact_mod_cast hb), mul_comm] at hh; exact_mod_cast hh
  simp only [tround, if_neg ha.ne', if_neg low.not_gt, if_neg high.not_gt, Bool.false_eq_true, if_false]

end

end Sys2Proof
end

section
/-! IEEE words: what a word of sign, exponent and fraction fields decodes to, and what a positive magnitude rounds to
(spec/03_numbers.md R63, R64). -/

namespace Sys2Proof

/-! ### The fields of a word -/

/-- A word of `p - 1` fraction bits `m` under the exponent field `e`, with its sign. -/
def ieeeWord (s : Bool) (p eb e m : Nat) : Nat := (if s then 2 ^ (p + eb - 1) else 0) + (e * 2 ^ (p - 1) + m)

section
variable {p eb e m : Nat} (s : Bool) (hp : 1 < p)
include hp

theorem ieeeWord_eq : ieeeWord s p eb e m = 2 ^ (p - 1) * ((if s then 2 ^ eb else 0) + e) + m := by
  have pow : 2 ^ (p + eb - 1) = 2 ^ (p - 1) * 2 ^ eb := by rw [← pow_add]; congr 1; omega
  unfold ieeeWord; rw [pow]; split <;> ring

variable (hm : m < 2 ^ (p - 1))
include hm

theorem ieeeWord_fraction : ieeeWord s p eb e m % 2 ^ (p - 1) = m := by
  rw [ieeeWord_eq s hp, Nat.mul_add_mod, Nat.mod_eq_of_lt hm]

variable (he : e < 2 ^ eb)
include he

theorem ieeeWord_exponent : ieeeWord s p eb e m / 2 ^ (p - 1) % 2 ^ eb = e := by
  rw [ieeeWord_eq s hp, Nat.mul_add_div (Nat.two_pow_pos _), Nat.div_eq_of_lt hm]
  cases s <;> simp [Nat.mod_eq_of_lt he]

theorem ieeeWord_low : e * 2 ^ (p - 1) + m < 2 ^ (p + eb - 1) := by
  calc e * 2 ^ (p - 1) + m < (e + 1) * 2 ^ (p - 1) := by rw [Nat.succ_mul]; omega
    _ ≤ 2 ^ eb * 2 ^ (p - 1) := Nat.mul_le_mul_right _ he
    _ = 2 ^ (p + eb - 1) := by rw [← pow_add]; congr 1; omega

theorem ieeeWord_lt : ieeeWord s p eb e m < 2 ^ (p + eb) := by
  have low := ieeeWord_low hp hm he
  have pow := Nat.two_pow_pred_mul_two (by omega : 0 < p + eb)
  unfold ieeeWord; split <;> omega

theorem ieeeWord_sign : (ieeeWord s p eb e m).testBit (p + eb - 1) = s := by
  have low := ieeeWord_low hp hm he
  have lt := ieeeWord_lt s hp hm he
  rw [testBit_top (by rwa [Nat.sub_add_cancel (by omega)])]
  cases s
  · simpa [ieeeWord] using low
  · simp [ieeeWord]

end

/-! ### Decoding -/

/-- The bias of an exponent field, which is also the greatest exponent. -/
def ieeeBias (eb : Nat) : ℤ := (2 ^ (eb - 1) : Nat) - 1

/-- What a word decodes to, by its exponent field. -/
theorem ieeeDecode_word (s : Bool) {p eb e m : Nat} (hp : 1 < p) (he : e < 2 ^ eb) (hm : m < 2 ^ (p - 1)) :
    ieeeDecode (ieeeWord s p eb e m) (p + eb) p eb =
      if e = 2 ^ eb - 1 then (if m = 0 then (.inf s, 0) else (.nan, if m.testBit (p - 2) then 0 else Flag.NV))
      else
        let x := if e = 0 then scale2 m 1 (1 - ieeeBias eb - (p - 1 : Nat)) else scale2 (2 ^ (p - 1) + m) 1 (e - ieeeBias eb - (p - 1 : Nat))
        (.fin s x.1 x.2, 0) := by
  simp only [ieeeDecode, ieeeWord_sign s hp hm he, ieeeWord_exponent s hp hm he, ieeeWord_fraction s hp hm]
  split
  · rfl
  · split <;> rfl

theorem ieeeDecode_inf (s : Bool) {p : Nat} (eb : Nat) (hp : 1 < p) :
    ieeeInf s (p + eb) p eb < 2 ^ (p + eb) ∧ ieeeDecode (ieeeInf s (p + eb) p eb) (p + eb) p eb = (.inf s, 0) := by
  have top : 2 ^ eb - 1 < 2 ^ eb := Nat.sub_lt (Nat.two_pow_pos eb) one_pos
  have word : ieeeInf s (p + eb) p eb = ieeeWord s p eb (2 ^ eb - 1) 0 := rfl
  rw [word, ieeeDecode_word s hp top (Nat.two_pow_pos _)]
  exact ⟨ieeeWord_lt s hp (Nat.two_pow_pos _) top, by simp⟩

/-- A word that is a finite value of the given magnitude. -/
structure DecodesTo (w : Nat) (p eb : Nat) (s : Bool) (x : ℚ) : Prop where
  lt : w < 2 ^ (p + eb)
  value : ∃ n d : Nat, 0 < d ∧ ieeeDecode w (p + eb) p eb = (.fin s n d, 0) ∧ (n : ℚ) / d = x

section
variable {p eb : Nat} (s : Bool) (hp : 1 < p)
include hp

/-- A normal word. -/
theorem decodesTo_normal {e m : Nat} (he0 : 0 < e) (he : e < 2 ^ eb - 1) (hm : m < 2 ^ (p - 1)) :
    DecodesTo (ieeeWord s p eb e m) p eb s ((2 ^ (p - 1) + m : Nat) * 2 ^ (e - ieeeBias eb - (p - 1 : Nat))) where
  lt := ieeeWord_lt s hp hm (by omega)
  value := by
    refine ⟨_, _, scale2_den_pos one_pos _ _, (ieeeDecode_word s hp (by omega) hm).trans (by rw [if_neg he.ne, if_neg he0.ne']), ?_⟩
    rw [scale2_rat]; simp

variable (heb : 1 < eb)
include heb

/-- A subnormal word. -/
theorem decodesTo_subnormal {m : Nat} (hm : m < 2 ^ (p - 1)) :
    DecodesTo (ieeeWord s p eb 0 m) p eb s (m * 2 ^ (1 - ieeeBias eb - (p - 1 : Nat))) where
  lt := ieeeWord_lt s hp hm (Nat.two_pow_pos _)
  value := by
    have top : 0 ≠ 2 ^ eb - 1 := by have := Nat.one_lt_two_pow (by omega : eb ≠ 0); omega
    refine ⟨_, _, scale2_den_pos one_pos _ _, (ieeeDecode_word s hp (Nat.two_pow_pos _) hm).trans (by rw [if_neg top, if_pos rfl]), ?_⟩
    rw [scale2_rat]; simp

/-- The word of a rounded integer `r` of units 2^ue: subnormal below 2^(p-1), and with a carry into the exponent field at 2^p. -/
theorem decodesTo_rounded {r : Nat} {ue : ℤ} (hr : r ≤ 2 ^ p) (hsub : r < 2 ^ (p - 1) → ue = 1 - ieeeBias eb - (p - 1 : Nat))
    (hue : 1 - ieeeBias eb - (p - 1 : Nat) ≤ ue) (hfin : (r : ℚ) * 2 ^ ue < 2 ^ (ieeeBias eb + 1)) :
    DecodesTo (if r < 2 ^ (p - 1) then ieeeWord s p eb 0 r
      else ieeeWord s p eb (ue + (p - 1 : Nat) + ieeeBias eb).toNat (r - 2 ^ (p - 1))) p eb s (r * 2 ^ ue) := by
  have pow := Nat.two_pow_pred_mul_two (by omega : 0 < p)
  have top : (2 : ℤ) ^ eb = 2 * (ieeeBias eb + 1) := by
    rw [ieeeBias]; push_cast; rw [sub_add_cancel, ← pow_succ']; congr 1; omega
  have top' : ((2 ^ eb : Nat) : ℤ) = 2 * (ieeeBias eb + 1) := by exact_mod_cast top
  split
  case isTrue h => rw [hsub h]; exact decodesTo_subnormal s hp heb h
  case isFalse h =>
    obtain ⟨e, he⟩ := Int.eq_ofNat_of_zero_le (by omega : 0 ≤ ue + (p - 1 : Nat) + ieeeBias eb)
    rw [he, Int.toNat_natCast]
    -- The magnitude is at least 2^k units, so it bounds the exponent.
    have bound {k : Nat} (hk : 2 ^ k ≤ r) : k + ue < ieeeBias eb + 1 := by
      refine (zpow_lt_zpow_iff_right₀ (one_lt_two (α := ℚ))).1 (lt_of_le_of_lt ?_ hfin)
      rw [zpow_add₀ two_ne_zero, zpow_natCast]; gcongr; exact_mod_cast hk
    obtain hr | rfl := hr.lt_or_eq
    · have := bound (not_lt.1 h)
      have word := decodesTo_normal s hp (eb := eb) (e := e) (m := r - 2 ^ (p - 1)) (by omega) (by omega) (by omega)
      rwa [Nat.add_sub_cancel' (not_lt.1 h), show (e : ℤ) - ieeeBias eb - (p - 1 : Nat) = ue by omega] at word
    · have := bound le_rfl
      have word := decodesTo_normal s hp (eb := eb) (e := e + 1) (m := 0) (by omega) (by omega) (Nat.two_pow_pos _)
      rw [show ((e + 1 : Nat) : ℤ) - ieeeBias eb - (p - 1 : Nat) = 1 + ue by omega, zpow_one_add₀ two_ne_zero] at word
      convert word using 1
      · unfold ieeeWord; rw [← pow, Nat.succ_mul]; omega
      · rw [← pow]; push_cast; ring

end

/-! ### Rounding -/

/-- The exponent of the unit in the last place of a positive fraction. -/
def ieeeUnit (a b p eb : Nat) : ℤ := max (floorLog2 a b) (1 - ieeeBias eb) - (p - 1 : Nat)

/-- A positive fraction in units in the last place. -/
def ieeeUnits (a b p eb : Nat) : Nat × Nat := scale2 a b (-ieeeUnit a b p eb)

theorem ieeeUnits_spec (a p eb : Nat) {b : Nat} (hb : 0 < b) : 0 < (ieeeUnits a b p eb).2 ∧
    ((ieeeUnits a b p eb).1 : ℚ) / (ieeeUnits a b p eb).2 = (a : ℚ) / b * 2 ^ (-ieeeUnit a b p eb) :=
  ⟨scale2_den_pos hb a _, scale2_rat a b _⟩

/-- The flags of a rounding before overflow: inexact, and tiny before rounding. -/
def ieeeFlags (exact tiny : Prop) [Decidable exact] [Decidable tiny] : Flags :=
  (if exact then 0 else Flag.NX) ||| (if ¬ exact ∧ tiny then Flag.UF else 0)

/-- iround by cases: overflow, a subnormal and a normal result. -/
theorem iround_fin (s : Bool) {a : Nat} (b : Nat) {p eb : Nat} (ha : 0 < a) (z : Option Nat) :
    let x := ieeeUnits a b p eb
    let r := roundDiv x.1 x.2 z
    let fl := ieeeFlags (x.1 % x.2 = 0) (floorLog2 a b < 1 - ieeeBias eb)
    let ov := scale2 r 1 (ieeeUnit a b p eb - ieeeBias eb - 1)
    iround (.fin s a b) (p + eb) p eb z =
      if ov.2 ≤ ov.1 then (ieeeInf s (p + eb) p eb, fl ||| Flag.OF ||| Flag.NX)
      else (if r < 2 ^ (p - 1) then ieeeWord s p eb 0 r
        else ieeeWord s p eb (ieeeUnit a b p eb + (p - 1 : Nat) + ieeeBias eb).toNat (r - 2 ^ (p - 1)), fl) := by
  intro x r fl ov
  have sub : ieeeWord s p eb 0 r = (if s then 2 ^ (p + eb - 1) else 0) + r := by rw [ieeeWord, Nat.zero_mul, Nat.zero_add]
  rw [sub, apply_ite (Prod.mk · fl), iround, if_neg ha.ne']
  rfl

theorem xval_ieee {w p eb : Nat} (hw : w < 2 ^ (p + eb)) : (Fmt.ieee (p + eb) p eb).xval w = ieeeDecode w (p + eb) p eb := by
  rw [Fmt.xval, Nat.mod_eq_of_lt hw]

/-- What the rules say of a positive magnitude `x` that rounds to the word and flags `w` of an IEEE format: `m` and `t` are its
integer and its tail in units `u` in the last place, and `r` is the rounded integer. -/
structure IeeeRounded (p eb : Nat) (s : Bool) (x : ℚ) (z : Option Nat) (w : Nat × Flags) (m r : Nat) (t u : ℚ) : Prop where
  split : x = (m + t) * u
  steps : RoundsTo m r t z
  lt : w.1 < 2 ^ (p + eb)
  overflow : 2 ^ (ieeeBias eb + 1) ≤ r * u → (Fmt.ieee (p + eb) p eb).xval w.1 = (.inf s, 0)
  finite : r * u < 2 ^ (ieeeBias eb + 1) → ∃ n d : Nat, 0 < d ∧ (Fmt.ieee (p + eb) p eb).xval w.1 = (.fin s n d, 0) ∧ (n : ℚ) / d = r * u
  flags : w.2 = (if t = 0 then 0 else Flag.NX) ||| (if t ≠ 0 ∧ x < 2 ^ (1 - ieeeBias eb) then Flag.UF else 0) |||
    (if 2 ^ (ieeeBias eb + 1) ≤ r * u then Flag.OF ||| Flag.NX else 0)

section
variable {a b p eb : Nat} (ha : 0 < a) (hb : 0 < b)
include ha hb

/-- A positive fraction is tiny exactly when its binade lies below the least normal one. -/
theorem floorLog2_lt_iff (e : ℤ) : floorLog2 a b < e ↔ (a : ℚ) / b < 2 ^ e := by
  obtain ⟨ge, lt⟩ := floorLog2_spec ha hb
  refine ⟨fun h => lt.trans_le (zpow_le_zpow_right₀ one_le_two h), fun h => ?_⟩
  exact (zpow_lt_zpow_iff_right₀ (one_lt_two (α := ℚ))).1 (ge.trans_lt h)

/-- A fraction is less than 2^p units, and at least 2^(p-1) of them where it is not tiny. -/
theorem ieeeUnits_bounds (hp : 1 < p) (eb : Nat) : (a : ℚ) / b * 2 ^ (-ieeeUnit a b p eb) < 2 ^ p ∧
    (1 - ieeeBias eb ≤ floorLog2 a b → 2 ^ (p - 1) ≤ (a : ℚ) / b * 2 ^ (-ieeeUnit a b p eb)) := by
  obtain ⟨ge, lt⟩ := floorLog2_spec ha hb
  rw [zpow_neg, ← div_eq_mul_inv, div_lt_iff₀ (by positivity), le_div_iff₀ (by positivity), ← zpow_natCast, ← zpow_natCast,
    ← zpow_add₀ two_ne_zero, ← zpow_add₀ two_ne_zero]
  unfold ieeeUnit
  refine ⟨lt.trans_le (zpow_le_zpow_right₀ one_le_two (by omega)), fun h => ge.trans' (zpow_le_zpow_right₀ one_le_two (by omega))⟩

/-- The rounded integer has at most p bits or is 2^p, and has p bits where the fraction is not tiny. -/
theorem ieeeUnits_rounded (hp : 1 < p) (eb : Nat) (z : Option Nat) :
    let r := roundDiv (ieeeUnits a b p eb).1 (ieeeUnits a b p eb).2 z
    r ≤ 2 ^ p ∧ (1 - ieeeBias eb ≤ floorLog2 a b → 2 ^ (p - 1) ≤ r) := by
  intro r
  obtain ⟨lt, ge⟩ := ieeeUnits_bounds ha hb hp eb
  obtain ⟨pos, value⟩ := ieeeUnits_spec a p eb hb
  obtain ⟨cut, rounds⟩ := roundDiv_spec (ieeeUnits a b p eb).1 pos z
  obtain ⟨mr, rm⟩ := rounds.bounds
  obtain ⟨t0, t1, -⟩ := rounds
  rw [← value, cut] at lt ge
  generalize (ieeeUnits a b p eb).1 / (ieeeUnits a b p eb).2 = m at *
  refine ⟨?_, fun h => ?_⟩
  · have : (m : ℚ) < (2 ^ p : Nat) := by push_cast; linarith
    have : m < 2 ^ p := by exact_mod_cast this
    omega
  · have : ((2 ^ (p - 1) : Nat) : ℚ) < (m + 1 : Nat) := by push_cast; linarith [ge h]
    have : 2 ^ (p - 1) < m + 1 := by exact_mod_cast this
    omega

/-- Rounding a positive magnitude to an IEEE format (R64). -/
theorem iround_spec (hp : 1 < p) (heb : 1 < eb) (s : Bool) (z : Option Nat) : ∃ (m r : Nat) (t : ℚ),
    IeeeRounded p eb s ((a : ℚ) / b) z (iround (.fin s a b) (p + eb) p eb z) m r t (2 ^ ieeeUnit a b p eb) := by
  have word := iround_fin s b (p := p) (eb := eb) ha z
  obtain ⟨pos, value⟩ := ieeeUnits_spec a p eb hb
  obtain ⟨cut, rounds⟩ := roundDiv_spec (ieeeUnits a b p eb).1 pos z
  obtain ⟨le, ge⟩ := ieeeUnits_rounded ha hb hp eb z
  set ue := ieeeUnit a b p eb with hue
  set x := ieeeUnits a b p eb
  set r := roundDiv x.1 x.2 z
  have exact : ((x.1 % x.2 : Nat) : ℚ) / x.2 = 0 ↔ x.1 % x.2 = 0 := by
    rw [div_eq_zero_iff, Nat.cast_eq_zero, Nat.cast_eq_zero]; exact or_iff_left pos.ne'
  have past : (scale2 r 1 (ue - ieeeBias eb - 1)).2 ≤ (scale2 r 1 (ue - ieeeBias eb - 1)).1 ↔ (2 : ℚ) ^ (ieeeBias eb + 1) ≤ r * 2 ^ ue := by
    rw [scale2_den_le_iff one_pos, sub_sub, zpow_sub₀ two_ne_zero, Nat.cast_one, div_one, ← mul_div_assoc, one_le_div (by positivity)]
  have split : (a : ℚ) / b = ((x.1 / x.2 : Nat) + ((x.1 % x.2 : Nat) : ℚ) / x.2) * 2 ^ ue := by
    rw [← cut, value, mul_assoc, ← zpow_add₀ two_ne_zero, neg_add_cancel, zpow_zero, mul_one]
  refine ⟨x.1 / x.2, r, ((x.1 % x.2 : Nat) : ℚ) / x.2, ?_⟩
  by_cases h : (2 : ℚ) ^ (ieeeBias eb + 1) ≤ r * 2 ^ ue
  · obtain ⟨lt, inf⟩ := ieeeDecode_inf s eb hp
    rw [word.trans (if_pos (past.2 h))]
    refine ⟨split, rounds, lt, fun _ => by rw [xval_ieee lt, inf], fun hn => absurd h hn.not_ge, ?_⟩
    rw [if_pos h, ← BitVec.or_assoc]; simp only [ieeeFlags, exact, ne_eq, floorLog2_lt_iff ha hb]
  · obtain ⟨lt, fin⟩ := decodesTo_rounded s hp heb le (ue := ue) (fun hr => by unfold ieeeUnit at hue; omega) (by unfold ieeeUnit at hue; omega)
      (not_le.1 h)
    rw [word.trans (if_neg (mt past.1 h))]
    refine ⟨split, rounds, lt, fun hn => absurd hn h, fun _ => by rw [xval_ieee lt]; exact fin, ?_⟩
    rw [if_neg h]; simp only [ieeeFlags, exact, ne_eq, floorLog2_lt_iff ha hb, BitVec.ofNat_eq_ofNat, BitVec.or_zero]

end

end Sys2Proof
end

section
/-! Operations on exact values, rounding to an integer, and the statement on rounding once (spec/03_numbers.md R60, R65, R66;
spec/05_scalar_control.md R119, R120; spec/07_vector.md R185, R186). -/

namespace Sys2Proof

/-! ### Exact operations -/

/-- The operation has no flag, is defined, and its finite value is `q`. -/
def OpRes.IsExact (r : OpRes) (q : ℚ) : Prop :=
  r.flags = 0 ∧ r.undef = false ∧ ∃ (s : Bool) (n d : Nat), 0 < d ∧ r.val = .fin s n d ∧ r.val.rat = q

theorem OpRes.isExact_ofVal {s : Bool} {n d : Nat} {q : ℚ} (hd : 0 < d) (h : (Val.fin s n d).rat = q) : (OpRes.ofVal (.fin s n d)).IsExact q :=
  ⟨rfl, rfl, s, n, d, hd, rfl, h⟩

theorem OpRes.IsExact.rat {r : OpRes} {q : ℚ} (h : r.IsExact q) : r.val.rat = q := by
  obtain ⟨-, -, -, -, -, -, -, h⟩ := h; exact h

/-- A fraction of an integer under its own sign. -/
theorem Val.rat_natAbs {x : ℤ} {s : Bool} (h : x ≠ 0 → s = decide (x < 0)) (d : Nat) : (Val.fin s x.natAbs d).rat = (x : ℚ) / d := by
  have : (Val.fin s x.natAbs d).num = x := by
    by_cases h0 : x = 0
    · cases s <;> simp [Val.num, h0]
    · obtain hx | hx := lt_or_gt_of_ne h0
      · rw [h h0, decide_eq_true hx, Val.num, if_pos rfl]; omega
      · rw [h h0, decide_eq_false hx.not_gt, Val.num, if_neg Bool.false_ne_true]; omega
  rw [Val.rat, this]; rfl

theorem vrecip_isExact (ieee s : Bool) {n : Nat} (d : Nat) (hn : 0 < n) : (vrecip ieee (.fin s n d)).IsExact (1 / (Val.fin s n d).rat) := by
  rw [vrecip, if_neg hn.ne']
  refine OpRes.isExact_ofVal hn ?_
  cases s <;> simp [div_neg]

section
variable (s t u ieee : Bool) (n m k : Nat) {d e h : Nat} (hd : 0 < d) (he : 0 < e)
include hd

theorem vdiv_isExact (hm : 0 < m) : (vdiv ieee (.fin s n d) (.fin t m e)).IsExact ((Val.fin s n d).rat / (Val.fin t m e).rat) := by
  rw [vdiv, if_neg hm.ne']
  refine OpRes.isExact_ofVal (Nat.mul_pos hd hm) ?_
  have inv : (if t = true then (-1 : ℚ) else 1)⁻¹ = if t = true then -1 else 1 := by cases t <;> norm_num
  rw [Val.rat_fin, Val.rat_fin, Val.rat_fin, sign_xor, mul_div_mul_comm, div_div_div_eq, div_eq_mul_inv (if s = true then (-1 : ℚ) else 1), inv]
  push_cast; rfl

include he

theorem vadd_isExact : (vadd (.fin s n d) (.fin t m e)).IsExact ((Val.fin s n d).rat + (Val.fin t m e).rat) := by
  have hd' : (d : ℚ) ≠ 0 := by exact_mod_cast hd.ne'
  have he' : (e : ℚ) ≠ 0 := by exact_mod_cast he.ne'
  refine OpRes.isExact_ofVal (Nat.mul_pos hd he) ?_
  rw [Val.rat_natAbs (fun hx => if_neg hx), Val.rat, Val.rat, Val.den, Val.den, div_add_div _ _ hd' he']
  push_cast
  rw [mul_comm (d : ℚ) ((Val.fin t m e).num : ℚ)]

theorem vmul_isExact : (vmul (.fin s n d) (.fin t m e)).IsExact ((Val.fin s n d).rat * (Val.fin t m e).rat) := by
  refine OpRes.isExact_ofVal (Nat.mul_pos hd he) ?_
  rw [Val.rat_fin, Val.rat_fin, Val.rat_fin, sign_xor, mul_mul_mul_comm, div_mul_div_comm]
  push_cast; rfl

theorem vfma_isExact (hh : 0 < h) : (vfma (.fin s n d) (.fin t m e) (.fin u k h)).IsExact
    ((Val.fin s n d).rat * (Val.fin t m e).rat + (Val.fin u k h).rat) := by
  have sum := vadd_isExact (s != t) u (n * m) k (Nat.mul_pos hd he) hh
  rw [show (Val.fin (s != t) (n * m) (d * e)).rat = _ from (vmul_isExact s t n m hd he).rat] at sum
  obtain ⟨hf, -, hv⟩ := sum
  exact ⟨by simpa [vfma, vmul, OpRes.ofVal] using hf, rfl, hv⟩

end

/-! ### Integers -/

theorem intMin_eq (s : Bool) (w : Nat) : intMin s w = if s then -2 ^ (w - 1) else 0 := by unfold intMin; push_cast; rfl
theorem intMax_eq (s : Bool) (w : Nat) : intMax s w = if s then 2 ^ (w - 1) - 1 else 2 ^ w - 1 := by unfold intMax; push_cast; rfl

theorem intMin_le_intMax (s : Bool) (w : Nat) : intMin s w ≤ intMax s w := by
  have pos (k : Nat) : (0 : ℤ) < (2 ^ k : Nat) := by exact_mod_cast Nat.two_pow_pos k
  have := pos w
  have := pos (w - 1)
  unfold intMin intMax; split <;> omega

/-- nround of a finite value: the nearest even integer, saturated (R65). -/
theorem nround_fin (sg s : Bool) (n a b : Nat) :
    let i : ℤ := if s then -(roundDiv a b none : ℤ) else roundDiv a b none
    nround (.fin s a b) sg n = (intWord (max (intMin sg n) (min (intMax sg n) i)) n, if intMin sg n ≤ i ∧ i ≤ intMax sg n then 0 else Flag.RANGE) := by
  intro i
  have le := intMin_le_intMax sg n
  change (if intMax sg n < i then (intWord (intMax sg n) n, Flag.RANGE)
    else if i < intMin sg n then (intWord (intMin sg n) n, Flag.RANGE) else (intWord i n, 0)) = _
  split
  case isTrue h => rw [min_eq_left h.le, max_eq_right le, if_neg fun h' => h'.2.not_gt h]
  case isFalse h =>
    rw [not_lt] at h
    rw [min_eq_right h]
    split
    case isTrue h' => rw [max_eq_left h'.le, if_neg fun hi => hi.1.not_gt h']
    case isFalse h' => rw [max_eq_right (not_lt.1 h'), if_pos ⟨not_lt.1 h', h⟩]

theorem intWord_eq (i : ℤ) (n : Nat) : intWord i n = (i % 2 ^ n).toNat := by unfold intWord; push_cast; rfl

/-! ### Delivery -/

theorem OpRes.deliver_undef {r : OpRes} (h : r.undef = true) (ieee : Bool) (D : Fmt) (z : Option Nat) :
    r.deliver ieee D z = ((D.rnd .nan none).1, if D.isInt then Flag.NV else Flag.INV) := by
  rw [deliver, if_pos h]
  cases D <;> rfl

theorem OpRes.deliver_ieee {r : OpRes} (h : r.undef = false) (D : Fmt) (z : Option Nat) :
    r.deliver true D z = ((D.rnd r.val z).1, (D.rnd r.val z).2 ||| r.flags) := by
  rw [deliver, h]; rfl

end Sys2Proof

namespace Sys2Proof.Machine

/-! ### The statement -/

theorem ieeeBias_eq (eb : Nat) : ieeeBias eb = 2 ^ (eb - 1) - 1 := by unfold ieeeBias; push_cast; rfl

/-- The exponent of the unit in the last place, as the statement writes it. -/
theorem ieeeUnit_eq (a b : Nat) {p eb : Nat} (hp : 1 < p) :
    ieeeUnit a b p eb = max (floorLog2 a b) (1 - (2 ^ (eb - 1) - 1)) - p + 1 := by
  rw [ieeeUnit, ieeeBias_eq]; push_cast [Nat.cast_sub hp.le]; ring

/-- Settles O14: the exact operations are those of the rationals; the model rounds one quotient of naturals by its remainder, in units in the
last place for an IEEE format and in bits of the unbounded string for a tapered one. -/
theorem roundedOnce : Obligations.RoundedOnce := by
  refine ⟨?operations, ?ieee, ?tapered, ?integers, fun r ieee D z => ⟨fun h => r.deliver_undef h ieee D z, ?delivered⟩⟩
  case operations =>
    intro s t n d m e k h u ieee hd he hh
    exact ⟨vadd_isExact s t n m hd he, vmul_isExact s t n m hd he, vdiv_isExact s t ieee n m hd, vfma_isExact s t u n m k hd he hh,
      vrecip_isExact ieee s d⟩
  case ieee =>
    intro F hF s a b z ha hb
    obtain ⟨p, eb, hp, heb, rfl⟩ : ∃ p eb, 1 < p ∧ 1 < eb ∧ F = (p + eb, p, eb) := by
      simp only [List.mem_cons, List.not_mem_nil, or_false] at hF
      obtain rfl | rfl | rfl := hF
      · exact ⟨24, 8, by decide, by decide, rfl⟩
      · exact ⟨8, 8, by decide, by decide, rfl⟩
      · exact ⟨11, 5, by decide, by decide, rfl⟩
    obtain ⟨ge, lt⟩ := floorLog2_spec ha hb
    obtain ⟨m, r, t, split, steps, low, overflow, finite, flags⟩ := iround_spec ha hb hp heb s z
    rw [ieeeUnit_eq a b hp] at split overflow finite flags
    rw [ieeeBias_eq] at overflow finite flags
    exact ⟨floorLog2 a b, m, r, t, ge, lt, split, steps, low, overflow, finite, flags⟩
  case tapered =>
    intro n hn es hes z
    have two : 2 ≤ n := by fin_cases hn <;> decide
    have pow : 2 ^ (n - 1) < 2 ^ n := Nat.pow_lt_pow_right (by decide) (by omega)
    refine ⟨?zero, ?nar, rfl, fun s b => tround_zero n es z s b, ?words, ?magnitudes⟩
    case zero => simp [Fmt.xval, tdecode]
    case nar => simp [Fmt.xval, tdecode, Nat.mod_eq_of_lt pow]
    case words =>
      intro w h0 hw
      have low : (Fmt.tap n es).xval w = (tdecode w n es, 0) := by rw [Fmt.xval, Nat.mod_eq_of_lt (hw.trans pow)]
      rw [low]
      refine ⟨?_, tdecode_fields es two h0 hw⟩
      rw [Fmt.xval, Nat.mod_eq_of_lt (Nat.sub_lt (Nat.two_pow_pos n) h0), tdecode_two_pow_sub h0 hw two]
    case magnitudes =>
      intro a b ha hb
      refine ⟨tround_neg n es z ha, tround_above n es z ha hb, tround_below n es z ha hb, fun hl hh => ?_⟩
      obtain ⟨k, e, f, m, t, he, hf, hf1, real, string, rounds⟩ := troundMag_spec ha hb n es z
      exact ⟨k, e, f, m, _, t, he, hf, hf1, real, string, rounds, tround_within n es z ha hb hl hh⟩
  case integers =>
    intro n sg s a b z hn hb
    obtain ⟨cut, rounds⟩ := roundDiv_spec a hb none
    refine ⟨_, _, _, cut, rounds, ?_⟩
    have word := nround_fin sg s n a b
    simp only [intWord_eq, intMin_eq, intMax_eq] at word
    exact word
  case delivered =>
    rintro h rfl
    exact r.deliver_ieee h D z

end Sys2Proof.Machine
end

section
/-! The range of every format: finite values are multiples of 2^-B and at most 2^B, for a bound B of the format's view, so that single
values and products are whole numbers of LSBs (spec/03_numbers.md R57, R63, R68, R70). -/

namespace Sys2Proof

/-- A finite value is a multiple of 2^-B and at most 2^B in magnitude. -/
def Val.Within (B : Nat) : Val → Prop
  | .fin _ n d => 0 < d ∧ d ∣ 2 ^ B ∧ n ≤ d * 2 ^ B
  | _ => True

theorem Val.Within.mono {B C : Nat} {v : Val} (h : v.Within B) (hBC : B ≤ C) : v.Within C := by
  cases v with
  | fin s n d =>
    obtain ⟨hd, dvd, le⟩ := h
    exact ⟨hd, dvd.trans (pow_dvd_pow 2 hBC), le.trans (Nat.mul_le_mul_left d (Nat.pow_le_pow_right two_pos hBC))⟩
  | _ => trivial

/-! ### Tapered words -/

/-- A tapered word other than NaR is a finite value within 2^top (R57). -/
theorem tdecode_fin {w n : Nat} (es : Nat) (hn : 2 ≤ n) (hw : w < 2 ^ n) (hne : w ≠ 2 ^ (n - 1)) :
    ∃ s a b, tdecode w n es = .fin s a b ∧ (Val.fin s a b).Within (2 ^ es * (n - 2)) := by
  have low {w : Nat} (h0 : 0 < w) (hw : w < 2 ^ (n - 1)) : (Val.fin false (tapMag w n es).1 (tapMag w n es).2).Within (2 ^ es * (n - 2)) := by
    obtain ⟨k, r, u, h⟩ := exists_hasRegime es hn h0 hw
    obtain ⟨dvd, le⟩ := h.range hn
    exact ⟨h.mag ▸ tapFraction_den_pos es k r u, dvd, le⟩
  have pow := Nat.two_pow_pred_add_two_pow_pred (by omega : 0 < n)
  obtain rfl | h0 := Nat.eq_zero_or_pos w
  · exact ⟨false, 0, 1, if_pos rfl, one_pos, one_dvd _, Nat.zero_le _⟩
  obtain lt | gt := Nat.lt_or_gt_of_ne hne
  · exact ⟨_, _, _, tdecode_of_lt h0 lt es, low h0 lt⟩
  · have h0' : 0 < 2 ^ n - w := by omega
    have lt : 2 ^ n - w < 2 ^ (n - 1) := by omega
    have value := tdecode_two_pow_sub h0' lt hn es
    rw [Nat.sub_sub_self hw.le, tdecode_of_lt h0' lt] at value
    exact ⟨_, _, _, value, low h0' lt⟩

theorem tdecode_within {w n : Nat} (es : Nat) (hn : 2 ≤ n) (hw : w < 2 ^ n) : (tdecode w n es).Within (2 ^ es * (n - 2)) := by
  by_cases h : w = 2 ^ (n - 1)
  · have : tdecode w n es = .nan := by rw [tdecode, if_neg (by rw [h]; exact (Nat.two_pow_pos _).ne'), if_pos h]
    rw [this]; trivial
  · obtain ⟨s, a, b, value, within⟩ := tdecode_fin es hn hw h
    rwa [value]

/-! ### IEEE words -/

/-- A significand below 2^p scaled by 2^e. -/
theorem scale2_within (s : Bool) {m p B : Nat} {e : ℤ} (hm : m < 2 ^ p) (low : -B ≤ e) (high : e + p ≤ B) :
    (Val.fin s (scale2 m 1 e).1 (scale2 m 1 e).2).Within B := by
  have pos := scale2_den_pos one_pos m e
  refine ⟨pos, scale2_den_dvd (p := 0) (Nat.zero_le B) (by omega), ?_⟩
  suffices ((scale2 m 1 e).1 : ℚ) / (scale2 m 1 e).2 ≤ 2 ^ B by
    rw [div_le_iff₀ (by exact_mod_cast pos), mul_comm] at this; exact_mod_cast this
  calc ((scale2 m 1 e).1 : ℚ) / (scale2 m 1 e).2 = m * 2 ^ e := by rw [scale2_rat, Nat.cast_one, div_one]
    _ ≤ 2 ^ (p : ℤ) * 2 ^ e := by gcongr; exact_mod_cast hm.le
    _ = 2 ^ (e + p) := by rw [← zpow_add₀ two_ne_zero, add_comm]
    _ ≤ 2 ^ (B : ℤ) := zpow_le_zpow_right₀ one_le_two high
    _ = 2 ^ B := zpow_natCast 2 B

theorem ieeeDecode_within {p eb B : Nat} (w bits : Nat) (hp : 1 < p) (heb : 1 < eb) (low : ieeeBias eb + p - 2 ≤ B) (high : ieeeBias eb + 1 ≤ B) :
    (ieeeDecode w bits p eb).1.Within B := by
  have pow := Nat.two_pow_pred_add_two_pow_pred (by omega : 0 < p)
  have top : ((2 ^ eb : Nat) : ℤ) = 2 * (ieeeBias eb + 1) := by
    rw [ieeeBias, sub_add_cancel]; push_cast; rw [← pow_succ']; congr 1; omega
  have mant : w % 2 ^ (p - 1) < 2 ^ (p - 1) := Nat.mod_lt _ (Nat.two_pow_pos _)
  have exp : w / 2 ^ (p - 1) % 2 ^ eb < 2 ^ eb := Nat.mod_lt _ (Nat.two_pow_pos _)
  have bias : ((2 ^ (eb - 1) : Nat) : ℤ) - 1 = ieeeBias eb := rfl
  have two : 1 < 2 ^ (eb - 1) := Nat.one_lt_two_pow (by omega)
  simp only [ieeeDecode, bias]
  split
  case isTrue => split <;> trivial
  case isFalse hmax =>
    split
    case isTrue => exact scale2_within _ (p := p) (by omega) (by omega) (by omega)
    case isFalse h0 => exact scale2_within _ (p := p) (by omega) (by omega) (by omega)

/-! ### Integers -/

theorem intDecode_within {w n : Nat} (s : Bool) (hw : w < 2 ^ n) : (Val.ofInt (intDecode w s n)).Within n := by
  refine ⟨one_pos, one_dvd _, ?_⟩
  rw [one_mul, intDecode]
  split <;> omega

/-! ### Formats -/

/-- The bound of the values whose products belong to a view. -/
def viewBound (v : Nat) : Nat := 64 * 2 ^ v - 16

theorem viewBound_mono {v u : Nat} (h : v ≤ u) : viewBound v ≤ viewBound u :=
  Nat.sub_le_sub_right (Nat.mul_le_mul_left 64 (Nat.pow_le_pow_right two_pos h)) 16

/-- A product of two values of a view reaches its LSB at most, and leaves 31 bits to spare below its sign. -/
theorem viewBound_product (v : Nat) : 2 * viewBound v ≤ viewBits v / 2 ∧ 2 * viewBound v + viewBits v / 2 = viewBits v - 32 := by
  have := Nat.two_pow_pos v
  unfold viewBound viewBits; omega

/-- The values of every format are within the bound of its view. -/
theorem Fmt.xval_within {c : Nat} {F : Fmt} (h : Fmt.ofCode c = some F) (x : Nat) : (F.xval x).1.Within (viewBound F.view) := by
  have tap {n es : Nat} (hn : 2 ≤ n) (hB : 2 ^ es * (n - 2) ≤ viewBound (Fmt.tap n es).view) :
      ((Fmt.tap n es).xval x).1.Within (viewBound (Fmt.tap n es).view) :=
    (tdecode_within es hn (Nat.mod_lt x (Nat.two_pow_pos n))).mono hB
  have ieee {bits p eb : Nat} (hp : 1 < p) (heb : 1 < eb) (low : ieeeBias eb + p - 2 ≤ 240) (high : ieeeBias eb + 1 ≤ 240) :
      ((Fmt.ieee bits p eb).xval x).1.Within 240 := ieeeDecode_within _ bits hp heb low high
  have int {s : Bool} {n : Nat} (hn : n ≤ 48) : ((Fmt.int s n).xval x).1.Within 48 :=
    (intDecode_within s (Nat.mod_lt x (Nat.two_pow_pos n))).mono hn
  unfold Fmt.ofCode at h
  split at h <;> cases h
  iterate 14 exact tap (by decide) (by decide)
  iterate 3 exact ieee (by decide) (by decide) (by decide) (by decide)
  iterate 6 exact int (by decide)

end Sys2Proof
end

section
/-! Quires: their words, sums, products, scaling and rounding, block elements and the folded entries of the block plane, and the statement on
their values (spec/03_numbers.md R62, R69-R74; spec/07_vector.md R191, R192; spec/08_matrix_copy.md R219). -/

namespace Sys2Proof

/-! ### The words of a quire (R69) -/

/-- The word of an integer is its two's complement. -/
theorem quireWord_cast (W : Nat) (i : ℤ) : (quireWord W (some i) : ℤ) = i % 2 ^ W := by
  have pos : (0 : ℤ) < 2 ^ W := by positivity
  rw [quireWord, intWord]; push_cast
  exact Int.toNat_of_nonneg (Int.emod_nonneg i pos.ne')

theorem quireWord_lt (W : Nat) (i : ℤ) : quireWord W (some i) < 2 ^ W := by
  have := quireWord_cast W i
  have := Int.emod_lt_of_pos i (show (0 : ℤ) < 2 ^ W by positivity)
  zify; omega

theorem qadd_some (W : Nat) (a b : ℤ) : qadd W (some a) (some b) = if |a + b| ≤ 2 ^ (W - 1) - 1 then (some (a + b), 0) else (none, Flag.QOVF) := by
  have half : ((2 ^ (W - 1) : Nat) : ℤ) = 2 ^ (W - 1) := by push_cast; rfl
  have out : ((2 ^ (W - 1) : Nat) : ℤ) - 1 < a + b ∨ a + b < -(((2 ^ (W - 1) : Nat) : ℤ) - 1) ↔ ¬ |a + b| ≤ 2 ^ (W - 1) - 1 := by
    rw [abs_le]; omega
  rw [qadd]
  by_cases h : |a + b| ≤ 2 ^ (W - 1) - 1
  · rw [if_pos h]; exact if_neg (mt out.1 (not_not.2 h))
  · rw [if_neg h]; exact if_pos (out.2 h)

theorem quireWord_quireInt {W w : Nat} (hw : w < 2 ^ W) : quireWord W (quireInt W w) = w := by
  unfold quireInt
  split
  case isTrue h => exact h.symm
  case isFalse h =>
    rw [quireWord, intWord]
    split
    case isTrue hge => rw [Int.sub_emod_right, ← Int.natCast_mod, Int.toNat_natCast, Nat.mod_eq_of_lt hw]
    case isFalse => rw [← Int.natCast_mod, Int.toNat_natCast, Nat.mod_eq_of_lt hw]

theorem quireInt_quireWord {W : Nat} (hW : 0 < W) {i : ℤ} (hl : -2 ^ (W - 1) < i) (hh : i < 2 ^ (W - 1)) : quireInt W (quireWord W (some i)) = some i := by
  have pow : (2 : ℤ) ^ (W - 1) * 2 = 2 ^ W := by exact_mod_cast Nat.two_pow_pred_mul_two hW
  have word := quireWord_cast W i
  have half : ((2 ^ (W - 1) : Nat) : ℤ) = 2 ^ (W - 1) := by push_cast; rfl
  obtain h | h := lt_or_ge i 0
  · rw [← Int.add_emod_right, Int.emod_eq_of_lt (by omega) (by omega)] at word
    rw [quireInt, if_neg (by omega), if_pos (by omega), word]; push_cast; ring_nf
  · rw [Int.emod_eq_of_lt h (by omega)] at word
    rw [quireInt, if_neg (by omega), if_neg (by omega), word]

theorem qadd_none_left (W : Nat) (q : Option ℤ) : qadd W none q = (none, 0) := rfl
theorem qadd_none_right (W : Nat) (q : Option ℤ) : qadd W q none = (none, 0) := by cases q <;> rfl

/-! ### Products and single values (R70, R191) -/

theorem quireProduct_nan_left {b : Val} (h : b.isInf = false) : quireProduct .nan b = (.nan, 0) := by
  cases b with
  | inf t => cases h
  | _ => rfl

theorem quireProduct_nan_right {b : Val} (h : b.isInf = false) : quireProduct b .nan = (.nan, 0) := by
  cases b with
  | inf t => cases h
  | _ => rfl

theorem quireProduct_inf_left (s : Bool) (b : Val) : quireProduct (.inf s) b = (.nan, Flag.INV) := by
  rw [quireProduct]; simp [Val.isInf]

theorem quireProduct_inf_right (s : Bool) (b : Val) : quireProduct b (.inf s) = (.nan, Flag.INV) := by
  rw [quireProduct]; simp [Val.isInf]

theorem quireTerm_of_not_inf {b : Val} (h : b.isInf = false) : quireTerm b = (b, 0) := by rw [quireTerm, h]; rfl

theorem Val.exists_fin {v : Val} (hn : v.isNan = false) (hi : v.isInf = false) : ∃ s n d, v = .fin s n d := by
  cases v with
  | fin s n d => exact ⟨s, n, d, rfl⟩
  | inf s => cases hi
  | nan => cases hn

/-- A finite value whose denominator divides the weight of an LSB is a whole number of LSBs. -/
theorem toQuire_fin {s : Bool} {n d W : Nat} (hd : 0 < d) (h : d ∣ 2 ^ (W / 2)) :
    ∃ q : ℤ, (Val.fin s n d).toQuire W = some q ∧ (q : ℚ) = (Val.fin s n d).rat * 2 ^ (W / 2) := by
  have hd' : (d : ℚ) ≠ 0 := by exact_mod_cast hd.ne'
  have nat : ((n * 2 ^ (W / 2) / d : Nat) : ℚ) = (n : ℚ) / d * 2 ^ (W / 2) := by
    rw [Nat.cast_div (h.mul_left n) hd', div_mul_eq_mul_div]; push_cast; rfl
  refine ⟨_, rfl, ?_⟩
  cases s
  · rw [if_neg Bool.false_ne_true, Val.rat_false, ← nat]; rfl
  · rw [if_pos rfl, Val.rat_true, neg_mul, ← nat, Int.cast_neg]; rfl

/-- A value within a bound is a whole number of LSBs of any view whose LSB is at most 2^-B. -/
theorem Val.Within.toQuire {B W : Nat} {v : Val} (h : v.Within B) (hn : v.isNan = false) (hi : v.isInf = false) (hB : B ≤ W / 2) :
    ∃ q : ℤ, v.toQuire W = some q ∧ (q : ℚ) = v.rat * 2 ^ (W / 2) := by
  obtain ⟨s, n, d, rfl⟩ := v.exists_fin hn hi
  exact toQuire_fin h.1 (h.2.1.trans (pow_dvd_pow 2 hB))

theorem Val.Within.abs_rat {B : Nat} {v : Val} (h : v.Within B) : |v.rat| ≤ 2 ^ B := by
  cases v with
  | fin s n d =>
    obtain ⟨hd, -, le⟩ := h
    rw [Val.abs_rat, div_le_iff₀ (by exact_mod_cast hd), mul_comm]; exact_mod_cast le
  | _ => simp [Val.rat, Val.num]

/-- A product of values within a bound is a whole number of LSBs, with room below the range. -/
theorem quireProduct_toQuire {B W : Nat} {a b : Val} (ha : a.Within B) (hb : b.Within B) (han : a.isNan = false) (hai : a.isInf = false)
    (hbn : b.isNan = false) (hbi : b.isInf = false) (hB : 2 * B ≤ W / 2) :
    ∃ q : ℤ, (quireProduct a b).1.toQuire W = some q ∧ (q : ℚ) = a.rat * b.rat * 2 ^ (W / 2) ∧ |q| ≤ 2 ^ (2 * B + W / 2) := by
  have la := ha.abs_rat
  have lb := hb.abs_rat
  obtain ⟨s, n, d, rfl⟩ := a.exists_fin han hai
  obtain ⟨t, m, e, rfl⟩ := b.exists_fin hbn hbi
  obtain ⟨hd, dvd, -⟩ := ha
  obtain ⟨he, dvd', -⟩ := hb
  obtain ⟨q, quire, value⟩ := toQuire_fin (s := s != t) (n := n * m) (Nat.mul_pos hd he)
    ((Nat.mul_dvd_mul dvd dvd').trans (by rw [← pow_add, ← two_mul]; exact pow_dvd_pow 2 hB))
  rw [show (Val.fin (s != t) (n * m) (d * e)).rat = _ from (vmul_isExact s t n m hd he).rat] at value
  refine ⟨q, quire, value, ?_⟩
  suffices (|q| : ℚ) ≤ 2 ^ (2 * B + W / 2) by exact_mod_cast this
  calc (|q| : ℚ) = |(Val.fin s n d).rat| * |(Val.fin t m e).rat| * 2 ^ (W / 2) := by
        rw [value, abs_mul, abs_mul, abs_of_pos (by positivity : (0 : ℚ) < 2 ^ (W / 2))]
    _ ≤ 2 ^ B * 2 ^ B * 2 ^ (W / 2) := by gcongr
    _ = 2 ^ (2 * B + W / 2) := by rw [pow_add, two_mul, pow_add]

/-! ### Multiplying by a power of two (R192) -/

theorem floor_mul_zpow (i k : ℤ) : ⌊(i : ℚ) * 2 ^ k⌋ = if 0 ≤ k then i * (2 ^ k.toNat : Nat) else i.fdiv (2 ^ (-k).toNat : Nat) := by
  split
  case isTrue h =>
    obtain ⟨m, rfl⟩ := Int.eq_ofNat_of_zero_le h
    rw [zpow_natCast, Int.toNat_natCast]; exact_mod_cast Int.floor_intCast (i * 2 ^ m)
  case isFalse h =>
    obtain ⟨m, hm⟩ := Int.eq_ofNat_of_zero_le (by omega : 0 ≤ -k)
    obtain rfl : k = -m := by omega
    rw [Int.fdiv_eq_ediv_of_nonneg _ (Int.natCast_nonneg _), ← Rat.floor_intCast_div_natCast, neg_neg, Int.toNat_natCast, zpow_neg, zpow_natCast,
      div_eq_mul_inv]
    push_cast; rfl

/-! ### Rounding (R74) -/

theorem Val.rat_plusZero (v : Val) : v.plusZero.rat = v.rat := by
  cases v with
  | fin s n d =>
    by_cases h : n = 0
    · simp [Val.plusZero, Val.rat_fin, h]
    · have : (n != 0) = true := bne_iff_ne.2 h
      rw [Val.plusZero, this, Bool.and_true]
  | _ => rfl

theorem qround_nan (W : Nat) (q : Option ℤ) (D : Fmt) (z : Option Nat) : qround W q .nan D z = D.rnd .nan z := by cases q <;> rfl

/-- qround rounds the exact product of the quire's value and the scale, with +0 for a zero. -/
theorem qround_some (W : Nat) (i : ℤ) (s : Bool) (n : Nat) {d : Nat} (hd : 0 < d) (D : Fmt) (z : Option Nat) : ∃ (u : Bool) (m e : Nat),
    0 < e ∧ (m = 0 → u = false) ∧ (Val.fin u m e).rat = i * (Val.fin s n d).rat / 2 ^ (W / 2) ∧
      qround W (some i) (.fin s n d) D z = D.rnd (.fin u m e) z := by
  refine ⟨_, _, _, Nat.mul_pos (Nat.two_pow_pos (W / 2)) hd, fun h => ?_, ?_, rfl⟩
  · rw [h]; exact Bool.and_false _
  · have magnitude : (Val.fin (decide (i < 0)) i.natAbs (2 ^ (W / 2))).rat = i / 2 ^ (W / 2) := by
      rw [Val.rat_natAbs fun _ => rfl]; push_cast; rfl
    have product := (vmul_isExact (decide (i < 0)) s i.natAbs n (Nat.two_pow_pos (W / 2)) hd).rat
    rw [magnitude] at product
    rw [mul_div_right_comm, ← product]
    exact Val.rat_plusZero (.fin (decide (i < 0) != s) (i.natAbs * n) (2 ^ (W / 2) * d))

/-! ### Blocks (R62, R219) -/

theorem e8Reserved_iff (e : Nat) : e8Reserved e = true ↔ e < 0x20 ∨ (0xDF < e ∧ e ≠ 0xFF) := by simp [e8Reserved]

theorem bdecode_reserved {e8 : Nat} (w es : Nat) (h : e8 < 0x20 ∨ (0xDF < e8 ∧ e8 ≠ 0xFF)) : bdecode w e8 es = (.nan, Flag.INV) := by
  rw [bdecode, if_neg (by omega), if_pos ((e8Reserved_iff e8).2 h)]

/-- An element of a block with a legal exponent byte. -/
theorem bdecode_fin {w e8 : Nat} (es : Nat) (hl : 0x20 ≤ e8) (hh : e8 ≤ 0xDF) (hw : w % 16 ≠ 8) : ∃ (s : Bool) (n d : Nat),
    0 < d ∧ bdecode w e8 es = (.fin s n d, 0) ∧ (Val.fin s n d).rat = ((Fmt.tap 4 es).xval w).1.rat * (2 : ℚ) ^ ((e8 : ℤ) - 127) := by
  have legal : ¬ e8Reserved e8 = true := by rw [e8Reserved_iff]; omega
  obtain ⟨s, a, b, value, hb, -, -⟩ := tdecode_fin (n := 4) es (by decide) (Nat.mod_lt w (by decide)) hw
  have scaled := scale2_rat a b (e8 - 127)
  refine ⟨s, (scale2 a b (e8 - 127)).1, (scale2 a b (e8 - 127)).2, scale2_den_pos hb a _, ?_, ?_⟩
  · rw [bdecode, if_neg (by omega), if_neg legal, show w % 16 = w % 2 ^ 4 from rfl, value]
  · rw [Fmt.xval, value, Val.rat_fin, Val.rat_fin, scaled, mul_assoc]

theorem bdecode_nar {w e8 : Nat} (es : Nat) (hl : 0x20 ≤ e8) (hh : e8 ≤ 0xDF) (hw : w % 16 = 8) : bdecode w e8 es = (.nan, 0) := by
  have legal : ¬ e8Reserved e8 = true := by rw [e8Reserved_iff]; omega
  rw [bdecode, if_neg (by omega), if_neg legal, hw]; rfl

end Sys2Proof

namespace Sys2Proof.Machine

/-! ### Sums (R191) -/

theorem optAdd_none_right (x : Option ℤ) : optAdd x none = none := by cases x <;> rfl

theorem sumTerms_succ (act : Nat → Bool) (term : Nat → VF) (n : Nat) : sumTerms act term (n + 1) =
    if act n then (optAdd (sumTerms act term n).1 ((term n).1.toQuire 1024), (sumTerms act term n).2 ||| (term n).2) else sumTerms act term n := rfl

section
variable {act : Nat → Bool} {term : Nat → VF} {n : Nat}

/-- Without a NaR the sum is that of the active terms. -/
theorem sumTerms_some (h : ∀ e < n, act e = true → (term e).1.toQuire 1024 ≠ none) :
    (sumTerms act term n).1 = some (((List.range n).map fun e => if act e then ((term e).1.toQuire 1024).getD 0 else 0).sum) := by
  induction n with
  | zero => rfl
  | succ n ih =>
    rw [sumTerms_succ, List.range_succ, List.map_append, List.sum_append, List.map_singleton, List.sum_singleton]
    have ih := ih fun e he => h e (by omega)
    by_cases ha : act n = true
    · obtain ⟨q, hq⟩ := Option.ne_none_iff_exists'.1 (h n (Nat.lt_succ_self n) ha)
      rw [if_pos ha, if_pos ha, ih, hq]; rfl
    · rw [if_neg ha, if_neg ha, ih, add_zero]

/-- One active NaR makes the sum NaR. -/
theorem sumTerms_none (h : ∃ e < n, act e = true ∧ (term e).1.toQuire 1024 = none) : (sumTerms act term n).1 = none := by
  induction n with
  | zero => obtain ⟨e, he, -⟩ := h; omega
  | succ n ih =>
    obtain ⟨e, he, ha, hq⟩ := h
    rw [sumTerms_succ]
    obtain he | rfl := Nat.lt_succ_iff_lt_or_eq.1 he
    · have ih := ih ⟨e, he, ha, hq⟩
      split
      · rw [ih]; rfl
      · exact ih
    · rw [if_pos ha, hq]; exact optAdd_none_right _

/-- The flags are those of the active terms. -/
theorem sumTerms_flags (i : Nat) : (sumTerms act term n).2.getLsbD i = true ↔ ∃ e < n, act e = true ∧ (term e).2.getLsbD i = true := by
  induction n with
  | zero => simp [sumTerms]
  | succ n ih =>
    have split : (∃ e < n + 1, act e = true ∧ (term e).2.getLsbD i = true) ↔
        (∃ e < n, act e = true ∧ (term e).2.getLsbD i = true) ∨ (act n = true ∧ (term n).2.getLsbD i = true) := by
      simp only [Nat.lt_succ_iff_lt_or_eq, or_and_right, exists_or, exists_eq_left]
    rw [sumTerms_succ, split]
    by_cases ha : act n = true
    · rw [if_pos ha, BitVec.getLsbD_or, Bool.or_eq_true, ih]; simp only [ha, true_and]
    · rw [if_neg ha, ih]; simp only [ha, false_and, or_false, Bool.false_eq_true]

end

/-! ### Scaling a quire (R192) -/

theorem scaleQuire_some {q : QReg} {i : ℤ} (h : quireInt 1024 q.toNat = some i) (k : ℤ) :
    let r := qadd 1024 (some 0) (some ⌊(i : ℚ) * 2 ^ k⌋)
    scaleQuire q k = (BitVec.ofNat 1024 (quireWord 1024 r.1), r.2) := by
  simp only [scaleQuire, h, floor_mul_zpow]

/-! ### Folding the block plane (R219) -/

theorem foldValue_barred {ea eb : Nat} :
    (e8Reserved ea || e8Reserved eb || ea == 0xFF || eb == 0xFF) = true ↔ (ea < 0x20 ∨ 0xDF < ea) ∨ (eb < 0x20 ∨ 0xDF < eb) := by
  simp only [Bool.or_eq_true, e8Reserved_iff, beq_iff_eq]; omega

theorem quireInt_eq_none {W w : Nat} : quireInt W w = none ↔ w = 2 ^ (W - 1) := by
  by_cases h : w = 2 ^ (W - 1)
  · exact iff_of_true (if_pos h) h
  · rw [quireInt, if_neg h]; exact iff_of_false (Option.some_ne_none _) h

theorem foldValue_eq_none {entry ea eb : Nat} :
    foldValue entry ea eb = none ↔ (ea < 0x20 ∨ 0xDF < ea) ∨ (eb < 0x20 ∨ 0xDF < eb) ∨ entry = 2 ^ 31 := by
  rw [← or_assoc, ← foldValue_barred, foldValue]
  split
  case isTrue h => simp only [h, true_or]
  case isFalse h =>
    rw [or_iff_right h, ← quireInt_eq_none (W := 32)]
    cases quireInt 32 entry with
    | none => exact iff_of_true rfl rfl
    | some v => exact iff_of_false (Option.some_ne_none _) (Option.some_ne_none _)

/-- A folded entry is exact: the two scales are at least 2^-95, so no bit falls below the LSB. -/
theorem foldValue_some {entry ea eb : Nat} {v : ℤ} (hv : quireInt 32 entry = some v)
    (ha : ¬ (ea < 0x20 ∨ 0xDF < ea)) (hb : ¬ (eb < 0x20 ∨ 0xDF < eb)) :
    ∃ q : ℤ, foldValue entry ea eb = some q ∧
      (q : ℚ) = v * (2 : ℚ) ^ (-8 : ℤ) * (2 : ℚ) ^ ((ea : ℤ) - 127) * (2 : ℚ) ^ ((eb : ℤ) - 127) * 2 ^ 256 := by
  refine ⟨v * (2 ^ (256 - 8 + ea + eb - 254) : Nat), ?_, ?_⟩
  · rw [foldValue, if_neg (mt foldValue_barred.1 (not_or.2 ⟨ha, hb⟩)), hv]
  · rw [Int.cast_mul, Int.cast_natCast, Nat.cast_pow, Nat.cast_two, ← zpow_natCast, ← zpow_natCast, mul_assoc, mul_assoc, mul_assoc,
      ← zpow_add₀ two_ne_zero, ← zpow_add₀ two_ne_zero, ← zpow_add₀ two_ne_zero]
    congr 2; omega

/-- Settles O55: every finite value of a format is within the bound of its view, so products and single values are whole numbers of LSBs; sums
by induction on the elements. -/
theorem quireValues : Obligations.QuireValues := by
  refine ⟨?words, ?products, ?formats, ?sums, ?scaled, ?rounded, ?blocks, ?folds⟩
  case words =>
    intro W hW
    have pos : 0 < W := by fin_cases hW <;> decide
    exact ⟨if_pos rfl, rfl, fun w => quireWord_quireInt, fun i hl hh => ⟨quireInt_quireWord pos hl hh, quireWord_lt W i, by
      rw [quireWord_cast, Int.emod_emod]⟩, qadd_some W, fun q => ⟨qadd_none_left W q, qadd_none_right W q⟩⟩
  case products =>
    exact fun s t n d m e b => ⟨rfl, quireProduct_inf_left s b, quireProduct_inf_right s b,
      fun h => ⟨quireProduct_nan_left h, quireProduct_nan_right h⟩, rfl, quireTerm_of_not_inf, fun W => rfl⟩
  case formats =>
    rintro F G x y v ⟨c, hF⟩ ⟨k, hG⟩ hv h2 W A B hAn hAi
    have hA : A.Within (viewBound v) := (Fmt.xval_within hF x).mono (viewBound_mono (le_of_max_le_left hv))
    have hB : B.Within (viewBound v) := (Fmt.xval_within hG y).mono (viewBound_mono (le_of_max_le_right hv))
    obtain ⟨room, carry⟩ := viewBound_product v
    have single : viewBound v ≤ 1024 / 2 := (viewBound_mono h2).trans (by decide)
    rw [quireTerm_of_not_inf hAi]
    refine ⟨hA.toQuire hAn hAi single, fun hBn hBi => ?_⟩
    rw [show W - 32 = _ from carry.symm]
    exact quireProduct_toQuire hA hB hAn hAi hBn hBi room
  case sums => exact fun act term n => ⟨sumTerms_some, sumTerms_none, sumTerms_flags⟩
  case scaled =>
    intro q k
    refine ⟨fun h => by rw [scaleQuire, h], fun i h => ?_⟩
    intro j
    simp only [scaleQuire_some h, qadd_some, zero_add, Nat.reduceSub]
    by_cases hj : |⌊(i : ℚ) * 2 ^ k⌋| ≤ 2 ^ 1023 - 1
    · rw [if_pos hj]; exact (if_pos hj).symm
    · simp only [if_neg hj, quireWord, Nat.reduceSub]; exact (if_neg hj).symm
  case rounded =>
    exact fun W D z x => ⟨rfl, fun q => qround_nan W q D z, fun i s n d hd => qround_some W i s n hd D z, fun n es => rfl, fun s w => rfl, rfl, rfl, rfl⟩
  case blocks =>
    intro w e8 es _
    exact ⟨rfl, bdecode_reserved w es, fun hl hh => ⟨bdecode_nar es hl hh, bdecode_fin es hl hh⟩⟩
  case folds => exact fun entry ea eb _ => ⟨foldValue_eq_none, fun v => foldValue_some⟩

end Sys2Proof.Machine
end

section
/-! Random words, the order of values and of the candidates of VTOPK (spec/03_numbers.md R75; spec/07_vector.md R204, R205). -/

namespace Sys2Proof

/-! ### Random words (R75) -/

/-- A rotation by 16 exchanges the halves, which do not overlap. -/
theorem rotateLeft_sixteen_toNat (x : BitVec 32) : (x.rotateLeft 16).toNat = x.toNat * 2 ^ 16 % 2 ^ 32 + x.toNat / 2 ^ 16 := by
  have low : x.toNat / 2 ^ 16 < 2 ^ 16 := by have := x.isLt; omega
  have high : x.toNat * 2 ^ 16 % 2 ^ 32 = 2 ^ 16 * (x.toNat % 2 ^ 16) := by
    rw [mul_comm, show 2 ^ 32 = 2 ^ 16 * 2 ^ 16 from rfl, Nat.mul_mod_mul_left]
  rw [BitVec.toNat_rotateLeft, Nat.shiftLeft_eq, Nat.shiftRight_eq_div_pow, high, Nat.two_pow_add_eq_or_of_lt low, ← high]

/-- One pass of R75 on words. -/
def vrandMix (x : BitVec 32) : BitVec 32 :=
  let y := (x ^^^ (x >>> 15)) * 0x297A2D39
  y ^^^ (y >>> 12)

theorem vrandPass_toNat (x : BitVec 32) : vrandPass x.toNat = (vrandMix x).toNat := by
  have factor : (0x297A2D39 : BitVec 32).toNat = 0x297A2D39 := by decide
  have product : ((x ^^^ (x >>> 15)) * 0x297A2D39).toNat = (x.toNat ^^^ x.toNat / 2 ^ 15) * 0x297A2D39 % 2 ^ 32 := by
    rw [BitVec.toNat_mul, BitVec.toNat_xor, BitVec.toNat_ushiftRight, Nat.shiftRight_eq_div_pow, factor]
  rw [vrandMix, BitVec.toNat_xor, BitVec.toNat_ushiftRight, Nat.shiftRight_eq_div_pow, product, vrandPass]

theorem vrand_toNat (S c : BitVec 64) (T : BitVec 32) :
    let lo := fun (x : BitVec 64) => x.setWidth 32
    let hi := fun (x : BitVec 64) => (x >>> 32).setWidth 32
    vrand S.toNat T.toNat c.toNat =
      (vrandMix (vrandMix (((lo c ^^^ (hi c).rotateLeft 16) + T * 0x2C1B3C6D) ^^^ lo S)) + hi S).toNat := by
  intro lo hi
  have high (x : BitVec 64) : (hi x).toNat = x.toNat / 2 ^ 32 := by
    have := x.isLt
    rw [BitVec.toNat_setWidth, BitVec.toNat_ushiftRight, Nat.shiftRight_eq_div_pow, Nat.mod_eq_of_lt (by omega)]
  have factor : (0x2C1B3C6D : BitVec 32).toNat = 0x2C1B3C6D := by decide
  have mixed : (((lo c ^^^ (hi c).rotateLeft 16) + T * 0x2C1B3C6D) ^^^ lo S).toNat =
      (((c.toNat % 2 ^ 32 ^^^ ((c.toNat / 2 ^ 32) * 2 ^ 16 % 2 ^ 32 + (c.toNat / 2 ^ 32) / 2 ^ 16)) + T.toNat * 0x2C1B3C6D) % 2 ^ 32) ^^^
        S.toNat % 2 ^ 32 := by
    rw [BitVec.toNat_xor, BitVec.toNat_add, BitVec.toNat_xor, rotateLeft_sixteen_toNat, high, BitVec.toNat_mul, Nat.add_mod_mod, factor,
      BitVec.toNat_setWidth, BitVec.toNat_setWidth]
  have top : c.toNat / 2 ^ 32 % 2 ^ 32 = c.toNat / 2 ^ 32 := by have := c.isLt; omega
  rw [BitVec.toNat_add, high, ← vrandPass_toNat, ← vrandPass_toNat, mixed, vrand, top]

/-! ### The order of values (R205) -/

/-- A value among the extended reals; NaR and NaN stand at zero. -/
noncomputable def Val.ext : Val → EReal
  | .inf true => ⊥
  | .inf false => ⊤
  | v => (v.rat : ℝ)

section
variable {a b : Val} (ha : 0 < a.den) (hb : 0 < b.den) (han : a.isNan = false) (hbn : b.isNan = false)
include ha hb han hbn

theorem Val.lt_iff : a.lt b = true ↔ a.ext < b.ext := by
  cases a with
  | nan => cases han
  | inf s =>
    cases b with
    | nan => cases hbn
    | inf t => cases s <;> cases t <;> simp [Val.lt, Val.ext]
    | fin t m e => cases s <;> simp [Val.lt, Val.ext]
  | fin s n d =>
    cases b with
    | nan => cases hbn
    | inf t => cases t <;> simp [Val.lt, Val.ext]
    | fin t m e =>
      have hd : (0 : ℚ) < d := by exact_mod_cast ha
      have he : (0 : ℚ) < e := by exact_mod_cast hb
      simp only [Val.ext, EReal.coe_lt_coe_iff, Rat.cast_lt, Val.rat, Val.den, div_lt_div_iff₀ hd he]
      exact decide_eq_true_iff.trans (by exact_mod_cast Iff.rfl)

theorem Val.eqv_iff : a.eqv b = true ↔ a.ext = b.ext := by
  cases a with
  | nan => cases han
  | inf s =>
    cases b with
    | nan => cases hbn
    | inf t => cases s <;> cases t <;> simp [Val.eqv, Val.ext]
    | fin t m e => cases s <;> simp [Val.eqv, Val.ext]
  | fin s n d =>
    cases b with
    | nan => cases hbn
    | inf t => cases t <;> simp [Val.eqv, Val.ext]
    | fin t m e =>
      have hd : (d : ℚ) ≠ 0 := by exact_mod_cast ha.ne'
      have he : (e : ℚ) ≠ 0 := by exact_mod_cast hb.ne'
      simp only [Val.ext, EReal.coe_eq_coe_iff, Rat.cast_inj, Val.rat, Val.den, div_eq_div_iff hd he]
      exact decide_eq_true_iff.trans (by exact_mod_cast Iff.rfl)

end

end Sys2Proof

namespace Sys2Proof.Machine

/-! ### The order of candidates (R205) -/

/-- What the order of candidates compares: NaR and NaN last, the greater value first, then the index. -/
noncomputable def Candidate.key (c : Candidate) : Bool ×ₗ ERealᵒᵈ ×ₗ ℕ := toLex (c.val.isNan, toLex (OrderDual.toDual c.val.ext, c.index))

section
variable {x y : Candidate} (hx : 0 < x.val.den) (hy : 0 < y.val.den)
include hx hy

theorem Candidate.before_iff : x.before y = true ↔ (x.val.isNan = false ∧ y.val.isNan = true) ∨
    (x.val.isNan = true ∧ y.val.isNan = true ∧ x.index < y.index) ∨
    (x.val.isNan = false ∧ y.val.isNan = false ∧ (y.val.ext < x.val.ext ∨ (x.val.ext = y.val.ext ∧ x.index < y.index))) := by
  cases hxn : x.val.isNan <;> cases hyn : y.val.isNan
  case false.false =>
    simp [Candidate.before, hxn, hyn, Val.lt_iff hy hx hyn hxn, Val.eqv_iff hx hy hxn hyn]
  all_goals simp [Candidate.before, hxn, hyn]

theorem Candidate.before_iff_key : x.before y = true ↔ x.key < y.key := by
  rw [Candidate.before_iff hx hy, Candidate.key, Candidate.key, Prod.Lex.toLex_lt_toLex, Prod.Lex.toLex_lt_toLex, OrderDual.toDual_lt_toDual,
    OrderDual.toDual_inj]
  have nan {v : Val} (h : v.isNan = true) : v = .nan := by
    cases v with
    | nan => rfl
    | _ => cases h
  cases hxn : x.val.isNan <;> cases hyn : y.val.isNan
  case true.true => simp [nan hxn, nan hyn]
  all_goals simp

end

/-! ### Insertion in order (R205) -/

theorem insertCandidate_perm (x : Candidate) (l : List Candidate) : (insertCandidate x l).Perm (x :: l) := by
  induction l with
  | nil => rfl
  | cons y r ih =>
    rw [insertCandidate]
    split
    · rfl
    · exact (ih.cons y).trans (.swap x y r)

/-- Insertion keeps a list in order. -/
theorem insertCandidate_pairwise {x : Candidate} {l : List Candidate} (hx : 0 < x.val.den) (hl : ∀ c ∈ l, 0 < c.val.den)
    (h : l.Pairwise fun a b => a.key ≤ b.key) : (insertCandidate x l).Pairwise fun a b => a.key ≤ b.key := by
  induction l with
  | nil => exact List.pairwise_singleton _ x
  | cons y r ih =>
    obtain ⟨hy, hr⟩ := List.forall_mem_cons.1 hl
    obtain ⟨le, hp⟩ := List.pairwise_cons.1 h
    rw [insertCandidate]
    split
    case isTrue hb =>
      have lt := (Candidate.before_iff_key hx hy).1 hb
      exact h.cons (List.forall_mem_cons.2 ⟨lt.le, fun c hc => lt.le.trans (le c hc)⟩)
    case isFalse hb =>
      have ge := not_lt.1 (mt (Candidate.before_iff_key hx hy).2 hb)
      exact (ih hr hp).cons fun c hc => (List.mem_cons.1 ((insertCandidate_perm x r).mem_iff.1 hc)).elim (fun e => e ▸ ge) (le c)

/-- Inserting candidates one by one sorts them. -/
theorem foldl_insertCandidate {cs l : List Candidate} (hc : ∀ c ∈ cs, 0 < c.val.den) (hl : ∀ c ∈ l, 0 < c.val.den)
    (h : l.Pairwise fun a b => a.key ≤ b.key) : (cs.foldl (fun l c => insertCandidate c l) l).Perm (cs ++ l) ∧
      (cs.foldl (fun l c => insertCandidate c l) l).Pairwise fun a b => a.key ≤ b.key := by
  induction cs generalizing l with
  | nil => exact ⟨.rfl, h⟩
  | cons x r ih =>
    obtain ⟨hx, hr⟩ := List.forall_mem_cons.1 hc
    have inserted : ∀ c ∈ insertCandidate x l, 0 < c.val.den := fun c hc =>
      (List.mem_cons.1 ((insertCandidate_perm x l).mem_iff.1 hc)).elim (fun e => e ▸ hx) (hl c)
    obtain ⟨perm, sorted⟩ := ih hr inserted (insertCandidate_pairwise hx hl h)
    exact ⟨perm.trans (((insertCandidate_perm x l).append_left r).trans List.perm_middle), sorted⟩

/-- The candidates of VTOPK, inserted one by one, are a list of them in which none comes before an earlier one. -/
theorem candidates_sorted {cs : List Candidate} (hc : ∀ c ∈ cs, 0 < c.val.den) :
    let l := cs.foldl (fun l c => insertCandidate c l) []
    l.Perm cs ∧ l.Pairwise fun x y => y.before x = false := by
  intro l
  obtain ⟨perm, sorted⟩ := foldl_insertCandidate hc (l := []) (fun c h => absurd h List.not_mem_nil) .nil
  rw [List.append_nil] at perm
  refine ⟨perm, sorted.imp_of_mem fun {x y} hx hy le => ?_⟩
  rw [← Bool.not_eq_true, Candidate.before_iff_key (hc y (perm.mem_iff.1 hy)) (hc x (perm.mem_iff.1 hx))]
  exact le.not_gt

end Sys2Proof.Machine
end

section
/-! SHA-256 on words: its functions, its message schedule, its rounds and its bytes, and the statement on random words, selection and digests
(spec/07_vector.md R204, R205, R206). -/

namespace Sys2Proof.Sha

/-! ### Functions of words -/

theorem rotr_toNat (x : BitVec 32) {n : Nat} (h : n < 32) : rotr x.toNat n = (x.rotateRight n).toNat := by
  have low : x.toNat / 2 ^ n < 2 ^ (32 - n) := Nat.div_lt_of_lt_mul (by rw [← pow_add, Nat.add_sub_cancel' h.le]; exact x.isLt)
  have split : 2 ^ 32 = 2 ^ (32 - n) * 2 ^ n := by rw [← pow_add, Nat.sub_add_cancel h.le]
  rw [BitVec.toNat_rotateRight, Nat.mod_eq_of_lt h, Nat.shiftLeft_eq, Nat.shiftRight_eq_div_pow, mul_comm x.toNat, split, Nat.mul_mod_mul_left,
    Nat.lor_comm, ← Nat.two_pow_add_eq_or_of_lt low, rotr, Nat.add_comm, mul_comm]

theorem notW_toNat (x : BitVec 32) : notW x.toNat = (~~~x).toNat := by rw [BitVec.toNat_not, notW]

/-- The functions of SHA-256 that rotate three times, and that rotate twice and shift. -/
def rotXor (x : BitVec 32) (i j k : Nat) : BitVec 32 := x.rotateRight i ^^^ x.rotateRight j ^^^ x.rotateRight k
def shiftXor (x : BitVec 32) (i j k : Nat) : BitVec 32 := x.rotateRight i ^^^ x.rotateRight j ^^^ x >>> k

theorem rotXor_toNat (x : BitVec 32) {i j k : Nat} (hi : i < 32) (hj : j < 32) (hk : k < 32) :
    (rotXor x i j k).toNat = rotr x.toNat i ^^^ rotr x.toNat j ^^^ rotr x.toNat k := by
  rw [rotXor, BitVec.toNat_xor, BitVec.toNat_xor, rotr_toNat x hi, rotr_toNat x hj, rotr_toNat x hk]

theorem shiftXor_toNat (x : BitVec 32) {i j : Nat} (k : Nat) (hi : i < 32) (hj : j < 32) :
    (shiftXor x i j k).toNat = rotr x.toNat i ^^^ rotr x.toNat j ^^^ x.toNat / 2 ^ k := by
  rw [shiftXor, BitVec.toNat_xor, BitVec.toNat_xor, rotr_toNat x hi, rotr_toNat x hj, BitVec.toNat_ushiftRight, Nat.shiftRight_eq_div_pow]

/-- The next word of the message schedule. -/
def scheduled (w : Nat → BitVec 32) (t : Nat) : BitVec 32 := shiftXor (w (t + 14)) 17 19 10 + w (t + 9) + shiftXor (w (t + 1)) 7 18 3 + w t

theorem scheduled_toNat (w : Nat → BitVec 32) (t : Nat) : (scheduled w t).toNat =
    ((w t).toNat + (shiftXor (w (t + 1)) 7 18 3).toNat + (w (t + 9)).toNat + (shiftXor (w (t + 14)) 17 19 10).toNat) % 2 ^ 32 := by
  simp only [scheduled, BitVec.toNat_add, Nat.mod_add_mod]
  congr 1; omega

/-! ### The message schedule -/

/-- The first `m` words of a schedule, newest first. -/
def newest (w : Nat → BitVec 32) (m : Nat) : List Nat := (List.range m).reverse.map fun t => (w t).toNat

theorem newest_succ (w : Nat → BitVec 32) (m : Nat) : newest w (m + 1) = (w m).toNat :: newest w m := by
  simp [newest, List.range_succ]

theorem newest_getD (w : Nat → BitVec 32) {m i : Nat} (h : i < m) : (newest w m).getD i 0 = (w (m - 1 - i)).toNat := by
  simp [newest, List.getD_eq_getElem?_getD, h]

theorem extend_newest {w : Nat → BitVec 32} (hw : ∀ t, w (t + 16) = scheduled w t) (n t : Nat) :
    extend n (newest w (t + 16)) = newest w (t + 16 + n) := by
  induction n generalizing t with
  | zero => rfl
  | succ n ih =>
    have word : (w (t + 16)).toNat = _ := (congrArg BitVec.toNat (hw t)).trans (scheduled_toNat w t)
    rw [shiftXor_toNat _ _ (by decide) (by decide), shiftXor_toNat _ _ (by decide) (by decide)] at word
    rw [extend, newest_getD w (by omega), newest_getD w (by omega), newest_getD w (by omega), newest_getD w (by omega)]
    exact (congrArg (extend n) ((congrArg (· :: _) word.symm).trans (newest_succ w (t + 16)).symm)).trans ((ih (t + 1)).trans (by congr 1; omega))

/-! ### The rounds -/

/-- The two sums of a round. -/
def roundOne (v : Nat → BitVec 32) (k w : BitVec 32) : BitVec 32 := v 7 + rotXor (v 4) 6 11 25 + ((v 4 &&& v 5) ^^^ (~~~(v 4) &&& v 6)) + k + w
def roundTwo (v : Nat → BitVec 32) : BitVec 32 := rotXor (v 0) 2 13 22 + ((v 0 &&& v 1) ^^^ (v 0 &&& v 2) ^^^ (v 1 &&& v 2))

/-- The eight working variables. -/
def vars (v : Nat → BitVec 32) : List Nat := (List.range 8).map fun k => (v k).toNat

theorem roundOne_toNat (v : Nat → BitVec 32) (k : Nat) (w : BitVec 32) : (roundOne v (.ofNat 32 k) w).toNat =
    ((v 7).toNat + (rotr (v 4).toNat 6 ^^^ rotr (v 4).toNat 11 ^^^ rotr (v 4).toNat 25) +
      (((v 4).toNat &&& (v 5).toNat) ^^^ (notW (v 4).toNat &&& (v 6).toNat)) + k + w.toNat) % 2 ^ 32 := by
  simp only [roundOne, BitVec.toNat_add, Nat.mod_add_mod, BitVec.toNat_xor, BitVec.toNat_and, ← notW_toNat]
  rw [rotXor_toNat _ (by decide) (by decide) (by decide), BitVec.toNat_ofNat, Nat.add_right_comm _ (k % 2 ^ 32), Nat.add_mod_mod,
    Nat.add_right_comm _ _ k]

theorem roundTwo_toNat (v : Nat → BitVec 32) : (roundTwo v).toNat =
    ((rotr (v 0).toNat 2 ^^^ rotr (v 0).toNat 13 ^^^ rotr (v 0).toNat 22) +
      (((v 0).toNat &&& (v 1).toNat) ^^^ ((v 0).toNat &&& (v 2).toNat) ^^^ ((v 1).toNat &&& (v 2).toNat))) % 2 ^ 32 := by
  rw [roundTwo, BitVec.toNat_add, rotXor_toNat _ (by decide) (by decide) (by decide)]
  simp only [BitVec.toNat_xor, BitVec.toNat_and]

/-- A round on the words of the working variables. -/
theorem round_vars {v u : Nat → BitVec 32} {k : Nat} {w : BitVec 32} (h0 : u 0 = roundOne v (.ofNat 32 k) w + roundTwo v)
    (h4 : u 4 = v 3 + roundOne v (.ofNat 32 k) w) (h : ∀ k ∈ ([0, 1, 2, 4, 5, 6] : List Nat), u (k + 1) = v k) :
    round (vars v) (k, w.toNat) = vars u := by
  have first : (u 0).toNat = _ := congrArg BitVec.toNat h0
  have fifth : (u 4).toNat = _ := congrArg BitVec.toNat h4
  rw [BitVec.toNat_add, roundOne_toNat, roundTwo_toNat, Nat.add_mod_mod, ← Nat.add_assoc] at first
  rw [BitVec.toNat_add, roundOne_toNat] at fifth
  have others : ∀ k ∈ ([0, 1, 2, 4, 5, 6] : List Nat), (u (k + 1)).toNat = (v k).toNat := fun k hk => congrArg BitVec.toNat (h k hk)
  simp only [List.forall_mem_cons, List.not_mem_nil, false_imp_iff, implies_true, and_true] at others
  obtain ⟨h1, h2, h3, h5, h6, h7⟩ := others
  have list (x : Nat → BitVec 32) : vars x = [(x 0).toNat, (x 1).toNat, (x 2).toNat, (x 3).toNat, (x 4).toNat, (x 5).toNat, (x 6).toNat, (x 7).toNat] := rfl
  rw [list u, first, fifth, h1, h2, h3, h5, h6, h7, list v, round]

/-- Rounds over the pairs of a constant and a schedule word, in the order of t. -/
theorem foldl_round {v : Nat → Nat → BitVec 32} {k : Nat → Nat} {w : Nat → BitVec 32}
    (h0 : ∀ t, v (t + 1) 0 = roundOne (v t) (.ofNat 32 (k t)) (w t) + roundTwo (v t))
    (h4 : ∀ t, v (t + 1) 4 = v t 3 + roundOne (v t) (.ofNat 32 (k t)) (w t))
    (h : ∀ t, ∀ i ∈ ([0, 1, 2, 4, 5, 6] : List Nat), v (t + 1) (i + 1) = v t i) (n : Nat) :
    ((List.range n).map fun t => (k t, (w t).toNat)).foldl round (vars (v 0)) = vars (v n) := by
  induction n with
  | zero => rfl
  | succ n ih => rw [List.range_succ, List.map_append, List.foldl_append, ih]; exact round_vars (h0 n) (h4 n) (h n)

/-! ### Compression -/

theorem kTable_length : kTable.length = 64 := by decide +kernel

/-- A list of a known length is its entries in the order of their index. -/
theorem map_toNat_eq {l : List (BitVec 32)} {n : Nat} (hl : l.length = n) {f : Nat → BitVec 32} (hf : ∀ i < n, f i = l.getD i 0) :
    l.map (·.toNat) = (List.range n).map fun i => (f i).toNat := by
  refine List.ext_getElem (by simp [hl]) fun i h1 h2 => ?_
  have hi : i < l.length := by simpa using h1
  simp [hf i (hl ▸ hi), List.getElem?_eq_getElem hi]

theorem zip_kTable (f : Nat → Nat) : kTable.zip ((List.range 64).map f) = (List.range 64).map fun t => (kTable.getD t 0, f t) := by
  refine List.ext_getElem (by simp [kTable_length]) fun i h1 h2 => ?_
  have hi : i < kTable.length := by rw [kTable_length]; simpa using h2
  simp [List.getElem?_eq_getElem hi]

/-- The compression of a block by the message schedule and the 64 rounds. -/
theorem compress_eq {h b : List (BitVec 32)} {w : Nat → BitVec 32} {v : Nat → Nat → BitVec 32} (hh : h.length = 8) (hb : b.length = 16)
    (hw : ∀ t < 16, w t = b.getD t 0) (hs : ∀ t, w (t + 16) = scheduled w t) (hv : ∀ k < 8, v 0 k = h.getD k 0)
    (h0 : ∀ t, v (t + 1) 0 = roundOne (v t) (.ofNat 32 (kTable.getD t 0)) (w t) + roundTwo (v t))
    (h4 : ∀ t, v (t + 1) 4 = v t 3 + roundOne (v t) (.ofNat 32 (kTable.getD t 0)) (w t))
    (hk : ∀ t, ∀ i ∈ ([0, 1, 2, 4, 5, 6] : List Nat), v (t + 1) (i + 1) = v t i) :
    compress (h.map (·.toNat)) (b.map (·.toNat)) = (List.range 8).map fun k => (h.getD k 0 + v 64 k).toNat := by
  have block : (b.map (·.toNat)).reverse = newest w 16 := by rw [map_toNat_eq hb hw, newest, List.map_reverse]
  have schedule : (extend 48 (newest w 16)).reverse = (List.range 64).map fun t => (w t).toNat := by
    rw [extend_newest hs 48 0, newest, List.map_reverse, List.reverse_reverse]
  rw [compress, block, schedule, zip_kTable, map_toNat_eq hh hv, ← vars, foldl_round h0 h4 hk, vars, vars, List.zipWith_map, List.zipWith_self]
  refine List.map_congr_left fun k hk => ?_
  rw [BitVec.toNat_add, hv k (List.mem_range.1 hk)]

/-! ### Bytes -/

/-- The words of a byte list, the most significant byte first. -/
theorem words_eq {n : Nat} {bs : List Nat} (h : 4 * n ≤ bs.length) : words n bs = (List.range n).map fun i =>
    bs.getD (4 * i) 0 * 2 ^ 24 + bs.getD (4 * i + 1) 0 * 2 ^ 16 + bs.getD (4 * i + 2) 0 * 2 ^ 8 + bs.getD (4 * i + 3) 0 := by
  induction n generalizing bs with
  | zero => rfl
  | succ n ih =>
    obtain ⟨a, b, c, d, r, rfl⟩ : ∃ a b c d r, bs = a :: b :: c :: d :: r := by
      match bs, h with
      | a :: b :: c :: d :: r, _ => exact ⟨a, b, c, d, r, rfl⟩
    rw [words, List.range_succ_eq_map, List.map_cons, List.map_map, show (a :: b :: c :: d :: r).drop 4 = r from rfl,
      ih (by simp only [List.length_cons] at h; omega)]
    refine congrArg₂ _ ?_ rfl
    change (((0 * 256 + a) * 256 + b) * 256 + c) * 256 + d = a * 2 ^ 24 + b * 2 ^ 16 + c * 2 ^ 8 + d
    omega

end Sys2Proof.Sha

namespace Sys2Proof.Machine

/-- Settles O58: the mixing of random words bit by bit, candidates by the lexicographic order of their keys, and the rounds of SHA-256 by
induction on their number. -/
theorem selectionAndDigests : Obligations.SelectionAndDigests := by
  refine ⟨vrand_toNat, by decide +kernel, ⟨?values, ?order, ?sorted⟩, by decide +kernel, by decide +kernel, ?compress, ?bytes⟩
  case values => exact fun a b ha hb han hbn => ⟨Val.lt_iff ha hb han hbn, Val.eqv_iff ha hb han hbn⟩
  case order => exact fun x y hx hy => Candidate.before_iff hx hy
  case sorted => exact fun cs hc => candidates_sorted hc
  case compress =>
    intro h b w v hh hb rot shr hw hs hv step
    exact Sha.compress_eq hh hb hw hs hv (fun t => (step t).1) (fun t => (step t).2.1) fun t => (step t).2.2
  case bytes => exact fun n h bs => ⟨rfl, rfl, Sha.words_eq, rfl⟩

end Sys2Proof.Machine
end

section
/-! Words and their fields: a syllable is made of its opcode, its operand fields and its reserved bits, so a decoded word is the encoding
of its instruction (spec/04_bundles.md R79-R105). -/

namespace Sys2Proof

/-- One bit of a word as a field. -/
theorem ofBool_getLsbD (w : W32) (k : Nat) : BitVec.ofBool (w.getLsbD k) = w.extractLsb' k 1 := by
  ext i hi
  obtain rfl : i = 0 := Nat.lt_one_iff.mp hi
  simp

/-- Two fields that meet are one field. -/
theorem field_append {w : W32} {hi lo n m : Nat} (h : hi = lo + m) :
    w.extractLsb' hi n ++ w.extractLsb' lo m = w.extractLsb' lo (n + m) :=
  BitVec.extractLsb'_append_extractLsb'_eq_extractLsb' h

/-! ### Each format: the fields of a word, under the opcode that it has, make the word -/

section
variable {w : W32} {op : BitVec 8} (h : (w.extractLsb' 24 8).toNat = op.toNat)
include h

theorem RG.word_ofWord : (RG.ofWord w).word op = w := by
  rw [← BitVec.eq_of_toNat_eq h]
  simp (disch := rfl) only [RG.word, RG.ofWord, ofBool_getLsbD, field_append]
  exact BitVec.extractLsb'_eq_self

theorem RI.word_ofWord : (RI.ofWord w).word op = w := by
  rw [← BitVec.eq_of_toNat_eq h]
  simp (disch := rfl) only [RI.word, RI.ofWord, field_append]
  exact BitVec.extractLsb'_eq_self

theorem Mem.word_ofWord : (Mem.ofWord w).word op = w := by
  rw [← BitVec.eq_of_toNat_eq h]
  simp (disch := rfl) only [Mem.word, Mem.ofWord, field_append]
  exact BitVec.extractLsb'_eq_self

theorem Atomic.word_ofWord : (Atomic.ofWord w).word op = w := by
  rw [← BitVec.eq_of_toNat_eq h]
  simp (disch := rfl) only [Atomic.word, Atomic.ofWord, field_append]
  exact BitVec.extractLsb'_eq_self

theorem Remote.word_ofWord : (Remote.ofWord w).word op = w := by
  rw [← BitVec.eq_of_toNat_eq h]
  simp (disch := rfl) only [Remote.word, Remote.ofWord, ofBool_getLsbD, field_append]
  exact BitVec.extractLsb'_eq_self

theorem Sync.word_ofWord : (Sync.ofWord w).word op = w := by
  rw [← BitVec.eq_of_toNat_eq h]
  simp (disch := rfl) only [Sync.word, Sync.ofWord, field_append]
  exact BitVec.extractLsb'_eq_self

theorem Beat.word_ofWord : (Beat.ofWord w).word op = w := by
  rw [← BitVec.eq_of_toNat_eq h]
  simp (disch := rfl) only [Beat.word, Beat.ofWord, ofBool_getLsbD, field_append]
  exact BitVec.extractLsb'_eq_self

theorem Copy.word_ofWord : (Copy.ofWord w).word op = w := by
  rw [← BitVec.eq_of_toNat_eq h]
  simp (disch := rfl) only [Copy.word, Copy.ofWord, field_append]
  exact BitVec.extractLsb'_eq_self

end

/-- The opcode of the wide-immediate form is the high six bits of the opcode byte (R86). -/
theorem I20.word_ofWord {w : W32} {op : BitVec 6} (h : (w.extractLsb' 24 8).toNat / 4 = op.toNat) : (I20.ofWord w).word op = w := by
  have hop : w.extractLsb' 26 6 = op := by
    refine BitVec.eq_of_toNat_eq ?_
    simp only [BitVec.extractLsb'_toNat, Nat.shiftRight_eq_div_pow] at h ⊢
    omega
  rw [← hop]
  simp (disch := rfl) only [I20.word, I20.ofWord, field_append]
  exact BitVec.extractLsb'_eq_self

/-- A K syllable is its LIT bit, its opcode and its low 24 bits (R81). -/
theorem kWord_eq_of_fields {w : W32} {op : BitVec 7} {rest : BitVec 24} (hop : (w.extractLsb' 24 7).toNat = op.toNat)
    (hr : rest = w.extractLsb' 0 24) : kWord (w.getLsbD 31) op rest = w := by
  rw [hr, ← BitVec.eq_of_toNat_eq hop]
  simp (disch := rfl) only [kWord, ofBool_getLsbD, field_append]
  exact BitVec.extractLsb'_eq_self

/-- A field that lies in the reserved bits of a word that has none of them set is zero. -/
theorem reserved_field {w m : W32} (h : w &&& m = 0#32) (lo n : Nat) (hm : m.extractLsb' lo n = BitVec.allOnes n) :
    0#n = w.extractLsb' lo n := by
  have e := congrArg (BitVec.extractLsb' lo n) h
  rw [BitVec.extractLsb'_and, hm, BitVec.and_allOnes] at e
  rw [e]
  ext i hi
  simp

/-! ### Each map: the instruction that it gives encodes to the word that it read -/

/-- In K the bits outside the operands must be zero (R82). -/
theorem kMap_encode {w : W32} {i : Instr} (h : kMap (w.extractLsb' 24 7).toNat w = some i)
    (hr : w &&& kReserved (w.extractLsb' 24 7).toNat = 0#32) : i.encode = w := by
  unfold kMap at h
  split at h <;> cases h
  all_goals
    rename_i hop
    rw [hop] at hr
    refine kWord_eq_of_fields hop ?_
  case h_1 | h_5 => exact BitVec.setWidth_eq _ -- BR, CALL
  case h_2 | h_3 => exact field_append rfl -- BRZ, BRNZ
  case h_4 | h_6 | h_19 => rw [reserved_field hr 0 17 rfl]; exact field_append rfl -- JMP, CALLR, WAITC
  case h_8 => rw [reserved_field hr 0 6 rfl, field_append (by rfl)]; exact field_append rfl -- LOOP
  case h_9 => rw [reserved_field hr 0 9 rfl, field_append (by rfl), field_append (by rfl)]; exact field_append rfl -- LOOPM
  case h_10 => rw [reserved_field hr 3 14 rfl, field_append (by rfl)]; exact field_append rfl -- BRK
  case h_13 => rw [reserved_field hr 16 8 rfl]; exact field_append rfl -- TRAP
  case h_16 => rw [reserved_field hr 4 20 rfl]; exact field_append rfl -- RRBSET
  case h_21 => rw [reserved_field hr 21 3 rfl]; exact field_append rfl -- STG
  all_goals exact reserved_field hr 0 24 rfl

section
variable {w : W32} {i : Instr}

theorem sMap_encode (h : sMap (w.extractLsb' 24 8).toNat w = some i) : i.encode = w := by
  unfold sMap at h
  split at h <;> cases h
  all_goals
    rename_i hop
    simp only [Instr.encode, RG.word_ofWord, RI.word_ofWord, I20.word_ofWord, hop, BitVec.reduceToNat, Nat.reduceDiv]

theorem lsMap_encode (h : lsMap (w.extractLsb' 24 8).toNat w = some i) : i.encode = w := by
  unfold lsMap at h
  split at h <;> cases h
  all_goals
    rename_i hop
    simp only [Instr.encode, Mem.word_ofWord, Atomic.word_ofWord, Remote.word_ofWord, Sync.word_ofWord, hop, BitVec.reduceToNat]

/-- VQMOV is three instructions under one opcode, by srcB (R192). -/
theorem vaMap_encode (h : vaMap (w.extractLsb' 24 8).toNat w = some i) : i.encode = w := by
  unfold vaMap at h
  repeat' split at h
  all_goals cases h
  all_goals exact RG.word_ofWord ‹(w.extractLsb' 24 8).toNat = _›

theorem vbMap_encode (h : vbMap (w.extractLsb' 24 8).toNat w = some i) : i.encode = w := by
  unfold vbMap at h
  split at h <;> cases h
  all_goals exact RG.word_ofWord ‹_›

theorem mxMap_encode (h : mxMap (w.extractLsb' 24 8).toNat w = some i) : i.encode = w := by
  unfold mxMap at h
  split at h <;> cases h
  all_goals exact Beat.word_ofWord ‹_›

theorem cpMap_encode (h : cpMap (w.extractLsb' 24 8).toNat w = some i) : i.encode = w := by
  unfold cpMap at h
  split at h <;> cases h
  all_goals exact Copy.word_ofWord ‹_›

/-- The map of a slot gives an instruction that encodes to the word, where the bits outside every field are zero. -/
theorem slotMap_encode {k : Slot} (h : slotMap k (slotOpcode k w) w = some i) (hr : w &&& slotReserved k w = 0#32) : i.encode = w := by
  cases k with
  | K => exact kMap_encode h hr
  | SA => exact sMap_encode h
  | SB => exact sMap_encode h
  | LS => exact lsMap_encode h
  | VA => exact vaMap_encode h
  | VB => exact vbMap_encode h
  | MX => exact mxMap_encode h
  | CP => exact cpMap_encode h

end

/-! ### NOP, and what a decoding says -/

/-- The words of NOP: the all-zero syllable, and in K the one with LIT alone (R79). -/
theorem isNopWord_iff {k : Slot} {w : W32} : isNopWord k w = true ↔ w = 0 ∨ k = .K ∧ w = 0x80000000 := by
  cases k with
  | K =>
    have hw : BitVec.ofBool (w.getLsbD 31) ++ w.extractLsb' 0 31 = w := by
      rw [ofBool_getLsbD]
      exact (field_append rfl).trans BitVec.extractLsb'_eq_self
    simp only [isNopWord, beq_iff_eq, true_and]
    constructor
    · intro h
      rw [h] at hw
      cases hb : w.getLsbD 31 <;> rw [hb] at hw
      · exact .inl hw.symm
      · exact .inr hw.symm
    · rintro (rfl | rfl) <;> rfl
  | _ => simp [isNopWord]

/-- No map assigns opcode 0 (R79). -/
theorem slotMap_zero (k : Slot) (w : W32) : slotMap k 0 w = none := by
  cases k <;> rfl

/-- A word that decodes is a NOP, or its map's instruction with no reserved bit set and check 2 of R80 passed. -/
theorem decodeSlot_eq_ok {k : Slot} {w : W32} {i : Instr} (h : decodeSlot k w = .ok i) :
    (isNopWord k w = true ∧ i = .nop (w.getLsbD 31)) ∨
      (slotMap k (slotOpcode k w) w = some i ∧ w &&& slotReserved k w = 0#32 ∧ i.WellFormed) := by
  unfold decodeSlot at h
  split at h
  case isTrue hn =>
    cases h
    exact .inl ⟨hn, rfl⟩
  case isFalse =>
    split at h
    case h_1 => cases h
    case h_2 j hj =>
      split at h
      case isTrue hc =>
        cases h
        exact .inr ⟨hj, hc⟩
      case isFalse => cases h

/-- Settles O2: by the form of the word, a NOP's or that of the entry of its slot's map. -/
theorem decodeEncode : Obligations.DecodeEncode := by
  intro k w i h
  obtain ⟨hn, rfl⟩ | ⟨hm, hr, hw⟩ := decodeSlot_eq_ok h
  · obtain rfl | ⟨-, rfl⟩ := isNopWord_iff.mp hn <;> exact ⟨rfl, rfl⟩
  · exact ⟨hw, slotMap_encode hm hr⟩

/-- Settles O3: opcode 0 stands in no map, and the bundle of eight NOPs passes every check in every mode. -/
theorem nopSyllable : Obligations.NopSyllable := by
  refine ⟨fun k => ?zero, rfl, fun l s => rfl, fun k w h0 hw hk => ?other, fun mode b k h => ?bundle, fun mode => ?nops⟩
  case zero => cases k <;> rfl
  case other =>
    have hn : ¬ isNopWord k w = true := by
      rw [isNopWord_iff]
      rintro (h | ⟨rfl, h⟩)
      exacts [hw h, hk rfl h]
    rw [decodeSlot, if_neg hn, h0, slotMap_zero]
  case bundle => simp only [Machine.checkBundle, h, Machine.causeIllegalOp]
  case nops => exact ⟨(List.range 8).map (·, .nop false), rfl, by simp⟩

/-- Settles O4: each word is decoded by its slot's map. -/
theorem decodedWords : Obligations.DecodedWords := ⟨rfl, rfl, rfl, rfl, rfl, rfl, rfl, rfl, rfl, rfl, rfl, rfl⟩

end Sys2Proof
end

section
/-! The family RoundTrip over every instruction. -/

namespace Sys2Proof.Laws.RoundTrip

/-- Every instruction has the statement of its own lemma; an event has no slot, and so none to show. -/
theorem statement (i : Instr) : Statement i := by
  cases i with
  | nop l => exact nop l | br l d => exact br l d | brz l s d => exact brz l s d | brnz l s d => exact brnz l s d
  | jmp l s => exact jmp l s | call l d => exact call l d | callr l s => exact callr l s | ret l => exact ret l
  | loop l s n => exact loop l s n | loopm l s ii g => exact loopm l s ii g | brk l s n => exact brk l s n | yield l => exact yield l
  | tend l => exact tend l | trap l imm => exact trap l imm | eret l => exact eret l | ifence l => exact ifence l
  | rrbset l n => exact rrbset l n | nopre l => exact nopre l | nopreend l => exact nopreend l | waitc l s => exact waitc l s
  | halt l => exact halt l | stg l m => exact stg l m | add f => exact add f | sub f => exact sub f | mul f => exact mul f
  | mulh f => exact mulh f | mulhu f => exact mulhu f | div f => exact div f | divu f => exact divu f | rem f => exact rem f
  | remu f => exact remu f | and f => exact and f | or f => exact or f | xor f => exact xor f | andn f => exact andn f
  | orn f => exact orn f | sel f => exact sel f | shl f => exact shl f | shr f => exact shr f | sra f => exact sra f
  | rotl f => exact rotl f | cmpeq f => exact cmpeq f | cmpne f => exact cmpne f | cmplt f => exact cmplt f | cmpltu f => exact cmpltu f
  | cmple f => exact cmple f | cmpleu f => exact cmpleu f | min f => exact min f | max f => exact max f | minu f => exact minu f
  | maxu f => exact maxu f | clz f => exact clz f | ctz f => exact ctz f | popc f => exact popc f | ext f => exact ext f
  | ins f => exact ins f | addi f => exact addi f | andi f => exact andi f | ori f => exact ori f | xori f => exact xori f
  | shli f => exact shli f | shri f => exact shri f | srai f => exact srai f | cmpeqi f => exact cmpeqi f | cmplti f => exact cmplti f
  | cmpltui f => exact cmpltui f | movi f => exact movi f | movhi f => exact movhi f | movfi f => exact movfi f | fadd f => exact fadd f
  | fsub f => exact fsub f | fmul f => exact fmul f | ffma f => exact ffma f | fmin f => exact fmin f | fmax f => exact fmax f
  | fcmpeq f => exact fcmpeq f | fcmplt f => exact fcmplt f | fcmple f => exact fcmple f | fcvt f => exact fcvt f | fdiv f => exact fdiv f
  | fsqrt f => exact fsqrt f | tadd f => exact tadd f | tmul f => exact tmul f | tfma f => exact tfma f | amov f => exact amov f
  | aaddi f => exact aaddi f | aread f => exact aread f | adelta f => exact adelta f | lidx f => exact lidx f | csrr f => exact csrr f
  | csrw f => exact csrw f | topo f => exact topo f | rdcyc f => exact rdcyc f | pany f => exact pany f | pall f => exact pall f
  | pcnt f => exact pcnt f | ldb f => exact ldb f | ldbu f => exact ldbu f | ldh f => exact ldh f | ldhu f => exact ldhu f
  | ldw f => exact ldw f | ldwu f => exact ldwu f | ldd f => exact ldd f | stb f => exact stb f | sth f => exact sth f
  | stw f => exact stw f | std f => exact std f | vld f => exact vld f | vst f => exact vst f | vlds f => exact vlds f
  | vsts f => exact vsts f | vgather f => exact vgather f | vscatter f => exact vscatter f | vldb f => exact vldb f | pld f => exact pld f
  | pst f => exact pst f | kld f => exact kld f | qsave f => exact qsave f | qload f => exact qload f | istore f => exact istore f
  | amoadd f => exact amoadd f | amoand f => exact amoand f | amoor f => exact amoor f | amoxor f => exact amoxor f
  | amomin f => exact amomin f | amomax f => exact amomax f | amominu f => exact amominu f | amomaxu f => exact amomaxu f
  | amoswap f => exact amoswap f | amocas f => exact amocas f | amofadd f => exact amofadd f | amotadd f => exact amotadd f
  | rput f => exact rput f | rputv f => exact rputv f | ramo f => exact ramo f | sinc f => exact sinc f | swait f => exact swait f
  | sexpect f => exact sexpect f | swaite f => exact swaite f | sread f => exact sread f | bararr f => exact bararr f
  | barwait f => exact barwait f | fence f => exact fence f | fencemark f => exact fencemark f | gpost f => exact gpost f
  | gwait f => exact gwait f | gtry f => exact gtry f | gread f => exact gread f | vsetf f => exact vsetf f | vadd f => exact vadd f
  | vsub f => exact vsub f | vmul f => exact vmul f | vfma f => exact vfma f | vfms f => exact vfms f | vfnma f => exact vfnma f
  | vdiv f => exact vdiv f | vmin f => exact vmin f | vmax f => exact vmax f | vabs f => exact vabs f | vneg f => exact vneg f
  | vcmpeq f => exact vcmpeq f | vcmplt f => exact vcmplt f | vcmple f => exact vcmple f | vsel f => exact vsel f | vand f => exact vand f
  | vor f => exact vor f | vxor f => exact vxor f | vshl f => exact vshl f | vshr f => exact vshr f | vsra f => exact vsra f
  | vqdot f => exact vqdot f | vqadd f => exact vqadd f | vqacc f => exact vqacc f | vqsub f => exact vqsub f | vqrnd f => exact vqrnd f
  | vqscale f => exact vqscale f | vqclr f => exact vqclr f | vqmovQq f => exact vqmovQq f | vqmovVq f => exact vqmovVq f
  | vqmovQv f => exact vqmovQv f | vlqmac f => exact vlqmac f | vlqadd f => exact vlqadd f | vlqrnd f => exact vlqrnd f
  | vlqclr f => exact vlqclr f | vpiv f => exact vpiv f | vcvt f => exact vcvt f | vpack4 f => exact vpack4 f
  | vunpack4 f => exact vunpack4 f | vperm f => exact vperm f | vrotl f => exact vrotl f | vslide f => exact vslide f
  | vbcast f => exact vbcast f | viota f => exact viota f | vmov f => exact vmov f | vext f => exact vext f | vins f => exact vins f
  | vrand f => exact vrand f | vtopk f => exact vtopk f | vdigest f => exact vdigest f | vrecip f => exact vrecip f
  | vrsqrt f => exact vrsqrt f | vsqrt f => exact vsqrt f | vexp2 f => exact vexp2 f | vlog2 f => exact vlog2 f | vtanh f => exact vtanh f
  | vsigm f => exact vsigm f | pand f => exact pand f | por f => exact por f | pxor f => exact pxor f | pnot f => exact pnot f
  | pset f => exact pset f | mcfg f => exact mcfg f | macc f => exact macc f | mshift f => exact mshift f | mscale f => exact mscale f
  | mdrain f => exact mdrain f | mdrainq f => exact mdrainq f | mclr f => exact mclr f | msave f => exact msave f
  | mrestore f => exact mrestore f | mbar f => exact mbar f | cqpush f => exact cqpush f | cwait f => exact cwait f
  | cdone f => exact cdone f | ckick f => exact ckick f | cqres f => exact cqres f
  | _ => trivial

end Sys2Proof.Laws.RoundTrip

namespace Sys2Proof

/-- Settles O1: by the lemma of the instruction's own constructor. -/
theorem encodeDecode : Obligations.EncodeDecode := by
  intro i k hk hw
  have h := Laws.RoundTrip.statement i
  simp only [Laws.RoundTrip.Statement, hk] at h
  exact h hw

end Sys2Proof
end

section
/-! The issue of one bundle by a lone tile: its NOPs do nothing, and what follows is what its one other syllable left
(spec/04_bundles.md R79, R80; spec/05_scalar_control.md R127, R141). -/

namespace Sys2Proof.Machine

/-! ### NOPs in a bundle -/

/-- The state in which syllable `k` of a bundle executes. -/
def State.atSlot (s : State) (k : Nat) : State := { (s.onTile fun t => { t with slot := k }) with lastTrap := none }

/-- The same tile at another syllable. -/
def State.withSlot (s : State) (k : Nat) : State := s.onTile fun t => { t with slot := k }

theorem State.atSlot_eq_withSlot {s : State} (h : s.lastTrap = none) (k : Nat) : s.atSlot k = s.withSlot k := by
  cases s
  cases h
  rfl

/-- Syllables that are all NOPs. -/
def Nops (l : Syllables) : Prop := ∀ e ∈ l, ∃ m, e.2 = Instr.nop m

theorem Nops.filter {l : Syllables} (h : Nops l) (p : Nat × Instr → Bool) : Nops (l.filter p) :=
  fun e he => h e (List.mem_of_mem_filter he)

theorem Nops.append {l r : Syllables} (hl : Nops l) (hr : Nops r) : Nops (l ++ r) :=
  fun e he => (List.mem_append.mp he).elim (hl e) (hr e)

theorem runSyllables_nop (k : Nat) (m : Bool) (rest : Syllables) (s : State) (traps : List (Nat × TrapInfo)) :
    runSyllables ((k, .nop m) :: rest) s traps = runSyllables rest (s.atSlot k) traps := rfl

/-- NOPs leave the state as it was, but for the number of the syllable and a trap noted before. -/
theorem runSyllables_nops_append {l : Syllables} (h : Nops l) (s : State) : ∃ t : State,
    (∀ k, t.atSlot k = s.atSlot k) ∧ (s.lastTrap = none → ∃ j, t = s.withSlot j) ∧
      ∀ rest traps, runSyllables (l ++ rest) s traps = runSyllables rest t traps := by
  induction l generalizing s with
  | nil => exact ⟨s, fun _ => rfl, fun _ => ⟨s.tile.slot, rfl⟩, fun _ _ => rfl⟩
  | cons e l ih =>
    obtain ⟨k, i⟩ := e
    obtain ⟨m, rfl⟩ : ∃ m, i = Instr.nop m := h (k, i) List.mem_cons_self
    obtain ⟨t, hat, hslot, hrun⟩ := ih (fun e he => h e (List.mem_cons_of_mem _ he)) (s.atSlot k)
    refine ⟨t, hat, fun hs => ?_, fun rest traps => ?_⟩
    · obtain ⟨j, rfl⟩ := hslot rfl
      rw [State.atSlot_eq_withSlot hs]
      exact ⟨j, rfl⟩
    · rw [List.cons_append, runSyllables_nop, hrun]

/-! ### One syllable among NOPs -/

section
variable {i : Instr} {k : Nat} {s w : State} (hw : exec i (s.atSlot k) = .next w)
include hw

/-- A syllable that completes is followed by the others, in the state that it left. -/
theorem runSyllables_cons_ok (hn : w.lastTrap = none) (rest : Syllables) (traps : List (Nat × TrapInfo)) :
    runSyllables ((k, i) :: rest) s traps = runSyllables rest w traps := by
  rw [State.atSlot] at hw
  simp only [runSyllables, hw, hn]

/-- A syllable that traps leaves its trap alone (R80). -/
theorem runSyllables_cons_trap {x : TrapInfo} (hx : w.lastTrap = some x) (rest : Syllables) (traps : List (Nat × TrapInfo)) :
    runSyllables ((k, i) :: rest) s traps = runSyllables rest s (traps ++ [(k, x)]) := by
  rw [State.atSlot] at hw
  simp only [runSyllables, hw, hx]

variable {l r : Syllables} (hl : Nops l) (hr : Nops r)
include hl hr

theorem runSyllables_lone_ok (hn : w.lastTrap = none) : ∃ j, runSyllables (l ++ (k, i) :: r) s [] = .ok (w.withSlot j) [] := by
  obtain ⟨t, hat, -, hrun⟩ := runSyllables_nops_append hl s
  obtain ⟨v, -, hslot, hrest⟩ := runSyllables_nops_append hr w
  obtain ⟨j, rfl⟩ := hslot hn
  refine ⟨j, ?_⟩
  rw [hrun, runSyllables_cons_ok ((hat k).symm ▸ hw) hn, ← List.append_nil r, hrest]
  rfl

theorem runSyllables_lone_trap {x : TrapInfo} (hx : w.lastTrap = some x) :
    ∃ t, runSyllables (l ++ (k, i) :: r) s [] = .ok t [(k, x)] := by
  obtain ⟨t, hat, -, hrun⟩ := runSyllables_nops_append hl s
  obtain ⟨v, -, -, hrest⟩ := runSyllables_nops_append hr t
  refine ⟨v, ?_⟩
  rw [hrun, runSyllables_cons_trap ((hat k).symm ▸ hw) hx, ← List.append_nil r, hrest]
  rfl

end

/-- Syllables 1-7 and then K: one syllable among NOPs is still one among NOPs. -/
theorem exists_order_of_lone {pre post : Syllables} (h : Nops (pre ++ post)) (k : Nat) (i : Instr) : ∃ l r, Nops l ∧ Nops r ∧
    (pre ++ [(k, i)] ++ post).filter (fun e => e.1 != 0) ++ (pre ++ [(k, i)] ++ post).filter (fun e => e.1 == 0) = l ++ (k, i) :: r := by
  have hpre : Nops pre := fun e he => h e (List.mem_append_left _ he)
  have hpost : Nops post := fun e he => h e (List.mem_append_right _ he)
  by_cases hk : k = 0
  · refine ⟨pre.filter (fun e => e.1 != 0) ++ post.filter (fun e => e.1 != 0) ++ pre.filter (fun e => e.1 == 0), post.filter fun e => e.1 == 0,
      ((hpre.filter _).append (hpost.filter _)).append (hpre.filter _), hpost.filter _, ?_⟩
    simp [hk]
  · refine ⟨pre.filter fun e => e.1 != 0, post.filter (fun e => e.1 != 0) ++ (pre.filter (fun e => e.1 == 0) ++ post.filter fun e => e.1 == 0),
      hpre.filter _, (hpost.filter _).append ((hpre.filter _).append (hpost.filter _)), ?_⟩
    simp [hk]

/-! ### The bundle -/

/-- The state in which the syllables of a bundle of a lone tile execute. -/
def State.begun (s : State) (b : Bundle) : State :=
  (s.onTile fun t => { t with lit := Bundle.literal b, kval := none }).onCtl fun c => { c with transfer := none, lastPc := c.pc }

/-- What a completed bundle leaves before the next one is chosen, for a tile that fetched it in the state `s`: the next bundle issues one tile
cycle later. -/
def State.completed (w s : State) : State :=
  (w.onTile fun t => { t with lit := none, kval := none, slot := 0 }).onCtl fun c => { c with nextIssue := s.after 1 }

/-- The transfer that was pending when the bundle issued is taken, or the next address follows, but where a task has ended (R127). -/
def State.succeeded (w s : State) : State :=
  if w.tile.place.status = .starting ∨ w.tile.place.status = .ended then w.completed s
  else (w.completed s).advance s.tile.ctl.transfer s.tile.ctl.levels (w.completed s).tile.ctl.requested

section
variable {s w : State} {b : Bundle} {pre post : Syllables} {k : Nat} {i : Instr} (h : Nops (pre ++ post))
  (hw : exec i ((s.begun b).atSlot k) = .next w)
include h hw

theorem State.executeBundle_lone_ok (hn : w.lastTrap = none) (hf : overFlow s.tile w.tile = none) :
    s.executeBundle b none none (pre ++ [(k, i)] ++ post) = .ok (w.succeeded s) [] := by
  obtain ⟨l, r, hl, hr, hlr⟩ := exists_order_of_lone h k i
  obtain ⟨j, hj⟩ := runSyllables_lone_ok hw hl hr hn
  rw [State.begun] at hj
  have hf' : overFlow s.tile (w.withSlot j).tile = none := hf
  simp only [State.executeBundle, hlr, hj, firstTrap, hf']
  rfl

theorem State.executeBundle_lone_trap {x : TrapInfo} (hx : w.lastTrap = some x) :
    s.executeBundle b none none (pre ++ [(k, i)] ++ post) = .ok ((s.withSlot k).takeTrap x) [(k, x)] := by
  obtain ⟨l, r, hl, hr, hlr⟩ := exists_order_of_lone h k i
  obtain ⟨t, ht⟩ := runSyllables_lone_trap hw hl hr hx
  rw [State.begun] at ht
  simp only [State.executeBundle, hlr, ht, firstTrap]
  rfl

end

/-! ### Fetch -/

/-- With an empty loop stack and one version of it, the bundle in instruction memory is fetched. -/
theorem State.fetch_plain {s : State} {pc : Nat} (he : find s.tile.iecc (pc / 32) = none) (hs : s.tile.stale = [])
    (hl : s.tile.ctl.levels = []) : s.fetch pc = (s, some (s.tile.bundleAt pc)) := by
  have hb : s.tile.buffered pc = none := by rw [Tile.buffered, hl]
  have hv : s.tile.versions pc = [s.tile.bundleAt pc] := by rw [Tile.versions, hb, hs]; rfl
  have hc : s.tile.capture pc (s.tile.bundleAt pc) = s.tile := by rw [Tile.capture, hl]
  simp only [State.fetch, he, hb, hv, State.pickFetch, pickBundle, hc]
  rfl

/-- A fetch takes no time. -/
theorem State.fetch_cycle {s u : State} {pc : Nat} {b : Bundle} (h : s.fetch pc = (u, some b)) : u.cycle = s.cycle := by
  unfold State.fetch at h
  split at h <;> cases h <;> rfl

/-! ### The issue phase -/

section
variable {s u : State} {b : Bundle} {l : Syllables} (hpc : s.tile.ctl.pc % 32 = 0) (hend : s.tile.ctl.pc < 0x10000)
  (hf : s.fetch s.tile.ctl.pc = (u, some b)) (hc : checkBundle u.tile.mx.mode b = .ok l)
  (hm : ¬(s.cycle < s.tile.ctl.scatterUntil ∧ isMemory (b.syllable 3) = true)) (hst : stageCheck s.tile.ctl.levels s.tile.ctl.pc l = .ok l)
include hpc hend hf hc hm hst

/-- A bundle that passes its checks and traps leaves the trap (R141). -/
theorem State.issueBundle_trap {r : State} {e : Nat × TrapInfo} {es : List (Nat × TrapInfo)}
    (hx : u.executeBundle b none none l = .ok r (e :: es)) : s.issueBundle = .next r := by
  rw [← State.fetch_cycle hf] at hm
  have ht : ¬(s.tile.ctl.pc % 32 ≠ 0 ∨ 0x10000 ≤ s.tile.ctl.pc) := by omega
  simp only [State.issueBundle, State.ctl_eq, if_neg ht, hf, hc, if_neg hm, hst, hx]

/-- A bundle of a lone tile that passes its checks and completes, and the halt at a halt point (R137). -/
theorem State.issueBundle_ok {r : State} (hx : u.executeBundle b none none l = .ok r []) (hg : r.tile.place.members.length ≤ 1) :
    s.issueBundle = .next (if r.haltsNow = true then (r.preempted r.tile.ctl.waits).pop else r.pop) := by
  rw [← State.fetch_cycle hf] at hm
  have ht : ¬(s.tile.ctl.pc % 32 ≠ 0 ∨ 0x10000 ≤ s.tile.ctl.pc) := by omega
  have hgang : ¬ r.tile.ganged = true := by simpa [Tile.ganged] using hg
  simp only [State.issueBundle, State.ctl_eq, if_neg ht, hf, hc, if_neg hm, hst, hx, if_neg hgang]
  split <;> rfl

end

/-- Charging an overrun leaves the phases of the cycle as they are. -/
theorem State.chargeDebt_todo (s : State) (q : Nat) : (s.chargeDebt q).todo = s.todo := by
  rw [State.chargeDebt]
  cases find s.contexts s.tile.place.ctx with
  | none => rfl
  | some c =>
    dsimp only
    generalize min (s.cycle - q - 12800) _ = d
    split <;> rfl

/-- A halt leaves the phases of the cycle as they are. -/
theorem State.preempted_todo (s : State) (l : List Wait) : (s.preempted l).todo = s.todo := by
  have hhalt (u : State) : (u.haltTile l).todo = u.todo := by
    unfold State.haltTile
    dsimp only
    split
    · rfl
    · split <;> rfl
  rw [State.preempted, hhalt, State.chargeDebt_todo]

theorem State.focus_cur (s : State) : s.focus s.cur = s := if_pos rfl

/-- With no event due, a step is the phase at the head of the cycle's list. -/
theorem step_phase {s : State} {t : Nat} {p : Phase} {rest : List (Nat × Phase)} (he : s.nextEvent = none) (ht : s.todo = (t, p) :: rest) :
    step s = s.phase t p := by
  simp only [step, he, ht]

/-- The issue phase of a lone tile with nothing before its bundle issues the bundle. -/
theorem State.issuePhase_lone {s : State} (hstatus : s.tile.place.status = .issuing) (hg : s.tile.place.members.length ≤ 1)
    (hstop : s.tile.place.stop = none) (hissue : s.tile.ctl.nextIssue ≤ s.cycle) (hleave : s.tile.ctl.leaving = false)
    (hgate : s.tile.place.gated = false) (hhalt : s.tile.ctl.haltPoint = false ∨ s.tile.ctl.requested = false)
    (hentry : s.tile.ctl.entry = none) (hland : s.tile.ctl.landing = none) : s.issuePhase = s.issueBundle := by
  have hgang : s.tile.ganged = false := by simpa [Tile.ganged] using hg
  have hh : s.haltsNow = false := by
    rcases hhalt with h | h <;> simp [State.haltsNow, h]
  simp [State.issuePhase, State.leadPhase, hstatus, hgang, hstop, Nat.not_lt.mpr hissue, hleave, hgate, hh, hentry, hland]

/-- Settles O52: the phase at hand issues the bundle, its one syllable that is no NOP executes in the state of the statement, and what
follows is the successor, the halt or the trap. -/
theorem stepRunsDecoded : Obligations.StepRunsDecoded := by
  refine ⟨?event, ?tick, ?fetch, ?issue⟩
  case fetch => exact fun s => State.fetch_plain
  case event =>
    intro s u i x h
    simp only [step, h]
  case tick =>
    intro s he ht
    simp only [step, he, ht]
  case issue =>
    intro s u w rest b l pre post k i he htodo hstatus hg hstop hissue hleave hgate hhalt hentry hland hpc hend hf hc hm hst hl hnops hexec
    have hstep : step s = s.issueBundle := by
      rw [step_phase he htodo]
      change (s.focus s.cur).issuePhase = _
      rw [State.focus_cur, State.issuePhase_lone hstatus hg hstop hissue hleave hgate hhalt hentry hland]
    subst hl
    have hexec : exec i ((u.begun b).atSlot k) = .next w := hexec
    constructor
    · intro hn hof v r hr
      have hrun : s.issueBundle = .next (if r.haltsNow = true then (r.preempted r.tile.ctl.waits).pop else r.pop) :=
        State.issueBundle_ok hpc hend hf hc hm hst (State.executeBundle_lone_ok hnops hexec hn hof) hr
      rw [hstep, hrun]
      constructor
      · intro h
        rw [if_neg (Bool.eq_false_iff.mp h)]
        rfl
      · intro h
        rw [if_pos h, State.pop, State.preempted_todo]
    · intro x hx
      rw [hstep]
      exact State.issueBundle_trap hpc hend hf hc hm hst (State.executeBundle_lone_trap hnops hexec hx)

end Sys2Proof.Machine
end

section
/-! Scalar results: what a scalar instruction with its predicate on, and one with an immediate, puts in flight, and the statements on
arithmetic, logic, counts and bitfields (spec/05_scalar_control.md R112-R118). -/

namespace Sys2Proof.Machine

/-! ### The two forms -/

/-- The state with a result of latency `l` for register `d` in flight, a lost latch noted (R27, R35, R112). -/
def State.scalarResult (s : State) (lost : Bool) (l : Nat) (d : BitVec 6) (w : W64) (nwb : Bool) : State :=
  (s.withLost lost).withResult l (.s d.toNat s.tile.ctl.handler) (.word w) 0 nwb (some s.ownLatch)

theorem State.putS_withLost (s : State) (lost : Bool) (l : Nat) (d : BitVec 6) (w : W64) (nwb : Bool) :
    (s.withLost lost).putS l d w 0 nwb = s.scalarResult lost l d w nwb := by
  simp [State.putS, State.issue_eq, State.sLatch_eq, State.scalarResult]

theorem State.putS_eq (s : State) (l : Nat) (d : BitVec 6) (w : W64) (nwb : Bool) :
    s.putS l d w 0 nwb = s.scalarResult false l d w nwb := s.putS_withLost false l d w nwb

theorem State.scalarOp_on {s : State} {f : RG} (h : s.tile.predOn f.pred = true) (l : Nat) (op : W64 → W64 → W64 → W64) :
    s.scalarOp f l op = s.scalarResult (s.tile.scalarLost f.srcA || s.tile.scalarLost f.srcB) l f.dst
      (op (s.tile.scalar f.srcA) (s.tile.scalar f.srcB) (s.tile.sreg f.dst.toNat)) f.nwb := by
  rw [State.scalarOp, if_pos h, State.touchS_two, State.putS_withLost]

/-- An RG instruction whose word has another form. -/
theorem State.next_scalarOp {s : State} {f : RG} {l : Nat} {op : W64 → W64 → W64 → W64} {w : W64} (h : s.tile.predOn f.pred = true)
    (hw : op (s.tile.scalar f.srcA) (s.tile.scalar f.srcB) (s.tile.sreg f.dst.toNat) = w) :
    (.next (s.scalarOp f l op) : Out) =
      .next (s.scalarResult (s.tile.scalarLost f.srcA || s.tile.scalarLost f.srcB) l f.dst w f.nwb) := by
  rw [State.scalarOp_on h, hw]

theorem State.next_immOp {s : State} {f : RI} {op : W64 → W64 → W64} {w : W64}
    (hw : op (s.tile.scalar f.srcA) (f.imm.signExtend 64) = w) :
    (.next (s.immOp f op) : Out) = .next (s.scalarResult (s.tile.scalarLost f.srcA) 1 f.dst w false) := by
  rw [State.immOp, State.touchS_one, State.putS_withLost, hw]

theorem State.next_putS {s : State} {l : Nat} {d : BitVec 6} {v w : W64} {nwb : Bool} (hw : v = w) :
    (.next (s.putS l d v 0 nwb) : Out) = .next (s.scalarResult false l d w nwb) := by
  rw [State.putS_eq, hw]

/-! ### Products and quotients (R114, R115) -/

theorem add_eq_ofInt (a b : W64) : a + b = .ofInt 64 (a.toInt + b.toInt) := by
  rw [BitVec.ofInt_add, BitVec.ofInt_toInt, BitVec.ofInt_toInt]
theorem sub_eq_ofInt (a b : W64) : a - b = .ofInt 64 (a.toInt - b.toInt) :=
  BitVec.eq_of_toInt_eq (by rw [BitVec.toInt_sub, BitVec.toInt_ofInt])
theorem mul_eq_ofInt (a b : W64) : a * b = .ofInt 64 (a.toInt * b.toInt) := by
  rw [BitVec.ofInt_mul, BitVec.ofInt_toInt, BitVec.ofInt_toInt]

/-- The product of two words fits 128 bits, so its high half is a quotient by 2^64. -/
theorem mulhu_eq (a b : W64) : ((a.setWidth 128) * (b.setWidth 128)).extractLsb' 64 64 = .ofNat 64 (a.toNat * b.toNat / 2 ^ 64) := by
  have hlt : a.toNat * b.toNat < 2 ^ 128 := by
    calc a.toNat * b.toNat < 2 ^ 64 * 2 ^ 64 := Nat.mul_lt_mul'' a.isLt b.isLt
      _ = 2 ^ 128 := by norm_num
  apply BitVec.eq_of_toNat_eq
  have ha := a.isLt
  have hb := b.isLt
  rw [BitVec.extractLsb'_toNat, BitVec.toNat_mul, BitVec.toNat_setWidth, BitVec.toNat_setWidth, BitVec.toNat_ofNat,
    Nat.mod_eq_of_lt (show a.toNat < 2 ^ 128 by omega), Nat.mod_eq_of_lt (show b.toNat < 2 ^ 128 by omega), Nat.mod_eq_of_lt hlt,
    Nat.shiftRight_eq_div_pow]

/-- The high half of a 128-bit number in two's complement is its quotient by 2^64, rounded down. -/
theorem extractLsb'_ofInt (p : Int) : (BitVec.ofInt 128 p).extractLsb' 64 64 = .ofInt 64 (p / 2 ^ 64) := by
  apply BitVec.eq_of_toNat_eq
  rw [BitVec.extractLsb'_toNat, BitVec.toNat_ofInt, BitVec.toNat_ofInt, Nat.shiftRight_eq_div_pow]
  norm_num only
  omega

theorem mulh_eq (a b : W64) :
    ((a.signExtend 128) * (b.signExtend 128)).extractLsb' 64 64 = .ofInt 64 (a.toInt * b.toInt / 2 ^ 64) := by
  rw [BitVec.signExtend, BitVec.signExtend, ← BitVec.ofInt_mul, extractLsb'_ofInt]

/-- The least number divided by -1 overflows to itself, with remainder 0. -/
theorem sdivWord_overflow {a b : W64} (ha : a.toInt = -2 ^ 63) (hb : b.toInt = -1) :
    sdivWord a b = .ofInt 64 (-2 ^ 63) ∧ sremWord a b = 0 := by
  have h0 : b ≠ 0 := by rintro rfl; simp at hb
  simp only [sdivWord, sremWord, if_neg h0, ha, hb]
  decide

/-! ### Shifts (R114) -/

theorem shl_eq (a : W64) (n : Nat) : a <<< n = .ofNat 64 (a.toNat * 2 ^ n) :=
  BitVec.eq_of_toNat_eq (by rw [BitVec.toNat_shiftLeft, BitVec.toNat_ofNat, Nat.shiftLeft_eq])
theorem shr_eq (a : W64) (n : Nat) : a >>> n = .ofNat 64 (a.toNat / 2 ^ n) := by
  rw [← Nat.shiftRight_eq_div_pow, ← BitVec.toNat_ushiftRight, BitVec.ofNat_toNat, BitVec.setWidth_eq]
theorem sra_eq (a : W64) (n : Nat) : a.sshiftRight n = .ofInt 64 (a.toInt / 2 ^ n) := by
  rw [BitVec.sshiftRight, Int.shiftRight_eq_div_pow]; norm_cast

/-- The two parts of a rotation do not overlap. -/
theorem rotl_eq (a : W64) {n : Nat} (h : n < 64) :
    a.rotateLeft n = .ofNat 64 (a.toNat * 2 ^ n % 2 ^ 64 + a.toNat / 2 ^ (64 - n)) := by
  rw [BitVec.rotateLeft_def, Nat.mod_eq_of_lt h]
  have hlt : a.toNat / 2 ^ (64 - n) < 2 ^ n := by
    rw [Nat.div_lt_iff_lt_mul (by positivity), ← pow_add, Nat.add_sub_of_le h.le]
    exact a.isLt
  have hdvd : a.toNat * 2 ^ n % 2 ^ 64 = 2 ^ n * (a.toNat % 2 ^ (64 - n)) := by
    rw [mul_comm, ← Nat.mul_mod_mul_left, ← pow_add, Nat.add_sub_of_le h.le]
  apply BitVec.eq_of_toNat_eq
  rw [BitVec.toNat_or, BitVec.toNat_shiftLeft, BitVec.toNat_ushiftRight, Nat.shiftLeft_eq, Nat.shiftRight_eq_div_pow, hdvd,
    ← Nat.two_pow_add_eq_or_of_lt hlt, BitVec.toNat_ofNat]
  refine (Nat.mod_eq_of_lt ?_).symm
  have := Nat.mod_lt a.toNat (show 0 < 2 ^ (64 - n) by positivity)
  calc 2 ^ n * (a.toNat % 2 ^ (64 - n)) + a.toNat / 2 ^ (64 - n)
      < 2 ^ n * (a.toNat % 2 ^ (64 - n)) + 2 ^ n := by omega
    _ = 2 ^ n * (a.toNat % 2 ^ (64 - n) + 1) := by ring
    _ ≤ 2 ^ n * 2 ^ (64 - n) := Nat.mul_le_mul_left _ this
    _ = 2 ^ 64 := by rw [← pow_add, Nat.add_sub_of_le h.le]

theorem amount_lt (b : W64) : amount b < 64 := Nat.mod_lt _ (by decide)

/-! ### Orders (R114) -/

theorem beq_eq_decide_toNat (a b : W64) : (a == b) = decide (a.toNat = b.toNat) := by
  simp only [BitVec.toNat_inj, beq_eq_decide]
theorem bne_eq_decide_toNat (a b : W64) : (a != b) = decide (a.toNat ≠ b.toNat) := by
  rw [bne, beq_eq_decide_toNat, decide_not]
theorem minS_eq (a b : W64) : (if b.slt a then b else a) = .ofInt 64 (min a.toInt b.toInt) := by
  simp only [BitVec.slt, decide_eq_true_eq]
  split
  · rw [min_eq_right (by omega), BitVec.ofInt_toInt]
  · rw [min_eq_left (by omega), BitVec.ofInt_toInt]
theorem maxS_eq (a b : W64) : (if a.slt b then b else a) = .ofInt 64 (max a.toInt b.toInt) := by
  simp only [BitVec.slt, decide_eq_true_eq]
  split
  · rw [max_eq_right (by omega), BitVec.ofInt_toInt]
  · rw [max_eq_left (by omega), BitVec.ofInt_toInt]
theorem minU_eq (a b : W64) : (if b.ult a then b else a) = .ofNat 64 (min a.toNat b.toNat) := by
  simp only [BitVec.ult, decide_eq_true_eq]
  split
  · rw [min_eq_right (by omega), BitVec.ofNat_toNat, BitVec.setWidth_eq]
  · rw [min_eq_left (by omega), BitVec.ofNat_toNat, BitVec.setWidth_eq]
theorem maxU_eq (a b : W64) : (if a.ult b then b else a) = .ofNat 64 (max a.toNat b.toNat) := by
  simp only [BitVec.ult, decide_eq_true_eq]
  split
  · rw [max_eq_right (by omega), BitVec.ofNat_toNat, BitVec.setWidth_eq]
  · rw [max_eq_left (by omega), BitVec.ofNat_toNat, BitVec.setWidth_eq]

/-! ### Immediates (R117, R118) -/

theorem toInt_imm (i : BitVec 11) : (i.signExtend 64).toInt = i.toInt := BitVec.toInt_signExtend_of_le (by decide)
theorem amount_imm (i : BitVec 11) : amount (i.signExtend 64) = i.toNat % 64 := by
  rw [amount, BitVec.toNat_signExtend]
  split
  · simp; omega
  · simp

theorem beq_imm (a : W64) (i : BitVec 11) : (a == i.signExtend 64) = decide (a.toInt = i.toInt) := by
  simp only [← toInt_imm i, BitVec.toInt_inj, beq_eq_decide]
theorem slt_imm (a : W64) (i : BitVec 11) : a.slt (i.signExtend 64) = decide (a.toInt < i.toInt) := by
  rw [BitVec.slt, toInt_imm]

/-- MOVHI's word: the immediate above the low 12 bits of the register, its sign in bit 31. -/
theorem movhi_eq (i : BitVec 20) (d : W64) :
    (i ++ d.extractLsb' 0 12).signExtend 64 = .ofInt 64 (BitVec.ofNat 32 (i.toNat * 4096 + d.toNat % 4096)).toInt := by
  have : i ++ d.extractLsb' 0 12 = BitVec.ofNat 32 (i.toNat * 4096 + d.toNat % 4096) := by
    apply BitVec.eq_of_toNat_eq
    have hi := i.isLt
    rw [BitVec.toNat_append, BitVec.extractLsb'_toNat, BitVec.toNat_ofNat, Nat.shiftRight_zero,
      Nat.shiftLeft_eq, mul_comm, ← Nat.two_pow_add_eq_or_of_lt (Nat.mod_lt _ (by decide))]
    omega
  rw [this, BitVec.signExtend]
theorem movfi_eq (i : BitVec 20) : i.setWidth 64 <<< 12 = .ofNat 64 (i.toNat * 4096) := by
  rw [shl_eq, BitVec.toNat_setWidth_of_le (by decide)]; rfl

/-! ### Counts (R114) -/

theorem leadingZeros_eq (a : W64) (n : Nat) :
    leadingZeros a n = if a.toNat % 2 ^ n = 0 then n else n - 1 - (a.toNat % 2 ^ n).log2 := by
  induction n with
  | zero => simp [leadingZeros, Nat.mod_one]
  | succ n ih =>
    have hlow : a.toNat % 2 ^ n < 2 ^ n := Nat.mod_lt _ (by positivity)
    rw [leadingZeros, Nat.mod_pow_succ, ← Nat.toNat_testBit, BitVec.testBit_toNat]
    cases a.getLsbD n with
    | true =>
      have hlog : (a.toNat % 2 ^ n + 2 ^ n).log2 = n := (Nat.log2_eq_iff (by omega)).2 ⟨by omega, by rw [pow_succ]; omega⟩
      simp [hlog]
    | false =>
      rw [if_neg (by decide), ih, Bool.toNat_false, mul_zero, add_zero]
      split
      · omega
      · next h =>
        have := (Nat.log2_lt h).2 hlow
        omega

theorem clz_eq (a : W64) : leadingZeros a 64 = if a = 0 then 64 else 63 - a.toNat.log2 := by
  rw [leadingZeros_eq, Nat.mod_eq_of_lt a.isLt]
  simp only [BitVec.toNat_eq]
  rfl

/-- The count of zeros from bit 64 - n on ends at the lowest set bit, or after n bits. -/
theorem trailingZeros_spec (a : W64) {n : Nat} (hn : n ≤ 64) :
    trailingZeros a n ≤ n ∧ (∀ i, i < trailingZeros a n → a.getLsbD (64 - n + i) = false) ∧
      (trailingZeros a n < n → a.getLsbD (64 - n + trailingZeros a n) = true) := by
  induction n with
  | zero => simp [trailingZeros]
  | succ n ih =>
    obtain ⟨hle, hzero, hone⟩ := ih (by omega)
    have hbit : 64 - (n + 1) = 63 - n := by omega
    have hnext (i : Nat) : 63 - n + (1 + i) = 64 - n + i := by omega
    rw [trailingZeros, hbit]
    split
    · next h => exact ⟨by omega, by omega, fun _ => h⟩
    · next h =>
      refine ⟨by omega, fun i hi => ?_, fun h' => by rw [hnext]; exact hone (by omega)⟩
      obtain _ | i := i
      · simpa using h
      · rw [add_comm i 1, hnext]; exact hzero i (by omega)

theorem bitCount_eq_countP {w : Nat} (a : BitVec w) (n : Nat) : bitCount a n = (List.range n).countP fun i => a.getLsbD i := by
  induction n with
  | zero => rfl
  | succ n ih => rw [bitCount, ih, List.range_succ, List.countP_append, List.countP_singleton, Nat.add_comm]

/-! ### Bitfields (R116) -/

/-- The length of a bitfield, at most 64. -/
def fieldLength (b : W64) : Nat := min (b.toNat / 64 % 128) 64

theorem fieldMask_eq (b : W64) : fieldMask b = .ofNat 64 (2 ^ fieldLength b - 1) := rfl

theorem toNat_fieldMask (b : W64) : (fieldMask b).toNat = 2 ^ fieldLength b - 1 := by
  have : 2 ^ fieldLength b ≤ 2 ^ 64 := Nat.pow_le_pow_right (by decide) (min_le_right _ _)
  rw [fieldMask_eq, BitVec.toNat_ofNat, Nat.mod_eq_of_lt (by omega)]

theorem getLsbD_fieldMask (b : W64) (i : Nat) : (fieldMask b).getLsbD i = decide (i < fieldLength b) := by
  rw [← BitVec.testBit_toNat, toNat_fieldMask, Nat.testBit_two_pow_sub_one]

theorem extract_eq (a b : W64) : extract a b = .ofNat 64 (a.toNat / 2 ^ amount b % 2 ^ fieldLength b) := by
  rw [extract, shr_eq]
  apply BitVec.eq_of_toNat_eq
  have hlt : a.toNat / 2 ^ amount b < 2 ^ 64 := (Nat.div_le_self _ _).trans_lt a.isLt
  rw [BitVec.toNat_and, toNat_fieldMask, Nat.and_two_pow_sub_one_eq_mod, BitVec.toNat_ofNat, BitVec.toNat_ofNat,
    Nat.mod_eq_of_lt hlt, Nat.mod_eq_of_lt ((Nat.mod_le _ _).trans_lt hlt)]

theorem getLsbD_insert (a b d : W64) {i : Nat} (h : i < 64) :
    (insert a b d).getLsbD i = if amount b ≤ i ∧ i < amount b + fieldLength b then a.getLsbD (i - amount b) else d.getLsbD i := by
  simp only [insert, BitVec.getLsbD_or, BitVec.getLsbD_and, BitVec.getLsbD_not, BitVec.getLsbD_shiftLeft, getLsbD_fieldMask, h,
    decide_true, Bool.true_and]
  by_cases hlo : amount b ≤ i
  · have hfield : i - amount b < fieldLength b ↔ i < amount b + fieldLength b := by omega
    by_cases hhi : i < amount b + fieldLength b <;> simp [hlo, hhi, hfield, not_lt.2 hlo]
  · simp [hlo, not_le.1 hlo]

/-! ### The statements -/

/-- Settles O7: each operation is the exact one on the integers that the words stand for. -/
theorem integerArithmetic : Obligations.IntegerArithmetic := by
  intro s f h
  exact ⟨State.next_scalarOp h (add_eq_ofInt _ _), State.next_scalarOp h (sub_eq_ofInt _ _), State.next_scalarOp h (mul_eq_ofInt _ _),
    State.next_scalarOp h (mulh_eq _ _), State.next_scalarOp h (mulhu_eq _ _), State.next_scalarOp h rfl, State.next_scalarOp h rfl,
    State.next_scalarOp h rfl, State.next_scalarOp h rfl, fun ha hb =>
      ⟨State.next_scalarOp h (sdivWord_overflow ha hb).1, State.next_scalarOp h (sdivWord_overflow ha hb).2⟩⟩

/-- Settles O8: bits, shifts and orders of words are those of the numbers that they stand for. -/
theorem logicAndImmediates : Obligations.LogicAndImmediates := by
  refine ⟨fun s f h => ?_, fun s f g => ?_⟩
  · exact ⟨State.next_scalarOp h rfl, State.next_scalarOp h rfl, State.next_scalarOp h rfl, State.next_scalarOp h rfl,
      State.next_scalarOp h rfl, State.next_scalarOp h (ite_not ..), State.next_scalarOp h (shl_eq _ _), State.next_scalarOp h (shr_eq _ _),
      State.next_scalarOp h (sra_eq _ _), State.next_scalarOp h (rotl_eq _ (amount_lt _)),
      State.next_scalarOp h (congrArg ofBool (beq_eq_decide_toNat _ _)), State.next_scalarOp h (congrArg ofBool (bne_eq_decide_toNat _ _)),
      State.next_scalarOp h rfl, State.next_scalarOp h rfl, State.next_scalarOp h rfl, State.next_scalarOp h rfl,
      State.next_scalarOp h (minS_eq _ _), State.next_scalarOp h (maxS_eq _ _), State.next_scalarOp h (minU_eq _ _),
      State.next_scalarOp h (maxU_eq _ _)⟩
  · exact ⟨State.next_immOp ((add_eq_ofInt _ _).trans (by rw [toInt_imm])), State.next_immOp rfl, State.next_immOp rfl, State.next_immOp rfl,
      State.next_immOp ((shl_eq _ _).trans (by rw [amount_imm])), State.next_immOp ((shr_eq _ _).trans (by rw [amount_imm])),
      State.next_immOp ((sra_eq _ _).trans (by rw [amount_imm])), State.next_immOp (congrArg ofBool (beq_imm _ _)),
      State.next_immOp (congrArg ofBool (slt_imm _ _)), State.next_immOp rfl, State.next_putS rfl, State.next_putS (movhi_eq _ _),
      State.next_putS (movfi_eq _)⟩

/-- Settles O9: the recursions over bits count and find what the table names. -/
theorem countsAndBitfields : Obligations.CountsAndBitfields := by
  intro s f h
  obtain ⟨hle, hzero, hone⟩ := trailingZeros_spec (s.tile.scalar f.srcA) le_rfl
  exact ⟨State.next_scalarOp h (congrArg _ (clz_eq _)),
    ⟨_, State.next_scalarOp h rfl, hle, by simpa using hzero, by simpa using hone⟩,
    State.next_scalarOp h (congrArg _ (bitCount_eq_countP _ _)), State.next_scalarOp h (extract_eq _ _),
    ⟨_, State.next_scalarOp h rfl, fun i hi => getLsbD_insert _ _ _ hi⟩⟩

end Sys2Proof.Machine
end

section
/-! Predicated-off instructions: each shared form of the predicated instructions leaves the state as it is when bit 0 of the predicate is
clear, and the statement that they settle (spec/05_scalar_control.md R112; spec/06_memory_sync_ops.md R150, R163; spec/07_vector.md R181). -/

namespace Sys2Proof.Machine

section
variable {s : State} {f : RG} (h : s.tile.predOn f.pred = false)
include h

theorem State.scalarOp_off (l : Nat) (op : W64 → W64 → W64 → W64) : s.scalarOp f l op = s := by simp [State.scalarOp, h]
theorem State.floatOp_off (l : Nat) (op : W64 → W64 → W64 → Option (W64 × Flags)) : s.floatOp f l op = s := by simp [State.floatOp, h]
theorem State.fpRounded_off (l : Nat) (op : Val → Val → Val → OpRes) (ternary : Bool) : s.fpRounded f l op ternary = s := by
  rw [State.fpRounded]
  split
  · simp [h]
  · simp [h, State.floatOp_off h]
theorem State.taperedOp_off (op : Val → Val → Val → OpRes) : s.taperedOp f op = s := by simp [State.taperedOp, h]
theorem State.summary_off (get : Nat → Nat → W64) : s.summary f get = s := by simp [State.summary, h]
theorem State.whole_off (k : State) : s.whole f k = s := by simp [State.whole, h]

/-- FSQRT reads one operand alone: its form is that of the instruction with srcB zero, which has the same predicate. -/
theorem execFsqrt_off : execFsqrt f s = .next s := congrArg _ (State.fpRounded_off (f := { f with srcB := 0 }) h _ _ _)

/-- FCVT has no effect whatever its format and its rounding. -/
theorem execFcvt_off : execFcvt f s = .next s := by
  unfold execFcvt
  refine congrArg _ ?_
  split
  · simp [h]
  · dsimp only
    split
    · simp [h]
    · rw [if_neg (by simp [h])]; exact State.floatOp_off (f := { f with srcB := 0 }) h _ _
end

section
variable {s : State} {f : Mem} (h : s.tile.predOn f.pred = false)
include h

theorem State.loadScalar_off (n : Nat) (ext : Nat → W64) : s.loadScalar f n ext = s := by simp [State.loadScalar, h]
theorem State.storeScalar_off (n : Nat) : s.storeScalar f n = s := by simp [State.storeScalar, h]
end

theorem State.atomic_off {s : State} {f : Atomic} (h : s.tile.predOn f.pred = false) (op bits es : Nat) : s.atomic f op bits es = s := by
  simp [State.atomic, h]
theorem State.withBinding_off {s : State} {f : Copy} (h : s.tile.predOn f.pred = false) (push : Bool) (k : Binding → State) :
    s.withBinding f push k = s := by
  simp [State.withBinding, h]

/-- A meaning written as an `if` on the predicate. -/
theorem next_off {p : Bool} (h : p = false) (s t : State) : (.next (if p then t else s) : Out) = .next s := by rw [h]; rfl

/-- Settles O10: every predicated instruction has one of these forms. -/
theorem predicatedOff : Obligations.PredicatedOff := by
  intro s
  simp only [List.forall_mem_cons]
  refine ⟨fun f h => ?_, fun f h => ?_, fun f h => ?_, fun f h => ?_, fun f h => ?_⟩
  · have op {l op} : (.next (s.scalarOp f l op) : Out) = .next s := congrArg _ (State.scalarOp_off h l op)
    have fp {l op} : (.next (s.floatOp f l op) : Out) = .next s := congrArg _ (State.floatOp_off h l op)
    have rounded {l op k} : (.next (s.fpRounded f l op k) : Out) = .next s := congrArg _ (State.fpRounded_off h l op k)
    have tapered {op} : (.next (s.taperedOp f op) : Out) = .next s := congrArg _ (State.taperedOp_off h op)
    have summary {get} : (.next (s.summary f get) : Out) = .next s := congrArg _ (State.summary_off h get)
    exact ⟨op, op, op, op, op, op, op, op, op, op, op, op, op, op, op, op, op, op, op, op, op, op, op, op, op, op, op, op, op, op, op, op, op, op,
      rounded, rounded, rounded, rounded, rounded, execFsqrt_off h, fp, fp, fp, fp, fp, execFcvt_off h, tapered, tapered, tapered,
      next_off h _ _, next_off h _ _, next_off h _ _, next_off h _ _, summary, summary, summary, List.forall_mem_nil _⟩
  · have load {n ext} : (.next (s.loadScalar f n ext) : Out) = .next s := congrArg _ (State.loadScalar_off h n ext)
    have store {n} : (.next (s.storeScalar f n) : Out) = .next s := congrArg _ (State.storeScalar_off h n)
    exact ⟨load, load, load, load, load, load, load, store, store, store, store, next_off h _ _, next_off h _ _, next_off h _ _,
      next_off h _ _, next_off h _ _, next_off h _ _, List.forall_mem_nil _⟩
  · have atomic {op bits es} : (.next (s.atomic f op bits es) : Out) = .next s := congrArg _ (State.atomic_off h op bits es)
    exact ⟨atomic, atomic, atomic, atomic, atomic, atomic, atomic, atomic, atomic, atomic, atomic, atomic, List.forall_mem_nil _⟩
  · have whole {k} : (.next (s.whole f k) : Out) = .next s := congrArg _ (State.whole_off h k)
    exact ⟨next_off h _ _, whole, whole, whole, whole, whole, whole, whole, whole, whole, whole, whole, List.forall_mem_nil _⟩
  · have bound {push k} : (.next (s.withBinding f push k) : Out) = .next s := congrArg _ (State.withBinding_off h push k)
    exact ⟨bound, bound, bound, bound, bound, List.forall_mem_nil _⟩

end Sys2Proof.Machine
end

section
/-! Address registers, the loop update table, TOPO, RDCYC and the predicate summaries, and the statements that they settle
(spec/05_scalar_control.md R122, R124-R126, R130). -/

namespace Sys2Proof.Machine

/-! ### Address instructions (R122, R130) -/

theorem State.putA_eq (s : State) (d : BitVec 6) (v : W32) (nwb : Bool) :
    s.putA d v nwb = s.withResult 1 (.a d.toNat) (.word (v.setWidth 64)) 0 nwb (some s.ownLatch) := rfl

/-- An address is the low 32 bits of a scalar. -/
theorem address_eq (a : W64) : (a.setWidth 32).setWidth 64 = .ofNat 64 (a.toNat % 2 ^ 32) := by
  apply BitVec.eq_of_toNat_eq
  rw [BitVec.toNat_setWidth, BitVec.toNat_setWidth, BitVec.toNat_ofNat]

/-- An address moves by a signed immediate modulo 2^32. -/
theorem address_add_eq (a : W64) (i : BitVec 11) :
    (a.setWidth 32 + i.signExtend 32).setWidth 64 = .ofNat 64 (((a.toNat : Int) + i.toInt) % 2 ^ 32).toNat := by
  apply BitVec.eq_of_toNat_eq
  rw [BitVec.toNat_setWidth, BitVec.toNat_add, BitVec.toNat_setWidth, BitVec.signExtend, BitVec.toNat_ofInt, BitVec.toNat_ofNat]
  norm_num only
  omega

/-- Settles O12: the addresses are the low 32 bits, and a delta is read with its sign. -/
theorem addressInstructions : Obligations.AddressInstructions := by
  intro s f g
  refine ⟨fun h => ⟨?_, ?_, ?_⟩, ?_, State.next_putS rfl⟩
  · show execAmov f s = _
    rw [execAmov, if_pos h, State.touchS_one, State.putA_eq, address_eq, State.withLost_ownLatch]
  · show execAread f s = _
    rw [execAread, if_pos h]
    exact State.next_putS rfl
  · show execAdelta f s = _
    rw [execAdelta, if_pos h, State.touchS_one, State.issue_eq, address_eq, State.sLatch_eq]
  · show execAaddi g s = _
    rw [execAaddi, State.touchS_one, State.putA_eq, address_add_eq, State.withLost_ownLatch]

/-! ### Predicate summaries (R126) -/

/-- Counting the multiples of `k` below `k * n` that a test selects. -/
theorem countP_range_mul (p : Nat → Bool) {k : Nat} (hk : 0 < k) (n : Nat) :
    (List.range (k * n)).countP (fun i => p i && decide (i % k = 0)) = (List.range n).countP fun e => p (k * e) := by
  have hblock (m : Nat) : (List.range k).countP (fun j => p (k * m + j) && decide ((k * m + j) % k = 0)) = if p (k * m) then 1 else 0 := by
    obtain ⟨j, rfl⟩ := Nat.exists_eq_succ_of_ne_zero hk.ne'
    rw [List.range_succ_eq_map, List.countP_cons, List.countP_eq_zero.2]
    · simp
    · simp only [List.mem_map, List.mem_range]
      rintro _ ⟨i, hi, rfl⟩
      simp [Nat.mod_eq_of_lt (show i + 1 < j + 1 by omega)]
  induction n with
  | zero => simp
  | succ n ih =>
    rw [Nat.mul_succ, List.range_add, List.countP_append, ih, List.countP_map, List.range_succ, List.countP_append, List.countP_singleton]
    exact congrArg _ (hblock n)

/-- The distance of the governing bits for a width code. -/
def governingStep (code : Nat) : Nat := if code = 1 then 2 else if code = 2 then 4 else 1

/-- One bit governs each element: those of the mask are the multiples of the distance. -/
theorem getLsbD_everyBit {code i : Nat} (hi : i < 256) :
    (BitVec.ofNat 256 ((2 ^ 256 - 1) / (2 ^ governingStep code - 1))).getLsbD i = decide (i % governingStep code = 0) := by
  have h : ∀ k ∈ [1, 2, 4], ∀ i < 256, (BitVec.ofNat 256 ((2 ^ 256 - 1) / (2 ^ k - 1))).getLsbD i = decide (i % k = 0) := by decide +kernel
  refine h _ ?_ i hi
  unfold governingStep
  split_ifs <;> decide

theorem governing_count (m : PReg) (code : Nat) : bitCount (governing m code).1 256 =
    (List.range (256 / governingStep code)).countP fun e => m.getLsbD (governingStep code * e) := by
  have hk : 0 < governingStep code ∧ governingStep code * (256 / governingStep code) = 256 := by
    unfold governingStep
    split_ifs <;> decide
  rw [bitCount_eq_countP, ← countP_range_mul _ hk.1, hk.2]
  refine List.countP_congr fun i hi => ?_
  rw [← getLsbD_everyBit (List.mem_range.1 hi), ← BitVec.getLsbD_and]
  rfl

theorem State.next_summary {s : State} {f : RG} (h : s.tile.predOn f.pred = true) {get : Nat → Nat → W64} {w : W64}
    (hw : get ((List.range (256 / governingStep f.srcB.toNat)).countP fun e =>
      (s.tile.preg (f.srcA.toNat % 8)).getLsbD (governingStep f.srcB.toNat * e)) (256 / governingStep f.srcB.toNat) = w) :
    (.next (s.summary f get) : Out) = .next (s.scalarResult false 1 f.dst w f.nwb) := by
  rw [State.summary, if_pos h]
  dsimp only
  rw [governing_count]
  exact State.next_putS hw

theorem ofBool_eq_ofNat (b : Bool) : ofBool b = .ofNat 64 (if b then 1 else 0) := by cases b <;> rfl

theorem ite_bne (n : Nat) : (if n != 0 then 1 else 0) = if n = 0 then 0 else 1 := by by_cases h : n = 0 <;> simp [h]
theorem ite_beq (n m : Nat) : (if n == m then 1 else 0) = if n = m then 1 else 0 := by simp only [beq_iff_eq]

/-- Settles O15: the counts of a summary are those of the governing bits. -/
theorem topologyAndSummaries : Obligations.TopologyAndSummaries := by
  intro s f g
  have field (n w : Nat) (hw : s.topo n = w) (h : g.imm.toNat = n) :
      (.next (s.putS 1 g.dst (BitVec.ofNat 64 (s.topo g.imm.toNat)) 0 false) : Out) = .next (s.scalarResult false 1 g.dst (.ofNat 64 w) false) :=
    State.next_putS (by rw [h, hw])
  refine ⟨field 0 _ rfl, field 1 _ rfl, field 2 _ rfl, field 3 _ rfl, field 4 _ rfl, field 5 _ rfl, field 6 _ rfl, field 7 _ rfl, field 8 _ rfl,
    field 9 _ rfl, field 10 _ rfl, field 11 _ rfl, field 12 _ rfl, field 13 _ rfl, fun h => ?_, fun h => ⟨?_, ?_, ?_⟩⟩
  · show execRdcyc f s = _
    rw [execRdcyc, if_pos h]
    exact State.next_putS rfl
  · exact State.next_summary h ((ofBool_eq_ofNat _).trans (congrArg _ (ite_bne _)))
  · exact State.next_summary h ((ofBool_eq_ofNat _).trans (congrArg _ (ite_beq _ _)))
  · exact State.next_summary h rfl

end Sys2Proof.Machine
end

section
/-! The K slot: transfers, loop levels, markers, regions and waits, and the statements that they settle (spec/05_scalar_control.md
R127-R140). -/

namespace Sys2Proof.Machine

/-! ### Operands and transfers (R127) -/

theorem State.touchK_eq (s : State) (x : BitVec 7) : s.touchK x = s.withLost (s.tile.kval.isNone && s.tile.scalarLost x) := by
  rw [State.touchK, State.touchS_one]
  cases s.tile.kval <;> rfl

theorem State.trapsAt_withLost {s : State} {h : Nat} (ht : s.trapsAt h) (x : Bool) : (s.withLost x).trapsAt h := by
  simpa [State.trapsAt] using ht

/-- A transfer to `a` is pending, issued by the bundle at `pc`, which closes `close` levels. -/
def State.transferTo (s : State) (pc a close : Nat) : State :=
  { s with tile := { s.tile with ctl := { s.tile.ctl with transfer := some { target := a, source := pc, close := close, leave := false } } } }

/-- The return offset of a call in flight for s63 (R27). -/
def State.linked (s : State) (handler : Bool) (pc : Nat) : State := s.withResult 1 (.s 63 handler) (.word (.ofNat 64 (pc + 64))) 0 false none

theorem State.jump_eq (s : State) (a : Nat) : s.jump a = s.transferTo s.tile.ctl.pc a 0 := rfl
theorem State.link_jump_eq (s : State) (a : Nat) :
    s.link.jump a = (s.linked s.tile.ctl.handler s.tile.ctl.pc).transferTo s.tile.ctl.pc a 0 := rfl

/-- The K operand of a transfer is read first. -/
theorem State.touchK_jump (s : State) (x : BitVec 7) (a : Nat) :
    (s.touchK x).jump a = (s.withLost (s.tile.kval.isNone && s.tile.scalarLost x)).transferTo s.tile.ctl.pc a 0 := by
  rw [State.touchK_eq, State.jump_eq, State.withLost_tile_ctl]
theorem State.touchK_link_jump (s : State) (x : BitVec 7) (a : Nat) : (s.touchK x).link.jump a =
    ((s.withLost (s.tile.kval.isNone && s.tile.scalarLost x)).linked s.tile.ctl.handler s.tile.ctl.pc).transferTo s.tile.ctl.pc a 0 := by
  rw [State.touchK_eq, State.link_jump_eq, State.withLost_tile_ctl]

/-! ### Loop levels (R129, R130, R133) -/

/-- The level that LOOP or LOOPM opens over a body of `n` bundles. -/
def openedLevel (pc n count : Nat) (loopm : Bool) (ii stages : Nat) : Level :=
  { pass := 0, ncount := count, limit := count, baseIt := 0, first := pc + 32, last := pc + 32 * n, loopm := loopm, ii := ii, stages := stages,
    clamped := false }

section
variable {s : State} {x : BitVec 7} {n : Nat} {loopm : Bool} {ii stages : Nat}

/-- Opening a level in the state in which the operand has been read. -/
theorem State.openLoop_eq : s.openLoop x n loopm ii stages =
    let t := s.withLost (s.tile.kval.isNone && s.tile.scalarLost x)
    let count := (s.tile.kOperand x).toNat % 2 ^ 32
    let pc := s.tile.ctl.pc
    if count ≠ 0 ∧ 6 ≤ s.tile.ctl.levels.length then t.raise causeLoopDepth 0
    else if 0xFFE0 < pc + 32 * n then t.raiseTarget pc pc ((pc + 32 * n) % 2 ^ 32)
    else if count = 0 then t.onCtl fun c => { c with skip := some (pc + 32 * n + 32) }
    else t.onCtl fun c => { c with levels := openedLevel pc n count loopm ii stages :: c.levels } := by
  simp only [State.openLoop, State.touchK_eq, State.ctl_eq, State.withLost_kOperand, State.withLost_tile_ctl, openedLevel]

theorem State.openLoop_skips (hc : (s.tile.kOperand x).toNat % 2 ^ 32 = 0) (hp : s.tile.ctl.pc + 32 * n ≤ 0xFFE0) :
    s.openLoop x n loopm ii stages =
      (s.withLost (s.tile.kval.isNone && s.tile.scalarLost x)).onCtl fun c => { c with skip := some (s.tile.ctl.pc + 32 * n + 32) } := by
  rw [State.openLoop_eq]
  dsimp only
  rw [if_neg (by omega), if_neg (by omega), if_pos hc]

theorem State.openLoop_opens (hc : (s.tile.kOperand x).toNat % 2 ^ 32 ≠ 0) (hl : s.tile.ctl.levels.length < 6)
    (hp : s.tile.ctl.pc + 32 * n ≤ 0xFFE0) : s.openLoop x n loopm ii stages =
      (s.withLost (s.tile.kval.isNone && s.tile.scalarLost x)).onCtl fun c =>
        { c with levels := openedLevel s.tile.ctl.pc n ((s.tile.kOperand x).toNat % 2 ^ 32) loopm ii stages :: s.tile.ctl.levels } := by
  rw [State.openLoop_eq]
  dsimp only
  rw [if_neg (by omega), if_neg (by omega), if_neg hc]
  simp [Tile.onCtl, State.onTile]

/-- A seventh level traps before the body's end is looked at (log 27). -/
theorem State.openLoop_deep {h : Nat} (ht : s.trapsAt h) (hc : (s.tile.kOperand x).toNat % 2 ^ 32 ≠ 0) (hl : 6 ≤ s.tile.ctl.levels.length) :
    s.openLoop x n loopm ii stages = (s.withLost (s.tile.kval.isNone && s.tile.scalarLost x)).trapped causeLoopDepth 0 := by
  rw [State.openLoop_eq, ← State.raise_eq _ _ _ h (State.trapsAt_withLost ht _)]
  exact if_pos ⟨hc, hl⟩

theorem State.openLoop_far (hl : (s.tile.kOperand x).toNat % 2 ^ 32 = 0 ∨ s.tile.ctl.levels.length < 6)
    (hp : 0xFFE0 < s.tile.ctl.pc + 32 * n) : s.openLoop x n loopm ii stages =
      (s.withLost (s.tile.kval.isNone && s.tile.scalarLost x)).raiseTarget s.tile.ctl.pc s.tile.ctl.pc
        ((s.tile.ctl.pc + 32 * n) % 2 ^ 32) := by
  rw [State.openLoop_eq]
  dsimp only
  rw [if_neg (by omega), if_pos hp]
end

section
variable {s : State} {x : BitVec 7} {n : BitVec 3}

theorem execBrk_deep {h : Nat} (ht : s.trapsAt h) (hl : s.tile.ctl.levels.length < n.toNat + 1) (l : Bool) :
    execBrk l x n s = .next ((s.withLost (s.tile.kval.isNone && s.tile.scalarLost x)).trapped causeLoopDepth 0) := by
  simp only [execBrk, State.touchK_eq, State.ctl_eq, State.withLost_tile_ctl, if_pos hl, State.raise_eq _ _ _ h (State.trapsAt_withLost ht _)]

theorem execBrk_idle (hl : n.toNat + 1 ≤ s.tile.ctl.levels.length) (hv : s.tile.kOperand x = 0) (l : Bool) :
    execBrk l x n s = .next (s.withLost (s.tile.kval.isNone && s.tile.scalarLost x)) := by
  simp only [execBrk, State.touchK_eq, State.ctl_eq, State.withLost_tile_ctl, State.withLost_kOperand, if_neg (Nat.not_lt.2 hl), if_pos hv]

theorem execBrk_taken {y : Level} (hv : s.tile.kOperand x ≠ 0) (hy : s.tile.ctl.levels[n.toNat]? = some y) (l : Bool) :
    execBrk l x n s = .next ((s.withLost (s.tile.kval.isNone && s.tile.scalarLost x)).transferTo s.tile.ctl.pc (y.last + 32) (n.toNat + 1)) := by
  obtain ⟨hl, -⟩ := List.getElem?_eq_some_iff.1 hy
  simp only [execBrk, State.touchK_eq, State.ctl_eq, State.withLost_tile_ctl, State.withLost_kOperand, if_neg (Nat.not_lt.2 hl), if_neg hv,
    Nat.add_sub_cancel, hy, State.transferTo]
  simp [Tile.onCtl, State.onTile]
end

/-- Settles O37: a transfer notes its target and its own place, a level opens or traps as its count and its end say. -/
theorem transfersAndLoops : Obligations.TransfersAndLoops := by
  intro s l x d e n ii g b
  have next {t u : State} (h : t = u) : (.next t : Out) = .next u := congrArg _ h
  have hz (hv : s.tile.kOperand x = 0) (t u : State) : (if s.tile.kOperand x = 0 then t else u) = t := if_pos hv
  have hnz (hv : s.tile.kOperand x ≠ 0) (t u : State) : (if s.tile.kOperand x = 0 then t else u) = u := if_neg hv
  refine ⟨rfl, rfl, next (s.touchK_jump x _), next (s.touchK_link_jump x _), rfl, fun hv => ⟨?_, ?_⟩, fun hv => ⟨?_, ?_⟩, ?_, ?_,
    fun hv hl => execBrk_idle hl hv l, fun y hv hy => execBrk_taken hv hy l, fun h ht hl => execBrk_deep ht hl l⟩
  · exact next ((hz hv _ _).trans (s.touchK_jump x _))
  · exact next ((hz hv _ _).trans (s.touchK_eq x))
  · exact next ((hnz hv _ _).trans (s.touchK_eq x))
  · exact next ((hnz hv _ _).trans (s.touchK_jump x _))
  · exact ⟨fun hc hp => next (State.openLoop_skips hc hp), fun hc hl hp => next (State.openLoop_opens hc hl hp),
      fun h ht hc hl => next (State.openLoop_deep ht hc hl), fun hl hp => next (State.openLoop_far hl hp)⟩
  · exact ⟨fun hc hp => next (State.openLoop_skips hc hp), fun hc hl hp => next (State.openLoop_opens hc hl hp),
      fun h ht hc hl => next (State.openLoop_deep ht hc hl), fun hl hp => next (State.openLoop_far hl hp)⟩

/-! ### Waits, regions and tasks (R135-R137) -/

theorem State.startWait_cycle_now {s : State} {c : Nat} (h : c ≤ s.cycle + s.unit) : s.startWait (.cycle c) = s := by
  simp [State.startWait, State.testWait, h]
theorem State.startWait_cycle_later {s : State} {c : Nat} (h : s.cycle + s.unit < c) : s.startWait (.cycle c) = s.withWait (.cycle c) := by
  simp only [State.startWait, State.testWait, if_neg (Nat.not_le.2 h)]
  rfl

/-- A region that closes with no request held changes nothing else. -/
theorem Control.applyRequest_none {c : Control} (h : c.preempt = none) : c.applyRequest = c := by simp [Control.applyRequest, h]

theorem execNopre_open {s : State} (h : s.tile.ctl.nopre = true) (l : Bool) : execNopre l s = .next s := by simp [execNopre, h]
theorem execNopre_granted {s : State} (h : s.tile.ctl.nopre = false) (hg : s.effNopre (s.ctxPath s.tile.place.ctx) = true) (l : Bool) :
    execNopre l s = .next (s.onCtl fun c => { c with nopre := true }) := by simp [execNopre, h, hg]
theorem execNopre_refused {s : State} {h : Nat} (ht : s.trapsAt h) (hn : s.tile.ctl.nopre = false)
    (hg : s.effNopre (s.ctxPath s.tile.place.ctx) = false) (l : Bool) : execNopre l s = .next (s.trapped causePriv 0) := by
  simp [execNopre, hn, hg, State.raise_eq _ _ _ h ht]

theorem execNopreend_closed {s : State} (h : s.tile.ctl.nopre = false) (l : Bool) : execNopreend l s = .next s := by simp [execNopreend, h]
theorem execNopreend_open {s : State} (h : s.tile.ctl.nopre = true) (hp : s.tile.ctl.preempt = none) (l : Bool) :
    execNopreend l s = .next (s.onCtl fun c => { c with nopre := false }) := by
  rw [execNopreend, State.ctl_eq, if_pos h, State.onCtl, State.onTile, Tile.onCtl,
    Control.applyRequest_none (c := { s.tile.ctl with nopre := false }) hp]
  rfl

theorem execHalt_hypervisor {s : State} (h : s.tile.place.hvpriv = true) (l : Bool) :
    execHalt l s = .next (s.onPlace fun p => { p with status := .halted }) := by simp [execHalt, h]
theorem execHalt_refused {s : State} {h : Nat} (ht : s.trapsAt h) (hp : s.tile.place.hvpriv = false) (l : Bool) :
    execHalt l s = .next (s.trapped causePriv 0) := by simp [execHalt, hp, State.raise_eq _ _ _ h ht]

/-- Settles O39: each marker is one update of the tile's control; TEND's status follows the tasks left and the waits of its bundle. -/
theorem kernelInstructions : Obligations.KernelInstructions := by
  intro s l x n g
  refine ⟨rfl, rfl, rfl, rfl, ⟨fun h => ?now, fun h => ?later⟩, ?tend, fun h => execNopre_open h l, fun h hg => execNopre_granted h hg l,
    fun h ht hn hg => execNopre_refused ht hn hg l, fun h => execNopreend_closed h l, fun h hp => execNopreend_open h hp l,
    fun h => execHalt_hypervisor h l, fun h ht hp => execHalt_refused ht hp l⟩
  case now =>
    show execWaitc l x s = _
    rw [execWaitc, State.touchK_eq, State.startWait_cycle_now (by simpa using h)]
  case later =>
    show execWaitc l x s = _
    rw [execWaitc, State.touchK_eq, State.startWait_cycle_later (by simpa using h)]
  case tend =>
    refine ⟨_, rfl, rfl, rfl, rfl, rfl, rfl, rfl, rfl, rfl, fun h => if_pos ?_, fun ht hw => if_neg ?_⟩
    · simpa using h
    · simp [hw, Nat.not_lt.2 ht]

end Sys2Proof.Machine
end

section
/-! Traps: entering the handler, a fatal cause, and leaving the handler, and the statement that they settle (spec/05_scalar_control.md
R142-R149). -/

namespace Sys2Proof.Machine

/-! ### Entering -/

/-- The frame that a trap saves (R144, R145). -/
def State.trapFrame (s : State) (i : TrapInfo) : Frame :=
  { cause := i.cause, scause := 0, self := i.self, rewait := i.rewait, nopre := s.tile.ctl.nopre, preempt := s.tile.ctl.preempt,
    levels := s.tile.ctl.levels, rrb := s.tile.regs.rrb, epc := i.epc, resume := i.resume,
    next := if i.rewait.isEmpty then i.resume else s.tile.ctl.pc, tval := i.tval, latches := s.tile.lat,
    records := (s.tile.flights.filter Flight.kept).map fun f => { f with due := (f.due - s.cycle) / s.unit, issued := (s.cycle - f.issued) / s.unit },
    transfer := s.tile.ctl.transfer, starting := false }

/-- The control of a tile that has entered its handler at `h`. -/
def Control.entered (c : Control) (h issue : Nat) : Control :=
  { c with levels := [], handler := true, pc := h, source := h, transfer := none, waits := [], waited := none, skip := none, haltPoint := false,
           entry := none, nopre := false, nextIssue := issue }

section
variable {s : State} {h : Nat} (hp : s.tile.place.entryPoint = some h) (i : TrapInfo)
include hp

/-- What the boundary of a trap leaves in the tile. -/
theorem State.enterTrap_tile : ∃ mx, (s.enterTrap i).tile =
    { s.tile with
      csr := { s.tile.csr with tcause := .ofNat 8 i.cause, epc := .ofNat 16 i.epc }
      flights := s.tile.flights.filter (fun f => !f.kept)
      frame := some (s.trapFrame i)
      mx := mx
      loopBuf := []
      bufFor := none
      place := { s.tile.place with status := .issuing }
      ctl := s.tile.ctl.entered h (s.cycle + 2 * s.unit) } := by
  simp only [State.enterTrap, hp]
  exact ⟨_, rfl⟩

end

/-- The records hold what each result has left. -/
theorem State.trapFrame_records (s : State) (i : TrapInfo) :
    (s.trapFrame i).records.map (fun r => (r.id, r.dest, r.payload, r.flags, r.due)) =
      (s.tile.flights.filter Flight.kept).map (fun r => (r.id, r.dest, r.payload, r.flags, (r.due - s.cycle) / s.unit)) := by
  rw [State.trapFrame, List.map_map]; rfl

/-! ### Fatal causes -/

@[simp] theorem State.devErr_tile (s : State) (a : Nat) : (s.devErr a).tile = s.tile := by
  unfold State.devErr State.devEccAt
  repeat' split
  all_goals rfl
@[simp] theorem State.post_tile (s : State) (r : Record) : (s.post r).tile = s.tile := by
  unfold State.post State.ring
  split
  · rfl
  · simp only
    repeat' split
    all_goals first | rfl | exact State.devErr_tile s _

/-- A record of the fault goes to its ring, which is not the tile's. -/
theorem State.fatalAt_tile (s : State) (cause scause epc : Nat) : (s.fatalAt cause scause epc).tile =
    { s.tile with
      csr := { s.tile.csr with tcause := .ofNat 8 cause, epc := .ofNat 16 epc }
      place := { s.tile.place with status := .ended }
      frame := if cause = causeDoubleTrap then s.tile.frame.map fun f => { f with cause := cause, scause := scause, epc := epc, tval := 0 }
        else s.tile.frame } := by
  unfold State.fatalAt
  cases h : s.tile.place.group <;> simp [Tile.onPlace, Tile.onCsr]

/-- A trap in a handler ends the tile (R148). -/
theorem State.raise_handler {s : State} (h : s.tile.ctl.handler = true) (cause : Nat) : s.raise cause 0 = s.doubleTrapped cause := by
  simp [State.raise, State.takeTrap, h, State.doubleTrapped, State.report, causeDoubleTrap]

/-! ### Leaving -/

/-- What the handler's end brings back (R147). -/
theorem State.leaveTrap_tile {s : State} {f : Frame} (hf : s.tile.frame = some f) : ∃ mx, s.leaveTrap.tile =
    { s.tile with
      regs := { s.tile.regs with rrb := f.rrb }
      lat := f.latches
      flights := s.tile.flights ++ f.records.map (fun r => { r with due := s.cycle + r.due * s.unit, issued := s.cycle - r.issued * s.unit })
      mx := mx
      loopBuf := []
      bufFor := none
      place := { s.tile.place with status := if f.rewait.isEmpty then .issuing else .waiting, gated := !f.rewait.isEmpty }
      ctl :=
        { s.tile.ctl with
          levels := f.levels, handler := false, nopre := f.nopre, pc := f.next
          lastPc := if f.rewait.isEmpty then s.tile.ctl.lastPc else f.resume
          transfer := (match s.tile.ctl.transfer with
            | some x => some { x with close := 0, leave := false }
            | none => f.transfer)
          waits := f.rewait, waited := none, leaving := false } } := by
  unfold State.leaveTrap
  split
  · next h => rw [hf] at h; cases h
  · next g h =>
    rw [hf] at h
    cases h
    exact ⟨_, rfl⟩

/-! ### ERET (R147, R227) -/

theorem execEret_outside {s : State} {h : Nat} (ht : s.trapsAt h) (l : Bool) : execEret l s = .next (s.trapped causePriv 0) := by
  have hh := ht.1
  simp [execEret, hh, State.raise_eq _ _ _ h ht]

theorem execEret_unrestored {s : State} (hh : s.tile.ctl.handler = true) (ho : s.tile.mx.owned = true) (hr : s.tile.mx.restored.length < 69)
    (l : Bool) : execEret l s = .next (s.doubleTrapped causeMxOwned) := by
  simp [execEret, hh, ho, hr, State.raise_handler hh]

theorem execEret_leaves {s : State} (hh : s.tile.ctl.handler = true) (ho : s.tile.mx.owned = false ∨ 69 ≤ s.tile.mx.restored.length) (l : Bool) :
    execEret l s = .next (s.onCtl fun c =>
      { c with transfer := some { target := (match s.tile.frame with
        | some f => f.next
        | none => s.tile.ctl.pc + 32), source := c.pc, close := 0, leave := true } }) := by
  have hno : ¬(s.tile.mx.owned && decide (s.tile.mx.restored.length < 69)) = true := by
    obtain ho | ho := ho
    · simp [ho]
    · simp [Nat.not_lt.2 ho]
  simp only [execEret, State.ctl_eq, hh, if_neg hno]
  rfl

/-- Settles O38: the frame that a trap saves is what leaving the handler brings back. -/
theorem trapEntryAndReturn : Obligations.TrapEntryAndReturn := by
  intro s l imm
  refine ⟨rfl, fun i h hp => ?enter, fun hn i => ?noHandler, fun cause scause e => ?fatal, fun h ht => execEret_outside ht l,
    fun hh ho => execEret_leaves hh ho l, fun hh ho hr => execEret_unrestored hh ho hr l, fun f hf => ?leave⟩
  case enter =>
    obtain ⟨mx, hu⟩ := State.enterTrap_tile hp i
    have hf : (s.enterTrap i).tile.frame = some (s.trapFrame i) := by rw [hu]
    obtain ⟨mx', hv⟩ := State.leaveTrap_tile hf
    refine ⟨congrArg (·.ctl.handler) hu, congrArg (·.ctl.pc) hu, congrArg (·.ctl.nextIssue) hu, congrArg (·.ctl.levels) hu,
      congrArg (·.csr.tcause) hu, congrArg (·.csr.epc) hu, congrArg (·.regs) hu, congrArg (·.lat) hu, congrArg (·.flights) hu,
      s.trapFrame i, hf, rfl, rfl, rfl, rfl, rfl, rfl, rfl, s.trapFrame_records i, fun hw => ?_⟩
    dsimp only
    rw [hv, hu]
    exact ⟨rfl, rfl, rfl, rfl, rfl, by simp [State.trapFrame, hw], rfl⟩
  case noHandler => simp [State.enterTrap, hn]
  case fatal =>
    dsimp only
    rw [State.fatalAt_tile]
    refine ⟨rfl, rfl, rfl, ?_⟩
    by_cases h : cause = causeDoubleTrap
    · subst h; rfl
    · exact (if_neg h).trans (if_neg h).symm
  case leave =>
    obtain ⟨mx, hv⟩ := State.leaveTrap_tile hf
    dsimp only
    rw [hv]
    exact ⟨rfl, rfl, rfl, rfl, rfl, rfl, rfl, hf, rfl, rfl⟩

end Sys2Proof.Machine
end

section
/-! The matrix unit: the gate of its beats, reads and block transfers through the feed port, the beats, drains and the image, and the
statements that they settle (spec/08_matrix_copy.md R209-R227). -/

namespace Sys2Proof.Machine

/-! ### The gate of modifying beats (R148, R227) -/

/-- The matrix state of the tile in focus replaced; nothing else changes. -/
def State.withMx (s : State) (m : Mx) : State := { s with tile := { s.tile with mx := m } }

@[simp] theorem State.withMx_mx (s : State) (m : Mx) : (s.withMx m).tile.mx = m := rfl
@[simp] theorem State.withMx_vreg (s : State) (m : Mx) (n : Nat) : (s.withMx m).tile.vreg n = s.tile.vreg n := rfl

/-- The matrix state that a modifying beat meets: in a handler the restored marks are cleared. -/
def State.beatMx (s : State) : Mx := if s.tile.ctl.handler then { s.tile.mx with restored := [] } else s.tile.mx

/-- The tile may modify its matrix state. -/
def State.ownsMx (s : State) : Prop := s.tile.ctl.handler = false ∨ s.tile.mx.owned = true

theorem State.modifyMx_owned {s : State} (h : s.ownsMx) (k : State → State) : s.modifyMx k = k (s.withMx s.beatMx) := by
  rw [State.modifyMx, State.ctl_eq, State.beatMx]
  obtain h | h := h
  · rw [h]; rfl
  · rw [if_pos h]
    split <;> rfl

theorem State.modifyMx_refused {s : State} (hh : s.tile.ctl.handler = true) (ho : s.tile.mx.owned = false) (k : State → State) :
    s.modifyMx k = s.doubleTrapped causeMxOwned := by
  simp [State.modifyMx, hh, ho, State.raise_handler hh]

/-- Where traps are taken the tile is in no handler. -/
theorem State.beatMx_of_trapsAt {s : State} {h : Nat} (ht : s.trapsAt h) : s.beatMx = s.tile.mx := by
  simp [State.beatMx, ht.1]
theorem State.modifyMx_of_trapsAt {s : State} {h : Nat} (ht : s.trapsAt h) (k : State → State) : s.modifyMx k = k s := by
  simp [State.modifyMx, ht.1]
theorem State.illegal_eq {s : State} {h : Nat} (ht : s.trapsAt h) : s.illegal = s.trapped causeIllegalOperand 0 := s.raise_eq _ _ h ht

/-! ### The feed port (R212, R213) -/

/-- A beat may read `z` bytes at each of the offsets in its issue cycle. -/
def State.feedReadable (s : State) (os : List Nat) (z : Nat) : Prop :=
  (∀ o ∈ os, o + z ≤ spadBytes ∧ o % z = 0) ∧ (∀ o ∈ os, ∀ p ∈ os, o / 16 % 16 = p / 16 % 16 → o / 16 = p / 16) ∧
    (os ≠ [] → s.tile.feedWrites s.cycle = false)

theorem feedClash_none {os : List Nat} (h : ∀ o ∈ os, ∀ p ∈ os, o / 16 % 16 = p / 16 % 16 → o / 16 = p / 16) : feedClash os = none := by
  rw [feedClash, Option.map_eq_none_iff, List.find?_eq_none]
  rintro ⟨o, i⟩ ho
  simp only [List.any_eq_true, Bool.and_eq_true, beq_iff_eq, bne_iff_ne, not_exists, not_and, not_not]
  exact fun p hp hb => h p (List.mem_of_mem_take hp) o (List.fst_mem_of_mem_zipIdx ho) hb

theorem State.feedRead_readable {s : State} {os : List Nat} {z : Nat} (h : s.feedReadable os z) (k : State → State) :
    s.feedRead os z k = if os = [] then k s else (k s).touchSpad os := by
  obtain ⟨hin, hbank, hport⟩ := h
  have hrange : os.find? (fun o => decide (spadBytes < o + z)) = none :=
    List.find?_eq_none.2 fun o ho => by simpa using (hin o ho).1
  have halign : os.find? (fun o => o % z != 0) = none := List.find?_eq_none.2 fun o ho => by simpa using (hin o ho).2
  simp only [State.feedRead, hrange, halign, feedClash_none hbank]
  cases os with
  | nil => rfl
  | cons o r => simp [hport (by simp)]

section
variable {s : State} {base n first : Nat} {reads : Bool} (k : State → State)

theorem State.feedBlock_out {h : Nat} (ht : s.trapsAt h) (hr : spadBytes < base + n) :
    s.feedBlock base n reads first k = s.trapped causeSpadRange base := by
  rw [State.feedBlock, if_pos hr, State.raise_eq _ _ _ h ht]

theorem State.feedBlock_misaligned {h : Nat} (ht : s.trapsAt h) (hr : base + n ≤ spadBytes) (ha : base % 16 ≠ 0) :
    s.feedBlock base n reads first k = s.trapped causeMisalignedAccess base := by
  rw [State.feedBlock, if_neg (Nat.not_lt.2 hr), if_pos ha, State.raise_eq _ _ _ h ht]

section
variable (hr : base + n ≤ spadBytes) (ha : base % 16 = 0)
include hr ha

theorem State.feedBlock_read (hf : s.tile.feedWrites s.cycle = false) :
    s.feedBlock base n true first k = (k s).touchSpad (span base n) := by
  rw [State.feedBlock, if_neg (Nat.not_lt.2 hr), if_neg (not_not.2 ha), if_pos rfl, hf]; rfl

theorem State.feedBlock_read_busy {h : Nat} (ht : s.trapsAt h) (hf : s.tile.feedWrites s.cycle = true) :
    s.feedBlock base n true first k = s.trapped causeMxBank base := by
  rw [State.feedBlock, if_neg (Nat.not_lt.2 hr), if_neg (not_not.2 ha), if_pos rfl, if_pos hf, State.raise_eq _ _ _ h ht]

theorem State.feedBlock_write (hf : ∀ i, i < n / 256 → s.tile.feedWrites (s.cycle + (first + i) * s.unit) = false) :
    s.feedBlock base n false first k = k s := by
  rw [State.feedBlock, if_neg (Nat.not_lt.2 hr), if_neg (not_not.2 ha), if_neg Bool.false_ne_true, if_neg]
  simpa [State.after] using hf

theorem State.feedBlock_write_busy {h i : Nat} (ht : s.trapsAt h) (hi : i < n / 256)
    (hf : s.tile.feedWrites (s.cycle + (first + i) * s.unit) = true) : s.feedBlock base n false first k = s.trapped causeMxBank base := by
  rw [State.feedBlock, if_neg (Nat.not_lt.2 hr), if_neg (not_not.2 ha), if_neg Bool.false_ne_true, if_pos, State.raise_eq _ _ _ h ht]
  simpa [State.after] using ⟨i, hi, hf⟩

end
end

/-! ### Beats (R215-R219, R223) -/

/-- Cell `k` that MSCALE leaves from row `base` on, with its flags: the block plane's entry times its exponents is added (R219). -/
def Mx.foldedCell (m : Mx) (ea eb : Nat → Nat) (base k c : Nat) : Nat × Flags :=
  let q := qadd 512 (quireInt 512 c) (foldValue (slice m.blk.toNat 32 (16 * (base + k / 16) + k % 16)) (ea (base + k / 16)) (eb (k % 16)))
  (quireWord 512 q.1, q.2)

/-- The planes replaced by folded ones, the block plane cleared, and the flags raised in the issue cycle, with their trap (log 22). -/
def State.folded (s : State) (m : Mx) (x y : BitVec 65536) (fl : Flags) : State :=
  let t := { s with tile := { s.tile with
    mx := { m with acc0 := x, acc1 := y, blk := 0 }
    csr := { s.tile.csr with tstat := s.tile.csr.tstat ||| fl.setWidth 32 } } }
  let hit := fl.setWidth 32 &&& s.tile.csr.ten &&& 0xFF
  if hit = 0 then t else t.noteLanding causeArith (hit.setWidth 64)

/-- An enable register is read as it was before the flags. -/
theorem State.folded_eq (s : State) (m : Mx) (x y : BitVec 65536) (fl : Flags) :
    (let u := (s.withMx m).onTile fun t => (t.onMx fun m => { m with acc0 := x, acc1 := y, blk := 0 }).flag fl
     let hit := fl.setWidth 32 &&& u.tile.csr.ten &&& 0xFF
     if hit = 0 then u else u.noteLanding causeArith (hit.setWidth 64)) = s.folded m x y fl := by
  have ten : ((s.withMx m).onTile fun t => (t.onMx fun m => { m with acc0 := x, acc1 := y, blk := 0 }).flag fl).tile.csr.ten = s.tile.csr.ten := by
    simp only [State.onTile, State.withMx, Tile.onMx, Tile.flag, Tile.onCsr]
  dsimp only
  rw [ten]
  rfl

/-- The planes are generalized first, so that no check evaluates one. -/
theorem execMscale_folds {s : State} {f : Beat} (ho : s.ownsMx) (hm : s.beatMx.mode = 3) (hc : s.beatMx.configOk = true) :
    let ea := fun i => byteOf (s.tile.vreg f.srcA.toNat) (16 * f.row.toNat + i)
    let eb := fun j => byteOf (s.tile.vreg f.srcB.toNat) (16 * (f.flags.toNat % 16) + j)
    let inv := (List.range 16).any fun i => e8Reserved (ea i) || e8Reserved (eb i)
    let x := mapPlane 512 s.beatMx.acc0 (s.beatMx.foldedCell ea eb 0)
    let y := mapPlane 512 s.beatMx.acc1 (s.beatMx.foldedCell ea eb 8)
    execMscale f s = .next (s.folded s.beatMx x.1 y.1 (x.2 ||| y.2 ||| if inv then Flag.INV else 0)) := by
  rw [execMscale]
  unfold Mx.foldedCell
  generalize @mapPlane = map, qadd = add
  intro ea eb inv x y
  rw [State.modifyMx_owned ho]
  refine congrArg _ ((if_neg ?_).trans (State.folded_eq s s.beatMx x.1 y.1 _))
  show ¬(s.beatMx.mode ≠ 3 ∨ (!s.beatMx.configOk) = true)
  simp [hm, hc]
theorem execMscale_illegal {s : State} {f : Beat} {h : Nat} (ht : s.trapsAt h) (hm : s.beatMx.configOk = false ∨ s.beatMx.mode ≠ 3) :
    execMscale f s = .next (s.trapped causeIllegalOperand 0) := by
  rw [State.beatMx_of_trapsAt ht] at hm
  rw [execMscale, State.modifyMx_of_trapsAt ht, ← State.illegal_eq ht]
  refine congrArg _ (if_pos ?_)
  simpa [or_comm] using hm

theorem execMacc_illegal {s : State} {f : Beat} {h : Nat} (ht : s.trapsAt h)
    (hm : s.beatMx.configOk = false ∨ (s.beatMx.mode = 3 ∧ f.plane = true)) : execMacc f s = .next (s.trapped causeIllegalOperand 0) := by
  rw [State.beatMx_of_trapsAt ht] at hm
  rw [execMacc, State.modifyMx_of_trapsAt ht, ← State.illegal_eq ht]
  refine congrArg _ (if_pos ?_)
  simpa using hm

/-- Settles O34: every modifying beat runs on the matrix state of its owner; each configuration that it refuses is refused before any effect. -/
theorem matrixBeats : Obligations.MatrixBeats := by
  intro s f m own z fl go readable step
  have beat {k : State → State} {t : State} (ho : own) (h : k (s.withMx s.beatMx) = t) : (.next (s.modifyMx k) : Out) = .next t := by
    rw [State.modifyMx_owned ho, h]
  refine ⟨fun ho => beat ho rfl, fun ho hc hm hr => ?macc, fun ho hr => ?mshift, fun ho hm hc => ?mscale, fun ho => ?mclr,
    fun h ht hm => execMacc_illegal ht hm, fun h ht hm => execMscale_illegal ht hm, fun hh hno => ?refused⟩
  case macc =>
    refine beat ho ((if_neg ?_).trans (State.feedRead_readable (s := s.withMx m) hr _))
    show ¬(!m.configOk || (m.mode == 3 && f.plane)) = true
    simpa [hc] using hm
  case mshift => exact beat ho (State.feedRead_readable (s := s.withMx m) hr _)
  case mscale =>
    exact execMscale_folds ho hm hc
  case mclr =>
    refine beat ho ?_
    by_cases h : fl &&& 7 = 0
    · simp only [if_pos h]
      exact if_pos h
    · simp only [if_neg h]
      exact if_neg h
  case refused =>
    have gated {k : State → State} : (.next (s.modifyMx k) : Out) = .next (s.doubleTrapped 0x15) := congrArg _ (State.modifyMx_refused hh hno k)
    simp only [List.forall_mem_cons]
    exact ⟨gated, gated, gated, gated, gated, gated, gated, List.forall_mem_nil _⟩

end Sys2Proof.Machine
end

section
/-! Drains of the accumulator and the matrix image, and the statement that they settle (spec/08_matrix_copy.md R221, R222, R225-R227). -/

namespace Sys2Proof.Machine

/-! ### Stores through the feed port -/

/-- Store `i` of a block that goes out 256 bytes a cycle from `first` cycles on. -/
def State.feedStore (s : State) (base first i : Nat) (bs : List Byte) : Store :=
  { due := s.cycle + (first + i) * s.unit, issued := s.cycle, kind := .feed, cells := cellsAt (base + 256 * i) bs }

theorem State.feedStores_range (s : State) (base first n : Nat) (g : Nat → List Byte) :
    s.feedStores base first ((List.range n).map g) =
      s.withIo { s.tile.io with stores := s.tile.io.stores ++ (List.range n).map fun i => s.feedStore base first i (g i) } := by
  induction n generalizing s base first g with
  | zero => simp [State.feedStores, State.withIo]
  | succ n ih =>
    have hnext (i : Nat) (bs : List Byte) : (s.store first .feed (cellsAt base (g 0))).feedStore (base + 256) (first + 1) i bs =
        s.feedStore base first (i + 1) bs := by
      rw [State.feedStore, State.feedStore, Nat.add_assoc first, Nat.add_comm 1, Nat.add_assoc base, Nat.add_comm 256, ← Nat.mul_succ]
      rfl
    rw [List.range_succ_eq_map, List.map_cons, List.map_map, State.feedStores, ih, List.map_cons, List.map_map]
    simp only [hnext]
    show s.withIo _ = s.withIo _
    refine congrArg s.withIo ?_
    simp [State.store, State.feedStore, State.after]

/-! ### Drains (R221, R222) -/

@[simp] theorem Mx.clearRow_cd (m : Mx) (p : Bool) (lo n : Nat) : (m.clearRow p lo n).cd = m.cd := by cases p <;> rfl

/-- A rounding that takes the random word may read a lost latch. -/
def Tile.roundLost (t : Tile) (r : Rounding) : Bool :=
  match r with
  | .nearest => false
  | .stochastic _ _ => t.scalarLost t.tids

theorem State.touchR_eq (s : State) (r : Rounding) : s.touchR r = s.withLost (s.tile.roundLost r) := by
  cases r with
  | nearest => rfl
  | stochastic seed x => exact s.touchS_one _

/-- The bits of a row. -/
def Mx.rowBits (m : Mx) (p : Bool) (r : Nat) : Nat :=
  (m.plane (rowSpan m.mode p r).1).toNat / 2 ^ (rowSpan m.mode p r).2.1 % 2 ^ (rowSpan m.mode p r).2.2

/-- The part of a vector register that a drain writes. -/
def drainPart (f : Beat) (n e : Nat) : Bool := decide (n * (f.flags.toNat % 16) ≤ e) && decide (e < n * (f.flags.toNat % 16 + 1))

/-- A row rounded into that part, cell by cell. -/
def Tile.drained (t : Tile) (f : Beat) (m : Mx) (d : Fmt) (k : Rounding) : VReg × Flags :=
  let n := cellsPerRow m.mode
  let w := cellBits m.mode
  let scale := fun j => if f.srcB.getLsbD 6 then tdecode (elem (t.vreg (f.srcB.toNat % 32)) 32 j) 32 2 else .fin false 1 1
  mapElems d.width (drainPart f n) fun e =>
    qround w (quireInt w (slice (m.rowBits f.plane f.row.toNat) w (e - n * (f.flags.toNat % 16)))) (scale (e - n * (f.flags.toNat % 16))) d
      (k.word (16 * f.row.toNat + (e - n * (f.flags.toNat % 16))))

/-- A row may be cleared before its result is put in flight as well as after. -/
theorem State.withLost_withResult_onMx (s : State) (lost clear : Bool) (l : Nat) (d : Dest) (p : Payload) (fl : Flags) (k : Option Latch)
    (g : Mx → Mx) :
    (if clear then ((s.withLost lost).withResult l d p fl false k).onMx g else (s.withLost lost).withResult l d p fl false k) =
      ((s.withMx (if clear then g s.tile.mx else s.tile.mx)).withLost lost).withResult l d p fl false k := by
  cases lost
  · cases clear
    · rfl
    · rfl
  · cases clear
    · rfl
    · rfl

section
variable {s : State} {f : Beat} {d : Fmt} {k : Rounding}

theorem execMdrain_rounds (ho : s.ownsMx) (hc : s.beatMx.configOk = true) (hd : Fmt.ofCode s.beatMx.dFmt.toNat = some d)
    (hk : s.tile.rounding d = some k) (hr : f.row.toNat < rowsOf s.beatMx.mode) (hm : ¬(s.beatMx.mode = 3 ∧ f.plane = true))
    (hg : cellsPerRow s.beatMx.mode * (f.flags.toNat % 16 + 1) ≤ 2048 / d.width) :
    let m := s.beatMx
    let row := rowSpan m.mode f.plane f.row.toNat
    let v := s.tile.drained f m d k
    execMdrain f s = .next (((s.withMx (if f.flags.getLsbD 4 then m.clearRow row.1 row.2.1 row.2.2 else m)).withLost (s.tile.roundLost k)).withResult 5 (.v (s.tile.phys f.srcA.toNat))
        (.lanes (lanesWhere d.width (drainPart f (cellsPerRow m.mode))) v.1) v.2 false (some .vb3)) := by
  rw [execMdrain]
  unfold Tile.drained
  generalize @mapElems = map
  intro m row v
  rw [State.modifyMx_owned ho]
  have hk' : (s.withMx s.beatMx).tile.rounding d = some k := hk
  simp only [State.withMx_mx, hc, hd, hk']
  refine congrArg _ ((if_neg ?_).trans ?_)
  · rintro (h | h | h)
    · omega
    · exact hm h
    · omega
  · simp only [State.touchR_eq, State.putV, State.issue_eq, State.withLost_phys]
    exact State.withLost_withResult_onMx (s.withMx m) _ _ _ _ _ _ _ _

theorem execMdrain_illegal {h : Nat} (ht : s.trapsAt h)
    (hbad : s.tile.mx.configOk = false ∨ rowsOf s.tile.mx.mode ≤ f.row.toNat ∨ (s.tile.mx.mode = 3 ∧ f.plane = true) ∨
      ∀ d, Fmt.ofCode s.tile.mx.dFmt.toNat = some d →
        2048 / d.width < cellsPerRow s.tile.mx.mode * (f.flags.toNat % 16 + 1) ∨ s.tile.rounding d = none) :
    execMdrain f s = .next (s.trapped causeIllegalOperand 0) := by
  rw [execMdrain, State.modifyMx_of_trapsAt ht, ← State.illegal_eq ht]
  dsimp only
  split
  · next d hc hd =>
    split
    · rfl
    · next hno =>
      split
      · rfl
      · next k hk =>
        exfalso
        obtain h | h | h | h := hbad
        · simp [hc] at h
        · exact hno (.inl h)
        · exact hno (.inr (.inl h))
        · obtain h | h := h d hd
          · exact hno (.inr (.inr h))
          · simp [hk] at h
  · rfl
end

section
variable {s : State} {f : Beat}

theorem execMdrainq_writes (ho : s.ownsMx) (hr : f.row.toNat < rowsOf s.beatMx.mode) (hm : ¬(s.beatMx.mode = 3 ∧ f.plane = true)) :
    let m := s.beatMx
    let row := rowSpan m.mode f.plane f.row.toNat
    let d := s.tile.descriptor f.srcA
    let base := (d.base + m.cd.toNat) % 2 ^ 19
    let first := if m.mode = 3 then 1 else 3
    let mx := if f.flags.getLsbD 0 then m.clearRow row.1 row.2.1 row.2.2 else m
    base + row.2.2 / 8 ≤ spadBytes → base % 16 = 0 →
    (∀ i, i < row.2.2 / 2048 → s.tile.feedWrites (s.cycle + (first + i) * s.unit) = false) →
    execMdrainq f s = .next ((s.withMx { mx with cd := if f.flags.getLsbD 1 then m.cd + .ofNat 19 d.pinc else m.cd }).withIo
      { s.tile.io with
        stores := s.tile.io.stores ++ (List.range (row.2.2 / 2048)).map fun i =>
          s.feedStore base first i (natBytes (slice (m.rowBits f.plane f.row.toNat) 2048 i) 256) }) := by
  rw [execMdrainq]
  unfold Mx.rowBits
  generalize rowSpan = bits
  intro m row d base first mx hin ha hf
  have h2048 : row.2.2 / 8 / 256 = row.2.2 / 2048 := Nat.div_div_eq_div_mul _ _ _
  have hcd : mx.cd = m.cd := by
    show (if f.flags.getLsbD 0 then m.clearRow row.1 row.2.1 row.2.2 else m).cd = m.cd
    split
    · exact m.clearRow_cd ..
    · rfl
  rw [State.modifyMx_owned ho]
  refine congrArg _ ((if_neg ?_).trans ((State.feedBlock_write (s := s.withMx m) _ hin ha (by rwa [h2048])).trans ?_))
  · rintro (h | h)
    · exact absurd hr (Nat.not_lt.2 h)
    · exact hm h
  · dsimp only
    rw [pieces, State.feedStores_range, ← hcd]
    rfl

theorem execMdrainq_illegal {h : Nat} (ht : s.trapsAt h)
    (hbad : rowsOf s.tile.mx.mode ≤ f.row.toNat ∨ (s.tile.mx.mode = 3 ∧ f.plane = true)) :
    execMdrainq f s = .next (s.trapped causeIllegalOperand 0) := by
  rw [execMdrainq, State.modifyMx_of_trapsAt ht, ← State.illegal_eq ht]
  exact congrArg _ (if_pos hbad)

/-- A legal MDRAINQ is a block written through the feed port. -/
theorem execMdrainq_block {h : Nat} (ht : s.trapsAt h) (hr : f.row.toNat < rowsOf s.tile.mx.mode)
    (hm : ¬(s.tile.mx.mode = 3 ∧ f.plane = true)) : ∃ k, execMdrainq f s =
      .next (s.feedBlock (((s.tile.descriptor f.srcA).base + s.tile.mx.cd.toNat) % 2 ^ 19)
        ((rowSpan s.tile.mx.mode f.plane f.row.toNat).2.2 / 8) false (if s.tile.mx.mode = 3 then 1 else 3) k) := by
  rw [execMdrainq, State.modifyMx_of_trapsAt ht]
  generalize rowSpan = bits
  refine ⟨_, congrArg _ (if_neg ?_)⟩
  rintro (h | h)
  · exact absurd hr (Nat.not_lt.2 h)
  · exact hm h

/-! ### Chunks of the image (R225-R227) -/

/-- The base of a chunk. -/
def State.chunkBase (s : State) (f : Beat) : Nat := ((s.tile.descriptor f.srcA).base + s.tile.mx.cd.toNat) % 2 ^ 19

/-- The matrix state with a chunk to be placed in the next cycle. -/
def Mx.restoring (x : Mx) (s : State) (f : Beat) : Mx :=
  { x with
    pending := (if s.tile.ctl.handler then x.pending.filter (fun p : MxPending => !p.kind.recorded) else x.pending) ++
      [({ due := s.cycle + 1 * s.unit,
          kind := .chunk f.srcB.toNat (.ofNat 2048 (s.tile.spadNat (s.chunkBase f) 256)) } : MxPending)]
    restored := if s.tile.ctl.handler && !x.restored.contains f.srcB.toNat then f.srcB.toNat :: x.restored else x.restored
    cd := if f.flags.getLsbD 0 then x.cd + .ofNat 19 (s.tile.descriptor f.srcA).pinc else x.cd }

theorem execMsave_block (s : State) (f : Beat) : ∃ k, execMsave f s = .next (s.feedBlock (s.chunkBase f) 256 false 1 k) := ⟨_, rfl⟩

theorem execMrestore_refused (hh : s.tile.ctl.handler = true) (ho : s.tile.mx.owned = false) :
    execMrestore f s = .next (s.doubleTrapped causeMxOwned) := by
  rw [execMrestore, if_pos (by simp [hh, ho]), State.raise_handler hh]

section
variable (ho : s.ownsMx)
include ho

theorem State.ownsMx.not_refused : ¬(s.ctl.handler && !s.tile.mx.owned) = true := by
  obtain h | h := ho <;> simp [h]

theorem execMrestore_illegal {h : Nat} (ht : s.trapsAt h) (hr : s.chunkBase f + 256 ≤ spadBytes) (ha : s.chunkBase f % 16 = 0)
    (hb : badRestore f.srcB.toNat (.ofNat 2048 (s.tile.spadNat (s.chunkBase f) 256)) = true) :
    execMrestore f s = .next (s.trapped causeIllegalOperand 0) := by
  rw [← State.illegal_eq ht]
  refine congrArg _ ((if_neg (State.ownsMx.not_refused ho)).trans (if_pos ?_))
  show (decide (s.chunkBase f + 256 ≤ spadBytes) && s.chunkBase f % 16 == 0 && _) = true
  rw [Bool.and_eq_true, Bool.and_eq_true]
  exact ⟨⟨decide_eq_true hr, beq_iff_eq.2 ha⟩, hb⟩

/-- A chunk with formats of its mode is a block read through the feed port. -/
theorem execMrestore_block (hb : s.chunkBase f + 256 ≤ spadBytes → s.chunkBase f % 16 = 0 →
      badRestore f.srcB.toNat (.ofNat 2048 (s.tile.spadNat (s.chunkBase f) 256)) = false) :
    ∃ k, execMrestore f s = .next (s.feedBlock (s.chunkBase f) 256 true 0 k) ∧ k s = s.withMx (s.tile.mx.restoring s f) := by
  refine ⟨_, congrArg _ ((if_neg (State.ownsMx.not_refused ho)).trans (if_neg ?_)), rfl⟩
  show ¬(decide (s.chunkBase f + 256 ≤ spadBytes) && s.chunkBase f % 16 == 0 && _) = true
  rw [Bool.and_eq_true, Bool.and_eq_true]
  rintro ⟨⟨hr, ha⟩, hbad⟩
  exact Bool.false_ne_true ((hb (of_decide_eq_true hr) (beq_iff_eq.1 ha)).symm.trans hbad)
end

end

/-- Settles O35: each beat is its checks, in their order, and then one update. -/
theorem matrixDrainsAndImages : Obligations.MatrixDrainsAndImages := by
  intro s f m own r row bits desc base step
  refine ⟨fun d k ho hc hd hk hr hm hg => execMdrain_rounds ho hc hd hk hr hm hg,
    fun ho hr hm hin ha hf => execMdrainq_writes ho hr hm hin ha hf, fun h ht => ?traps, ?image,
    fun hh hno => execMrestore_refused hh hno⟩
  case traps =>
    have hm : m = s.tile.mx := State.beatMx_of_trapsAt ht
    have ho : s.ownsMx := .inl ht.1
    clear_value m
    subst hm
    obtain ⟨ksave, hsave⟩ := execMsave_block s f
    refine ⟨execMdrain_illegal ht, execMdrainq_illegal ht, fun hr hm => ?drain, fun hout => ?out, fun hin ha => ?misaligned,
      fun hin ha => ⟨fun hf => ?saveBusy, fun hb hf => ?restoreBusy⟩⟩
    case drain =>
      obtain ⟨k, hk⟩ := execMdrainq_block ht hr hm
      have h2048 : row.2.2 / 8 / 256 = row.2.2 / 2048 := Nat.div_div_eq_div_mul _ _ _
      exact ⟨fun hout => hk.trans (congrArg _ (State.feedBlock_out k ht hout)),
        fun hin ha => hk.trans (congrArg _ (State.feedBlock_misaligned k ht hin ha)),
        fun i hi hin ha hf => hk.trans (congrArg _ (State.feedBlock_write_busy k hin ha ht (h2048 ▸ hi) hf))⟩
    case out =>
      obtain ⟨k, hk, -⟩ := execMrestore_block ho (f := f) fun hin => absurd hout (Nat.not_lt.2 hin)
      exact ⟨hsave.trans (congrArg _ (State.feedBlock_out ksave ht hout)), hk.trans (congrArg _ (State.feedBlock_out k ht hout))⟩
    case misaligned =>
      obtain ⟨k, hk, -⟩ := execMrestore_block ho (f := f) fun _ h => absurd h ha
      exact ⟨hsave.trans (congrArg _ (State.feedBlock_misaligned ksave ht hin ha)),
        hk.trans (congrArg _ (State.feedBlock_misaligned k ht hin ha))⟩
    case saveBusy => exact hsave.trans (congrArg _ (State.feedBlock_write_busy ksave (i := 0) hin ha ht (by decide) (by simpa using hf)))
    case restoreBusy =>
      obtain ⟨k, hk, -⟩ := execMrestore_block ho (f := f) fun _ _ => hb
      exact hk.trans (congrArg _ (State.feedBlock_read_busy k hin ha ht hf))
  case image =>
    intro b c x cd hin ha
    refine ⟨fun hf => ?save, fun h ht ho hb => execMrestore_illegal ho ht hin ha hb, fun ho hb hf => ?restore⟩
    case save =>
      have hport : ∀ i, i < 256 / 256 → s.tile.feedWrites (s.cycle + (1 + i) * s.unit) = false := fun i hi => by
        obtain rfl : i = 0 := by omega
        simpa using hf
      exact congrArg _ (State.feedBlock_write _ hin ha hport)
    case restore =>
      obtain ⟨k, hk, hs⟩ := execMrestore_block ho (f := f) fun _ _ => hb
      exact hk.trans (congrArg _ ((State.feedBlock_read k hin ha hf).trans (congrArg (State.touchSpad · _) hs)))

end Sys2Proof.Machine
end

section
/-! Lane quires: the entries of a plane, the contributions to its lanes, their rounding and clearing, and the statement that they settle
(spec/07_vector.md R195-R197; spec/08_matrix_copy.md R227). -/

namespace Sys2Proof.Machine

/-! ### The entries of a plane -/

theorem mapPlaneGo_lt (w x : Nat) (f : Nat → Nat → Nat × Flags) (n : Nat) : (mapPlaneGo w x f n).1 < 2 ^ (w * n) := by
  induction n with
  | zero => simp [mapPlaneGo]
  | succ n ih =>
    have hc : (f n (slice x w n)).1 % 2 ^ w < 2 ^ w := Nat.mod_lt _ (by positivity)
    calc (mapPlaneGo w x f n).1 + (f n (slice x w n)).1 % 2 ^ w * 2 ^ (w * n)
        < 2 ^ (w * n) + (f n (slice x w n)).1 % 2 ^ w * 2 ^ (w * n) := by omega
      _ = ((f n (slice x w n)).1 % 2 ^ w + 1) * 2 ^ (w * n) := by ring
      _ ≤ 2 ^ w * 2 ^ (w * n) := Nat.mul_le_mul_right _ hc
      _ = 2 ^ (w * (n + 1)) := by rw [← pow_add]; ring_nf

/-- Each entry is the one that the function gives. -/
theorem slice_mapPlaneGo (w x : Nat) (f : Nat → Nat → Nat × Flags) {n k : Nat} (h : k < n) :
    slice (mapPlaneGo w x f n).1 w k = (f k (slice x w k)).1 % 2 ^ w := by
  induction n with
  | zero => omega
  | succ n ih =>
    show ((mapPlaneGo w x f n).1 + (f n (slice x w n)).1 % 2 ^ w * 2 ^ (w * n)) / 2 ^ (w * k) % 2 ^ w = _
    obtain hk | rfl := Nat.lt_succ_iff_lt_or_eq.1 h
    · obtain ⟨j, rfl⟩ := Nat.exists_eq_add_of_lt hk
      rw [← ih hk, slice, show w * (k + j + 1) = w * k + (w + w * j) by ring, pow_add, pow_add,
        show ∀ c : Nat, c * (2 ^ (w * k) * (2 ^ w * 2 ^ (w * j))) = 2 ^ (w * k) * (2 ^ w * (2 ^ (w * j) * c)) from fun c => by ring,
        Nat.add_mul_div_left _ _ (by positivity), Nat.add_mul_mod_self_left]
      rfl
    · rw [Nat.add_mul_div_right _ _ (by positivity), Nat.div_eq_of_lt (mapPlaneGo_lt ..), Nat.zero_add, Nat.mod_mod]

theorem slice_mapPlane {n : Nat} (w : Nat) (x : BitVec n) (f : Nat → Nat → Nat × Flags) {k : Nat} (h : k < n / w) :
    slice (mapPlane w x f).1.toNat w k = (f k (slice x.toNat w k)).1 % 2 ^ w := by
  have hlt : (mapPlaneGo w x.toNat f (n / w)).1 < 2 ^ n :=
    (mapPlaneGo_lt ..).trans_le (Nat.pow_le_pow_right (by decide) (Nat.mul_div_le n w))
  rw [← slice_mapPlaneGo w x.toNat f h]
  show slice (BitVec.ofNat n _).toNat w k = _
  rw [BitVec.toNat_ofNat, Nat.mod_eq_of_lt hlt]

/-- The lanes that a rounding clears (R197). -/
def clearedLanes (m : PReg) (w : Nat) (acc : BitVec 65536) : BitVec 65536 :=
  (mapPlane (32 * w) acc fun k c => (if activeEl m w k then 0 else c, 0)).1

theorem State.onMx_setPlane (s : State) (p : Bool) (x : BitVec 65536) :
    (s.onMx fun mx => mx.setPlane p x) =
      { s with tile := { s.tile with mx := { s.tile.mx with
          acc0 := if p then s.tile.mx.acc0 else x, acc1 := if p then x else s.tile.mx.acc1 } } } := by
  cases p <;> rfl

theorem slice_clearedLanes (m : PReg) (w : Nat) (acc : BitVec 65536) {e : Nat} (h : e < 2048 / w) :
    slice (clearedLanes m w acc).toNat (32 * w) e = if activeEl m w e then 0 else slice acc.toNat (32 * w) e := by
  have hn : 65536 / (32 * w) = 2048 / w := by rw [← Nat.div_div_eq_div_mul]
  rw [clearedLanes, slice_mapPlane _ _ _ (by rwa [hn])]
  dsimp only
  split
  · exact Nat.zero_mod _
  · exact Nat.mod_eq_of_lt (Nat.mod_lt _ (by positivity))

/-! ### Contributions (R195, R196) -/

@[simp] theorem State.beatMx_acc0 (s : State) : s.beatMx.acc0 = s.tile.mx.acc0 := by unfold State.beatMx; split <;> rfl
@[simp] theorem State.beatMx_acc1 (s : State) : s.beatMx.acc1 = s.tile.mx.acc1 := by unfold State.beatMx; split <;> rfl

@[simp] theorem State.withMx_aFmt (s : State) (m : Mx) : (s.withMx m).tile.aFmt = s.tile.aFmt := rfl
@[simp] theorem State.withMx_bFmt (s : State) (m : Mx) : (s.withMx m).tile.bFmt = s.tile.bFmt := rfl
@[simp] theorem State.withMx_dFmt (s : State) (m : Mx) : (s.withMx m).tile.dFmt = s.tile.dFmt := rfl

theorem commonWidth_one {f : Fmt} {w : Nat} (h8 : 8 ≤ w) (h : f.width = w) : commonWidth [some f] = some w := by
  simp [commonWidth, h, h8]
theorem commonWidth_two {f g : Fmt} {w : Nat} (h8 : 8 ≤ w) (hf : f.width = w) (hg : g.width = w) :
    commonWidth [some f, some g] = some w := by
  simp [commonWidth, hf, hg, h8]

/-- The contribution of raw operands, inactive elements zero, to the lanes of a plane. -/
def State.contributes (s : State) (f : RG) (product : Bool) (w : Nat) (lost : Bool) (b : VReg) : State :=
  ((s.withMx s.beatMx).withLost lost).withResult 4 (.acc (f.dst.getLsbD 0))
    (.laneAdd product (s.tile.csr.vfmt.toNat % 32) (s.tile.csr.vfmt.toNat / 32 % 32)
      (merge (elemLanes (s.tile.preg f.pred.toNat) w) (s.tile.vector f.srcA w) 0) b) 0 f.nwb none

section
variable {s : State} {f : RG}

theorem execVlqmac_adds {fa fb : Fmt} {w : Nat} (ho : s.ownsMx) (ha : s.tile.aFmt = some fa) (hb : s.tile.bFmt = some fb) (h8 : 8 ≤ w)
    (hfa : fa.width = w) (hfb : fb.width = w) (hva : fa.view ≤ laneView w) (hvb : fb.view ≤ laneView w) :
    execVlqmac f s = .next (s.contributes f true w (s.tile.vectorLost f.srcA || s.tile.vectorLost f.srcB)
      (merge (elemLanes (s.tile.preg f.pred.toNat) w) (s.tile.vector f.srcB w) 0)) := by
  have hview : ¬laneView w < max fa.view fb.view := by omega
  rw [execVlqmac, State.laneTerm, State.modifyMx_owned ho]
  simp only [State.withMx_aFmt, State.withMx_bFmt, ha, hb, if_true, commonWidth_two h8 hfa hfb, Option.getD_some, Bool.true_and, hview,
    decide_false, Bool.false_eq_true, if_false, State.touchV_two]
  rfl

theorem execVlqadd_adds {fa : Fmt} {w : Nat} (ho : s.ownsMx) (ha : s.tile.aFmt = some fa) (h8 : 8 ≤ w) (hfa : fa.width = w) :
    execVlqadd f s = .next (s.contributes f false w (s.tile.vectorLost f.srcA) 0) := by
  rw [execVlqadd, State.laneTerm, State.modifyMx_owned ho]
  simp only [State.withMx_aFmt, ha, if_false, Bool.false_eq_true, commonWidth_one h8 hfa, Bool.false_and, State.touchV_one]
  rfl

theorem execVlqclr_clears (ho : s.ownsMx) (hp : s.tile.predOn f.pred = true) :
    execVlqclr f s = .next ((s.withMx s.beatMx).withResult 2 (.acc (f.dst.getLsbD 0)) (.word 0) 0 f.nwb none) := by
  rw [execVlqclr, State.whole, if_pos hp, State.modifyMx_owned ho]
  rfl

/-! ### Rounding (R197) -/

@[simp] theorem State.withLost_roundLost (s : State) (lost : Bool) (r : Rounding) :
    (s.withLost lost).tile.roundLost r = s.tile.roundLost r := by
  cases lost <;> rfl

theorem State.rounder_eq (s : State) {d : Fmt} {r : Rounding} {z : Val} (hd : s.tile.dFmt = some d) (h8 : 8 ≤ d.width)
    (hr : s.tile.rounding d = some r) (hz : s.tile.quireScale f.srcB = some z) (k : Fmt → Rounding → Val → State → State) :
    s.rounder f k = k d r z ((s.withLost (f.srcB != 0 && s.tile.scalarLost f.srcB)).withLost (s.tile.roundLost r)) := by
  have ht : (if f.srcB = 0 then s else s.touchS [f.srcB]) = s.withLost (f.srcB != 0 && s.tile.scalarLost f.srcB) := by
    split
    case isTrue h => simp [h]
    case isFalse h => rw [State.touchS_one, show (f.srcB != 0) = true by simpa using h, Bool.true_and]
  simp only [State.rounder, hd, commonWidth_one h8 rfl, hr, hz]
  rw [ht, State.touchR_eq, State.withLost_roundLost]

theorem State.rounder_refused {h : Nat} (ht : s.trapsAt h) (hw : commonWidth [s.tile.dFmt] = none) (k : Fmt → Rounding → Val → State → State) :
    s.rounder f k = s.trapped causeIllegalOperand 0 := by
  rw [State.rounder, hw, State.illegal_eq ht]

/-- The active lanes of a plane, rounded one by one. -/
def Tile.lanesRounded (t : Tile) (f : RG) (d : Fmt) (r : Rounding) (z : Val) : VReg × Flags :=
  let w := d.width
  mapElems w (activeEl (t.preg f.pred.toNat) w) fun e =>
    qround (32 * w) (quireInt (32 * w) (slice (t.mx.plane (f.srcA.getLsbD 0)).toNat (32 * w) e)) z d (r.word e)

/-- The state with the rounded lanes in flight. -/
def State.laneRound (s : State) (f : RG) (d : Fmt) (r : Rounding) (z : Val) : State :=
  let v := s.tile.lanesRounded f d r z
  (((s.withMx s.beatMx).withLost (f.srcB != 0 && s.tile.scalarLost f.srcB)).withLost (s.tile.roundLost r)).withResult 5
    (.v (s.tile.phys f.dst.toNat)) (.lanes (elemLanes (s.tile.preg f.pred.toNat) d.width) v.1) v.2 f.nwb (some .vb0)

@[simp] theorem State.beatMx_plane (s : State) (p : Bool) : s.beatMx.plane p = s.tile.mx.plane p := by
  simp [Mx.plane]

theorem State.withLost_mx (s : State) (lost : Bool) : (s.withLost lost).tile.mx = s.tile.mx := by cases lost <;> rfl

theorem State.laneRound_mx (s : State) (f : RG) (d : Fmt) (r : Rounding) (z : Val) : (s.laneRound f d r z).tile.mx = s.beatMx := by
  rw [State.laneRound]
  exact (State.withLost_mx _ _).trans (State.withLost_mx _ _)

theorem execVlqrnd_rounds {d : Fmt} {r : Rounding} {z : Val} (ho : s.ownsMx) (hd : s.tile.dFmt = some d) (h8 : 8 ≤ d.width)
    (hr : s.tile.rounding d = some r) (hz : s.tile.quireScale f.srcB = some z) :
    execVlqrnd f s = .next (if f.srcA.getLsbD 1 then
      (s.laneRound f d r z).onMx fun mx => mx.setPlane (f.srcA.getLsbD 0)
        (clearedLanes (s.tile.preg f.pred.toNat) d.width (s.tile.mx.plane (f.srcA.getLsbD 0)))
      else s.laneRound f d r z) := by
  rw [execVlqrnd, State.modifyMx_owned ho, State.rounder_eq (s := s.withMx s.beatMx) hd h8 hr hz]
  simp only [State.withMx_mx, State.beatMx_plane, State.putVa, State.putV, State.issue_eq, State.withLost_phys]
  rfl

/-! ### Traps and ownership (R195-R197, R227) -/

theorem State.laneTerm_refused {h : Nat} {product : Bool} (ht : s.trapsAt h)
    (hw : commonWidth (if product then [s.tile.aFmt, s.tile.bFmt] else [s.tile.aFmt]) = none) :
    s.laneTerm f product = s.trapped causeIllegalOperand 0 := by
  rw [State.laneTerm, State.modifyMx_of_trapsAt ht]
  simp only [hw, State.illegal_eq ht]

theorem State.laneTerm_too_wide {h : Nat} {fa fb : Fmt} {w : Nat} (ht : s.trapsAt h) (ha : s.tile.aFmt = some fa) (hb : s.tile.bFmt = some fb)
    (h8 : 8 ≤ w) (hfa : fa.width = w) (hfb : fb.width = w) (hv : laneView w < fa.view ∨ laneView w < fb.view) :
    s.laneTerm f true = s.trapped causeIllegalOperand 0 := by
  have hview : laneView w < max fa.view fb.view := by omega
  rw [State.laneTerm, State.modifyMx_of_trapsAt ht]
  simp [ha, hb, commonWidth_two h8 hfa hfb, hview, State.illegal_eq ht]

end

/-- Settles O30: a beat of an owner runs on the state with the restored marks cleared; the lanes that a rounding clears are read back one
by one, and the refusals come before any operand is read. -/
theorem laneQuires : Obligations.LaneQuires := by
  unfold Obligations.LaneQuires
  intro s f m p c tid u
  have hu : u = s.withMx s.beatMx := rfl
  clear_value u
  subst hu
  refine ⟨fun ho => ⟨?_, ?_, ?_, ?_⟩, fun h ht => ⟨?_, ?_, ?_, ?_⟩, fun hh hown => ⟨?_, ?_⟩⟩
  · intro fa fb w ha hb h8 hfa hfb hva hvb
    exact execVlqmac_adds ho ha hb h8 hfa hfb hva hvb
  · intro fa w ha h8 hfa
    exact execVlqadd_adds ho ha h8 hfa
  · exact execVlqclr_clears ho
  · intro d r z hd h8 hr hz w acc v t
    have ht : t = s.laneRound f d r z := by cases r <;> rfl
    have hx := execVlqrnd_rounds ho hd h8 hr hz
    clear_value t
    subst ht
    refine ⟨fun h1 => ?_, fun h1 => ?_⟩
    · exact hx.trans (by rw [h1]; rfl)
    · rw [h1, if_pos rfl, State.onMx_setPlane] at hx
      refine ⟨_, _, hx, fun h0 => ?_, fun h0 => ?_, fun e he => ?_⟩
      · rw [h0, if_pos rfl, State.laneRound_mx, State.beatMx_acc0]
      · rw [h0, if_neg Bool.false_ne_true, State.laneRound_mx, State.beatMx_acc1]
      · refine Eq.trans ?_ (slice_clearedLanes m w acc he)
        split
        · rfl
        · rfl
  · exact fun hw => congrArg _ (State.laneTerm_refused (product := true) ht hw)
  · intro fa fb w ha hb h8 hfa hfb hv
    exact congrArg _ (State.laneTerm_too_wide ht ha hb h8 hfa hfb hv)
  · exact fun hw => congrArg _ (State.laneTerm_refused (product := false) ht hw)
  · intro hw
    exact congrArg _ ((State.modifyMx_of_trapsAt ht _).trans (State.rounder_refused ht hw _))
  · intro i hi
    simp only [List.mem_cons, List.not_mem_nil, or_false] at hi
    obtain rfl | rfl | rfl := hi
    · exact congrArg _ (State.modifyMx_refused hh hown _)
    · exact congrArg _ (State.modifyMx_refused hh hown _)
    · exact congrArg _ (State.modifyMx_refused hh hown _)
  · intro hp
    exact congrArg _ ((if_pos hp).trans (State.modifyMx_refused hh hown _))

end Sys2Proof.Machine
end

section
/-! The values of the special functions: integer roots and the cells of their lattice, the choice between two values, and the exact cases of
the exponential and of the logarithm (spec/05_scalar_control.md R119; spec/07_vector.md R186, R207). -/

namespace Sys2Proof

/-! ### Integer roots -/

/-- A step of the iteration stays at or above the root. -/
theorem sqrt_le_newton {n x : Nat} (hx : 0 < x) : n.sqrt ≤ (x + n / x) / 2 := by
  have hr : n.sqrt * n.sqrt ≤ n := n.sqrt_le
  have hq : n < x * (n / x + 1) := Nat.lt_mul_div_succ n hx
  have key : 2 * n.sqrt ≤ x + n / x := by
    by_contra h
    zify at *
    nlinarith [sq_nonneg ((x : ℤ) - n.sqrt)]
  omega

/-- From above the root, a step halves the distance to it. -/
theorem div_le_sqrt {n x : Nat} (h : n.sqrt < x) : n / x ≤ n.sqrt := by
  refine Nat.le_of_lt_succ (Nat.div_lt_of_lt_mul (n.lt_succ_sqrt.trans_le ?_))
  exact Nat.mul_le_mul_right _ h

theorem isqrtGo_eq_sqrt {n : Nat} (hn : 0 < n) {fuel x : Nat} (hx : n.sqrt ≤ x) (hf : x - n.sqrt < 2 ^ fuel) : isqrtGo n fuel x = n.sqrt := by
  induction fuel generalizing x with
  | zero =>
    rw [pow_zero, Nat.lt_one_iff, Nat.sub_eq_zero_iff_le] at hf
    exact le_antisymm hf hx
  | succ fuel ih =>
    have hpos : 0 < x := (Nat.sqrt_pos.2 hn).trans_le hx
    have hy := sqrt_le_newton (n := n) hpos
    rw [isqrtGo]
    obtain rfl | hlt := hx.eq_or_lt
    · exact if_neg hy.not_gt
    · have hdiv := div_le_sqrt hlt
      rw [if_pos (by omega)]
      exact ih hy (by omega)

/-- The starting point lies above the root, within the distance that the fuel covers. -/
theorem isqrt_eq_sqrt (n : Nat) : isqrt n = n.sqrt := by
  rw [isqrt]
  split
  case isTrue h => simp [h]
  case isFalse h =>
    have hstart : n < (2 ^ (n.log2 / 2 + 1)) ^ 2 := by
      refine Nat.lt_log2_self.trans_le ?_
      rw [← pow_mul]
      exact Nat.pow_le_pow_right two_pos (by omega)
    have hfuel : 2 ^ (n.log2 / 2 + 1) < 2 ^ (n.log2 + 2) := Nat.pow_lt_pow_right (by decide) (by omega)
    exact isqrtGo_eq_sqrt (Nat.pos_of_ne_zero h) (Nat.sqrt_lt'.2 hstart).le ((Nat.sub_le _ _).trans_lt hfuel)

/-! ### Roots of fractions (R207) -/

/-- A result that is the root itself where it is rational, and otherwise a value strictly inside the root's cell of the lattice. -/
def IsRoot (r : OpRes) (x : ℝ) (n : Nat) : Prop :=
  ∃ m e : Nat, 0 < e ∧ r = .ofVal (.fin false m e) ∧
    ((∀ a b : Nat, 0 < b → x = (a : ℝ) / b → (m : ℝ) / e = x) ∧
      ((¬ ∃ a b : Nat, 0 < b ∧ x = (a : ℝ) / b) → ∃ k : Nat,
        (k : ℝ) / (n * 2 ^ 128) < x ∧ x < (k + 1 : ℝ) / (n * 2 ^ 128) ∧
        (k : ℝ) / (n * 2 ^ 128) < (m : ℝ) / e ∧ (m : ℝ) / e < (k + 1 : ℝ) / (n * 2 ^ 128)))

/-- The integer square root of `X` gives a root that is that of `X` in units of the lattice. -/
theorem isRoot_of_lattice {x : ℝ} {X n : Nat} (hn : 0 < n) (hroot : x = √(X : ℝ) / (n * 2 ^ 128))
    (hsquare : ∀ a b : Nat, x = (a : ℝ) / b → X.sqrt * X.sqrt = X) :
    IsRoot (.ofVal (if X.sqrt * X.sqrt = X then .fin false X.sqrt (n * 2 ^ 128) else .fin false (2 * X.sqrt + 1) (n * 2 ^ 129))) x n := by
  have hl : (0 : ℝ) < n * 2 ^ 128 := by positivity
  split
  case isTrue h =>
    have hexact : x = (X.sqrt : ℝ) / ((n * 2 ^ 128 : Nat) : ℝ) := by
      conv_lhs => rw [hroot, ← h, Nat.cast_mul, Real.sqrt_mul_self (Nat.cast_nonneg _)]
      rw [Nat.cast_mul n, Nat.cast_pow, Nat.cast_ofNat]
    exact ⟨_, _, by positivity, rfl, fun _ _ _ _ => hexact.symm, fun hirr => absurd ⟨_, _, by positivity, hexact⟩ hirr⟩
  case isFalse h =>
    refine ⟨_, _, by positivity, rfl, fun a b _ hab => absurd (hsquare a b hab) h, fun _ => ⟨X.sqrt, ?_, ?_, ?_, ?_⟩⟩
    · rw [hroot]
      gcongr
      exact Real.lt_sqrt_of_sq_lt (by exact_mod_cast (sq X.sqrt).trans_lt (lt_of_le_of_ne X.sqrt_le h))
    · rw [hroot]
      gcongr
      exact (Real.sqrt_lt' (by positivity)).2 (by exact_mod_cast X.lt_succ_sqrt')
    · rw [div_lt_div_iff₀ hl (by positivity)]
      push_cast
      nlinarith
    · rw [div_lt_div_iff₀ (by positivity) hl]
      push_cast
      nlinarith

theorem sqrtFrac_eq (n d : Nat) : sqrtFrac n d =
    if (n * d * 4 ^ 128).sqrt * (n * d * 4 ^ 128).sqrt = n * d * 4 ^ 128 then .fin false (n * d * 4 ^ 128).sqrt (d * 2 ^ 128)
    else .fin false (2 * (n * d * 4 ^ 128).sqrt + 1) (d * 2 ^ 129) := by
  rw [← isqrt_eq_sqrt]
  rfl

section
variable {n d : Nat} (hd : 0 < d)
include hd

/-- In units of the lattice the root is that of an integer. -/
theorem sqrt_mul_lattice : √((n : ℝ) / d) * (d * 2 ^ 128) = √((n * d * 4 ^ 128 : Nat) : ℝ) := by
  have hd' : (0 : ℝ) < d := by exact_mod_cast hd
  have hx : ((n * d * 4 ^ 128 : Nat) : ℝ) = (n : ℝ) / d * (d * 2 ^ 128) ^ 2 := by
    push_cast
    field_simp
    norm_num
  rw [hx, Real.sqrt_mul (by positivity), Real.sqrt_sq (by positivity)]

/-- A rational root has an integer below it that is a square. -/
theorem isSquare_of_sqrt_rational {a b : Nat} (h : √((n : ℝ) / d) = (a : ℝ) / b) : IsSquare (n * d * 4 ^ 128) := by
  have hx : (n * d * 4 ^ 128 : Nat) = ((a : ℝ) / b * (d * 2 ^ 128)) * ((a : ℝ) / b * (d * 2 ^ 128)) := by
    rw [← h, sqrt_mul_lattice hd, Real.mul_self_sqrt (Nat.cast_nonneg _)]
  refine Rat.isSquare_natCast_iff.1 ⟨(a : ℚ) / b * (d * 2 ^ 128), ?_⟩
  exact Rat.cast_injective (α := ℝ) (by push_cast at hx ⊢; exact hx)

/-- `sqrtFrac` gives the root. -/
theorem sqrtFrac_isRoot : IsRoot (.ofVal (sqrtFrac n d)) √((n : ℝ) / d) d := by
  rw [sqrtFrac_eq]
  refine isRoot_of_lattice hd ?_ fun a b h => ?_
  · rw [← sqrt_mul_lattice hd, mul_div_cancel_right₀ _ (by positivity)]
  · obtain ⟨c, hc⟩ := isSquare_of_sqrt_rational hd h
    exact (Nat.exists_mul_self _).1 ⟨c, hc.symm⟩

end

/-! ### Operands outside the domain (R207) -/

section
variable (ieee : Bool) {n : Nat} (hn : 0 < n) (d : Nat)
include hn

theorem vsqrt_negative : vsqrt ieee (.fin true n d) = outside ieee := by simp [vsqrt, hn.ne']
theorem vrsqrt_negative : vrsqrt ieee (.fin true n d) = outside ieee := by simp [vrsqrt, hn.ne']
theorem vlog2_negative : vlog2 ieee (.fin true n d) = outside ieee := by simp only [vlog2, if_neg hn.ne', if_true]

end

theorem vsqrt_isRoot (ieee : Bool) {n d : Nat} (hn : 0 < n) (hd : 0 < d) :
    IsRoot (vsqrt ieee (.fin false n d)) √((n : ℝ) / d) d := by
  rw [show vsqrt ieee (.fin false n d) = .ofVal (sqrtFrac n d) from if_neg hn.ne']
  exact sqrtFrac_isRoot hd

theorem vrsqrt_isRoot (ieee : Bool) {n d : Nat} (hn : 0 < n) :
    IsRoot (vrsqrt ieee (.fin false n d)) (1 / √((n : ℝ) / d)) n := by
  rw [show vrsqrt ieee (.fin false n d) = .ofVal (sqrtFrac d n) from if_neg hn.ne', one_div, ← Real.sqrt_inv, inv_div]
  exact sqrtFrac_isRoot hn

/-! ### Minimum and maximum (R119, R186) -/

/-- Of two finite values the one is below the other by its rational, or as -0 is below +0. -/
theorem ltZ_fin_iff {s t : Bool} {n d m e : Nat} (hd : 0 < d) (he : 0 < e) :
    ltZ (.fin s n d) (.fin t m e) = true ↔
      (Val.fin s n d).rat < (Val.fin t m e).rat ∨ (n = 0 ∧ m = 0 ∧ s = true ∧ t = false) := by
  rw [ltZ]
  split
  case isTrue h =>
    obtain ⟨rfl, rfl⟩ := h
    simp [Val.rat_fin]
  case isFalse h =>
    rw [Val.lt_iff (a := .fin s n d) (b := .fin t m e) hd he rfl rfl]
    have hz : ¬(n = 0 ∧ m = 0 ∧ s = true ∧ t = false) := fun ⟨hn, hm, _⟩ => h ⟨hn, hm⟩
    simp [Val.ext, hz]

theorem ltZ_fin_asymm {s t : Bool} {n d m e : Nat} (hd : 0 < d) (he : 0 < e) (h : ltZ (.fin s n d) (.fin t m e) = true) :
    ltZ (.fin t m e) (.fin s n d) = false := by
  refine Bool.eq_false_iff.2 fun h' => ?_
  rw [ltZ_fin_iff hd he] at h
  rw [ltZ_fin_iff he hd] at h'
  obtain h | ⟨rfl, rfl, rfl, rfl⟩ := h
  · obtain h' | ⟨rfl, rfl, -⟩ := h'
    · exact lt_asymm h h'
    · simp [Val.rat_fin] at h
  · simp at h'

theorem ltZ_inf_left {s : Bool} {b : Val} (hb : b.isNan = false) (h : b = .inf (!s) ∨ b.isInf = false) : ltZ (.inf s) b = s := by
  cases b with
  | fin t m e => rfl
  | inf t =>
    obtain h | h := h
    · cases h; cases s <;> rfl
    · cases h
  | nan => cases hb

theorem ltZ_inf_right {s : Bool} {b : Val} (hb : b.isNan = false) (h : b = .inf (!s) ∨ b.isInf = false) : ltZ b (.inf s) = !s := by
  cases b with
  | fin t m e => rfl
  | inf t =>
    obtain h | h := h
    · cases h; cases s <;> rfl
    · cases h
  | nan => cases hb

/-- On operands that are no NaN the choice is by order alone. -/
theorem vminmax_of_not_nan (g ta tb : Bool) {a b : Val} (ha : a.isNan = false) (hb : b.isNan = false) :
    vminmax g ta tb a b = if g then (if ltZ a b then b else a) else (if ltZ b a then b else a) := by
  simp [vminmax, ha, hb]

theorem Val.isNan_nan : Val.nan.isNan = true := rfl

theorem vminmax_nan_left (g tb : Bool) {b : Val} (hb : b.isNan = false) : vminmax g false tb .nan b = b := by
  simp [vminmax, hb, Val.isNan_nan]
theorem vminmax_nan_right (g ta : Bool) {a : Val} (ha : a.isNan = false) : vminmax g ta false a .nan = a := by
  simp [vminmax, ha, Val.isNan_nan]

/-! ### Powers of two (R207) -/

/-- The exponential splits its operand at the floor. -/
theorem floor_rat (s : Bool) (n : Nat) {d : Nat} (hd : 0 < d) :
    ⌊(Val.fin s n d).rat⌋ = if s then -(((n + d - 1) / d : Nat) : ℤ) else ((n / d : Nat) : ℤ) := by
  have hd' : (0 : ℚ) < d := by exact_mod_cast hd
  cases s with
  | false => simpa using Rat.floor_natCast_div_natCast n d
  | true =>
    have hle : n ≤ (n + d - 1) / d * d := by
      have := Nat.lt_mul_div_succ (n + d - 1) hd
      rw [Nat.mul_comm]
      rw [Nat.mul_succ] at this
      omega
    have hlt : (n + d - 1) / d * d < n + d := (Nat.div_mul_le_self _ _).trans_lt (by omega)
    rw [Val.rat_true, if_pos rfl, Int.floor_eq_iff]
    constructor
    · push_cast
      rw [neg_le_neg_iff, div_le_iff₀ hd']
      exact_mod_cast hle
    · push_cast
      rw [neg_add_eq_sub, lt_sub_comm, sub_neg_eq_add, ← sub_lt_iff_lt_add', lt_div_iff₀ hd', sub_mul, one_mul, sub_lt_iff_lt_add]
      exact_mod_cast hlt

section
variable {s : Bool} {n d : Nat} (hd : 0 < d)
include hd

theorem vexp2_above (h : 8193 ≤ (Val.fin s n d).rat) : vexp2 (.fin s n d) = .ofVal (.fin false (2 ^ 8192) 1) := by
  have hf : 8192 < ⌊(Val.fin s n d).rat⌋ := Int.lt_iff_add_one_le.2 (Int.le_floor.2 (by exact_mod_cast h))
  rw [floor_rat s n hd] at hf
  exact if_pos hf

theorem vexp2_below (h : (Val.fin s n d).rat < -8192) : vexp2 (.fin s n d) = .ofVal (.fin false 1 (2 ^ 8192)) := by
  have hf : ⌊(Val.fin s n d).rat⌋ < -8192 := Int.floor_lt.2 (by exact_mod_cast h)
  rw [floor_rat s n hd] at hf
  exact (if_neg (by omega)).trans (if_pos hf)

theorem natAbs_mul_of_rat_eq {i : ℤ} (h : (Val.fin s n d).rat = i) : n = i.natAbs * d := by
  have hd' : (d : ℚ) ≠ 0 := by exact_mod_cast hd.ne'
  have ha : (n : ℚ) / d = |(i : ℚ)| := by rw [← h, Val.abs_rat]
  rw [div_eq_iff hd', ← Int.cast_abs, Int.abs_eq_natAbs] at ha
  exact_mod_cast ha

theorem vexp2_integer {i : ℤ} (hi : |i| ≤ 8192) (h : (Val.fin s n d).rat = i) :
    vexp2 (.fin s n d) = .ofVal (.fin false (scale2 1 1 i).1 (scale2 1 1 i).2) := by
  have hf := floor_rat s n hd
  rw [h, Int.floor_intCast] at hf
  have hn := natAbs_mul_of_rat_eq hd h
  have hzero : (if s then i.natAbs * d - n else n % d) = 0 := by
    subst hn
    simp
  obtain ⟨hlo, hhi⟩ := abs_le.1 hi
  simp only [vexp2, ← hf, if_neg hhi.not_gt, if_neg hlo.not_gt, hzero, if_true]

/-- The logarithm of a power of two is its exponent. -/
theorem vlog2_two_zpow (ieee : Bool) {l : ℤ} (h : (Val.fin s n d).rat = 2 ^ l) : vlog2 ieee (.fin s n d) = .ofVal (.ofInt l) := by
  have hpow : (0 : ℚ) < 2 ^ l := by positivity
  obtain rfl : s = false := by
    by_contra hs
    rw [eq_true_of_ne_false hs, Val.rat_true] at h
    have : (0 : ℚ) ≤ (n : ℚ) / d := by positivity
    linarith
  rw [Val.rat_false] at h
  have hn : n ≠ 0 := by
    rintro rfl
    simp at h
    exact hpow.ne h
  have hfl : floorLog2 n d = l := by
    obtain ⟨hlo, hhi⟩ := floorLog2_spec (Nat.pos_of_ne_zero hn) hd
    rw [h, zpow_le_zpow_iff_right₀ one_lt_two] at hlo
    rw [h, zpow_lt_zpow_iff_right₀ one_lt_two] at hhi
    omega
  have hone : (scale2 n d (-l)).1 = (scale2 n d (-l)).2 := by
    have hq : ((scale2 n d (-l)).2 : ℚ) ≠ 0 := by exact_mod_cast (scale2_den_pos hd n (-l)).ne'
    have := scale2_rat n d (-l)
    rw [h, zpow_neg, mul_inv_cancel₀ hpow.ne', div_eq_one_iff_eq hq] at this
    exact_mod_cast this
  simp only [vlog2, if_neg hn, hfl, Bool.false_eq_true, if_false, hone, if_true]

end

namespace Machine

/-- Settles O56: the roots are integer roots on the lattice, the choice between two values is by their order, the exponential splits its
operand at the floor, and the logarithm of a power of two is its binade; the other cases are the functions' own. -/
theorem functionValues : Obligations.FunctionValues := by
  unfold Obligations.FunctionValues
  refine ⟨fun ieee s n d hd => ⟨fun hn => ⟨vsqrt_isRoot ieee hn hd, vrsqrt_isRoot ieee hn, ?_, ?_, ?_⟩, rfl, rfl, rfl, rfl, rfl, rfl⟩,
    fun ieee s => ⟨rfl, rfl, rfl, rfl, rfl, rfl, rfl, rfl, rfl, rfl, rfl, rfl, ?_⟩,
    fun g ta tb s t n d m e a b => ⟨fun hd he => ?_, fun hb hib => ⟨?_, ?_⟩, ?_, ?_, fun hb => ⟨?_, ?_⟩, ?_⟩,
    fun s n d hd => ⟨fun i hi hx => ?_, vexp2_above hd, vexp2_below hd, fun ieee l => vlog2_two_zpow hd ieee⟩⟩
  · exact vsqrt_negative ieee hn d
  · exact vrsqrt_negative ieee hn d
  · exact vlog2_negative ieee hn d
  · simp [vsqrt, vrsqrt, vrecip, vexp2, vlog2, vtanh, vsigm]
  · have hxy := ltZ_fin_iff (s := s) (t := t) (n := n) (m := m) hd he
    have hyx := (ltZ_fin_iff (s := t) (t := s) (n := m) (m := n) he hd).trans (or_congr_right and_left_comm)
    intro x y below above
    refine ⟨fun h => ?_, fun h => ?_, fun h h' => ?_⟩
    · have hlt := hxy.2 h
      simp [vminmax_of_not_nan _ ta tb (a := x) (b := y) rfl rfl, x, y, hlt, ltZ_fin_asymm hd he hlt]
    · have hlt := hyx.2 h
      simp [vminmax_of_not_nan _ ta tb (a := x) (b := y) rfl rfl, x, y, hlt, ltZ_fin_asymm he hd hlt]
    · simp [vminmax_of_not_nan _ ta tb (a := x) (b := y) rfl rfl, x, y, mt hxy.1 h, mt hyx.1 h']
  · rw [vminmax_of_not_nan g ta tb rfl hb, ltZ_inf_left hb hib, ltZ_inf_right hb hib]
    cases s <;> cases g <;> rfl
  · rw [vminmax_of_not_nan g ta tb hb rfl, ltZ_inf_left hb hib, ltZ_inf_right hb hib]
    cases s <;> cases g <;> rfl
  · simp [vminmax, Val.isNan_nan]
  · simp [vminmax, Val.isNan_nan]
  · exact vminmax_nan_left g tb hb
  · exact vminmax_nan_right g tb hb
  · simp [vminmax, Val.isNan_nan]
  · refine ⟨_, _, scale2_den_pos one_pos 1 i, vexp2_integer hd hi hx, ?_⟩
    rw [scale2_rat]
    simp

end Machine

end Sys2Proof
end
